-- ==== Sys2Proof/Word.lean ====
section
/-! DEFINITION. The word types of the DM3-8K and the plainest operations on them (R4, R11). -/

namespace Sys2Proof

/-- One byte, as frames, images and records carry them (R4). -/
abbrev Byte := BitVec 8

/-- A byte string, most significant byte of every field first (R4). -/
abbrev Bytes := List (BitVec 8)

/-- A register value: registers are 32 bits wide (R11). -/
abbrev Word := BitVec 32

/-- A 64-bit register or field, read as two words (R9). -/
abbrev DWord := BitVec 64

/-- A 128-bit AES block, key or TAP data register (chapter 6, R371). -/
abbrev Block := BitVec 128

/-- An instant or a span, in half nanoseconds: the 0.5 ns resolution of R224. -/
abbrev Time := Nat

end Sys2Proof
end

