-- ==== Sys2Proof/Syntax.lean ====
section
/-! DEFINITION. The commands and happenings of the DM3-8K: one constructor of `Instr` per row of
spec/opcode_table.json. Every command carries `t`, the instant at which it takes place, in half
nanoseconds of the TCXO count (notes/assumptions/1). The table gives the rows no operands; the operands
here are what each row's rule says comes from outside: the value written, the bytes received, the
quantity measured (notes/assumptions/4). -/

namespace Sys2Proof

/-- The three bands (Table 4.1, Table 6.2). -/
inductive Band where
  | l | m | h
deriving DecidableEq, Repr

/-- The two reference domains of lamp time (R229). -/
inductive RefDom where
  | a | b
deriving DecidableEq, Repr

/-- The four front-end sequences (R45). -/
inductive SeqId where
  | txOn | txOff | rxOn | rxOff
deriving DecidableEq, Repr

/-- What the Lantern sends with one transmit command. -/
inductive TxKind where
  /-- the band's regular beacon in slot 0 (R86) -/
  | beacon
  /-- the long-range beacon of Radio L (R90) -/
  | lrBeacon
  /-- the REPLY in the reply slot of plan record `grant` (R97) -/
  | reply (grant : Nat)
  /-- the REPLY at the reply position of an open slot, after the oldest POLL of the band (R89) -/
  | pollReply
  /-- the oldest ASSOC_RESP waiting on the band (R101) -/
  | assocResp
  /-- one DATA frame in STATION_DOWN plan record `grant`, drawn from the link queues (R203) -/
  | down (grant : Nat)
  /-- the bell burst placed in this superframe (R132) -/
  | bell
  /-- the Keeper immediate transmission that has been given its planned start (R29) -/
  | keeper
  /-- a MAC frame a relay sends, as given, in its parent's slot `slot`, at a rate and class (R136, R138) -/
  | parentUp (slot rate cls : Nat) (frame : Bytes)
deriving DecidableEq, Repr

/-- What a receive window is for. -/
inductive RxWin where
  /-- the window of plan record `grant` (R95) -/
  | grant (grant : Nat)
  /-- open slot number `i` of the superframe (R88) -/
  | openSlot (i : Nat)
  /-- the relay's parent window (R137) -/
  | parent
  /-- a scanning relay's listening on its scan channel (R139) -/
  | scan
  /-- the reception of an air check (R299, R312) -/
  | air
deriving DecidableEq, Repr

/-- What the correlator measures (R70, R77): STF power at the RX pin in 0.25 dB, the instant of its first STF
symbol, the normalised correlation in 1/256, and whether the O-QPSK detector had a frame in progress. -/
structure Detect where
  pwr : Int
  start : Time
  corr : Nat
  cuts154 : Bool
deriving DecidableEq, Repr

/-- What one training run finds for one DRAM byte lane (R246): a passing gate, and the widest passing
window of each eye in 1/64 UI (0: none). -/
structure LaneEye where
  gate : Bool
  rd : Nat
  wr : Nat
deriving DecidableEq, Repr

/-- One run of training or restore over the eight byte lanes. -/
abbrev TrainRun := List LaneEye

/-- One captured feedback sample and the predistorter output that produced it (R44), as integers of
one common scale: real and imaginary part of y(n), then of the feedback sample. -/
structure FbSample where
  yRe : Int
  yIm : Int
  zRe : Int
  zIm : Int
deriving DecidableEq, Repr

/-- The feedback receiver's measurement of a packet (R50): mean payload power in 0.25 dB at the
feedback pad, or a saturated or starved receiver. -/
inductive FbPower where
  | measured (q : Int)
  | saturated
  | starved
deriving DecidableEq, Repr

/-- The heartbeat patterns of Table 14.2. -/
inductive HbPattern where
  | lit | standby | starting | yield | off
deriving DecidableEq, Repr

/-- A KPR injection descriptor (R169, R225) with its packet. -/
structure Injection where
  directed : Bool
  action : DWord
  tsReq : Bool
  tag : Nat
  data : Bytes
deriving DecidableEq, Repr

/-- What a scrub or a read finds in one SRAM word (R252). -/
inductive EccOutcome where
  | clean | corrected | uncorrectable
deriving DecidableEq, Repr

/-- A UDP datagram as it reaches Keeper: source address and port, destination port, the KPR queue that carried it, and the ingress
port code (R348). -/
structure Datagram where
  src : Nat
  sport : Nat
  dport : Nat
  queue : Nat
  ingress : Nat
  data : Bytes
deriving DecidableEq, Repr

/-- The commands. -/
inductive Instr where
  -- registers (chapters 0, 1)
  | registerWrite (t : Time) (req addr width : Nat) (v : Word)
  | rcRead (t : Time) (req addr width : Nat)
  | lowWordRead (t : Time) (req addr width : Nat)
  | snapCapture (t : Time) (d : Fin 10)
  | snapEnd (t : Time) (d : Fin 10)
  -- radio front end (chapter 2)
  | txCommand (t : Time) (b : Band) (k : TxKind) (ret : BitVec 3)
  | rxCommand (t : Time) (b : Band) (w : RxWin)
  | keeperImmediateTx (t : Time) (b : Band) (rate cls : Nat) (ret : BitVec 3) (data : Bytes)
  | radioTransitionEnd (t : Time) (b : Band)
  | sequenceStep (t : Time) (b : Band) (sq : SeqId) (i : Fin 8)
  | txFrameEnd (t : Time) (b : Band) (p : FbPower) (cap : List FbSample)
  | rxWindowClose (t : Time) (b : Band) (w : RxWin)
  | tempSample (t : Time) (temp : BitVec 16)
  | calGapStart (t : Time) (b : Band)
  | synthCalEnd (t : Time) (b : Band) (locked : Bool)
  | calDeferExpiry (t : Time) (b : Band) (g : Fin 16)
  | calCmdPending (t : Time) (b : Band) (g : Fin 16)
  | calCmdForce (t : Time) (b : Band) (g : Fin 16)
  | forcedCalStart (t : Time) (b : Band)
  | lockLoss (t : Time) (b : Band)
  | bgcalStart (t : Time) (b : Band) (k : Fin 5)
  | bgcalEnd (t : Time) (b : Band) (result : Word)
  -- receive path (chapter 3)
  | preambleDetect (t : Time) (b : Band) (p : Detect)
  | syncSearchTimeout (t : Time) (b : Band)
  | headerReceived (t : Time) (b : Band) (sync : Time) (soft : List (Int × Int))
  | codewordReady (t : Time) (b : Band) (soft : List Int) (layers : Nat)
  | codewordDecoded (t : Time) (b : Band)
  | rxFrameEnd (t : Time) (b : Band)
  | frame154Rx (t : Time) (phr : Byte) (psdu : Bytes) (fcsOk : Bool) (rssi : Int) (sfd : Time)
  | frame154TxRequest (t : Time) (ch : Nat) (ret : BitVec 3) (phr : Byte) (psdu : Bytes)
  -- cipher (chapter 6)
  | jobAdmit (t : Time)
  | checkJobEnd (t : Time) (job : Nat)
  | reorderSkip (t : Time) (client : Fin 8192)
  | keyServiceEpoch (t : Time) (client : Fin 8192)
  | kdfCmd (t : Time) (v : Word)
  | kdfJobEnd (t : Time)
  | ringVerify (t : Time)
  | assocAnswer (t : Time)
  -- superframe and schedule (chapters 4, 5)
  | superframeBoundary (t : Time)
  | openMapWrite (t : Time) (b : Band) (v : Word)
  | planCommit (t : Time) (sfAhead : BitVec 8)
  | dutyBucketRoll (t : Time)
  | profileSwitchGo (t : Time) (p : Fin 16) (countdown : BitVec 6)
  | profileSwitchCancel (t : Time)
  | bellMatch (t : Time) (code : Word)
  | parentWindowClose (t : Time)
  -- packet pipeline (chapter 7)
  | packetEntry (t : Time) (inj : Option Injection)
  | recircEntry (t : Time)
  | passResolve (t : Time)
  | learnPop (t : Time)
  | tblRead (t : Time) (tbl : Fin 4) (index : BitVec 15)
  | tblWrite (t : Time) (tbl : Fin 4) (index : BitVec 15)
  | tblClear (t : Time) (tbl : Fin 4) (index : BitVec 15)
  | tblHash (t : Time) (tbl : Fin 4)
  | genCommit (t : Time)
  | genCommitProceed (t : Time)
  | genDrainTimeout (t : Time)
  -- queues, gates, meters (chapter 8)
  | portSelect (t : Time) (p : Fin 9)
  | portFrameEnd (t : Time) (p : Fin 9)
  | gateEntryChange (t : Time) (e : Fin 6)
  | gateDataWrite (t : Time) (v : Word)
  | gateSwap (t : Time) (e : Fin 6)
  | meterWrite (t : Time) (colourAware : Bool) (yellowDp : BitVec 2)
  | meterRead (t : Time)
  -- lanes and Ethernet (chapter 9)
  | ethFrameRx (t : Time) (e : Fin 6) (data : Bytes)
  | linkUpChange (t : Time) (e : Fin 6) (blockLock hiBer localFault remoteFault : Bool)
  | rngBringupStart (t : Time)
  | rngTrainTimeout (t : Time)
  | rngCheckEnd (t : Time) (errs6 errs7 : Nat)
  | rngStepResult (t : Time)
  | rngRetryExpiry (t : Time)
  | rngLinkDown (t : Time) (block6 hiBer6 block7 hiBer7 : Bool)
  | rngRetrainCmd (t : Time)
  | rngFrameRx (t : Time) (data : Bytes)
  | rngIdleEntry (t : Time)
  | keepaliveTimer (t : Time)
  | mirrorRetxTimeout (t : Time) (ch : Fin 6)
  | laneTestWrite (t : Time) (lane : Fin 8) (v : Word)
  | tsPop (t : Time)
  -- time (chapter 10)
  | ppsEdge (t : Time) (falling : Bool)
  | nmeaSentence (t : Time) (text : Bytes)
  | domFeed (t : Time) (d : RefDom) (hi : Word)
  | domainLossTimeout (t : Time) (d : RefDom)
  | revertTimer (t : Time)
  | timeGateTimeout (t : Time)
  | rtcSecondWrite (t : Time)
  -- memory and check values (chapter 11)
  | dramRequest (t : Time) (req : Nat) (addr : Nat) (keepOpen : Bool) (data : Option Bytes)
  | rowCloseTimeout (t : Time) (ch : Fin 2) (bank : Fin 8)
  | refreshDue (t : Time) (ch : Fin 2)
  | selfRefreshEntry (t : Time) (ch : Fin 2)
  | sramScrub (t : Time) (blk : Fin 7) (sub : Band) (word : Nat) (r : EccOutcome)
  | cvStart (t : Time) (req : Nat) (n : Fin 4)
  | cvData (t : Time) (req : Nat) (n : Fin 4) (v : Word)
  | cvStateWrite (t : Time) (req : Nat) (n : Fin 4) (hi : Word)
  -- Light List and start-up (chapters 12, 13)
  | domainReady (t : Time) (d : Fin 10)
  | reloadCmd (t : Time) (mask : BitVec 10)
  | reloadComplete (t : Time)
  | reloadFail (t : Time) (d : Fin 10)
  | vinRise (t : Time) (mv : Nat)
  | railStep (t : Time) (inRegulation : Bool)
  | railFaultRetry (t : Time)
  | resetAssert (t : Time)
  | resetRelease (t : Time)
  | bringUp (t : Time) (runs : List TrainRun)
  | startLimitExpiry (t : Time) (d : Fin 10)
  -- twin operation (chapter 14)
  | startWaitExpiry (t : Time)
  | hbPatternClassify (t : Time) (h1 h2 h3 : Time)
  | heartbeatLoss (t : Time)
  | heartbeatReturn (t : Time)
  | handoverCmd (t : Time) (sfAhead : BitVec 8)
  | forceCmd (t : Time)
  | lampChange (t : Time)
  -- power states (chapter 15)
  | pwrRequestEclipse (t : Time)
  | pwrRequestDeepEclipse (t : Time)
  | pwrRequestMoored (t : Time)
  | pwrRequestAccept (t : Time)
  | entryComplete (t : Time)
  | sequencerTick (t : Time) (vinMv : Nat) (temp : BitVec 16)
  | rtcAlarm (t : Time)
  | wakeExit (t : Time) (runs : List TrainRun)
  | padRelease (t : Time) (groups : BitVec 4)
  | gpioDebounce (t : Time) (pin : Fin 16) (level : Bool) (since : Time)
  | gpioChatterCheck (t : Time) (pin : Fin 16) (transitions : Nat)
  | gpioReassess (t : Time) (pin : Fin 16) (transitions : Nat)
  | gpioStuck (t : Time) (pin : Fin 16)
  -- Keeper services (chapter 16)
  | spoolWrite (t : Time)
  | spoolAckRx (t : Time) (data : Bytes)
  | spoolFwdTimeout (t : Time)
  | geoFixTimeout (t : Time)
  | ptpSyncComplete (t : Time) (e : Fin 6) (offset : Int)
  | mgmtRx (t : Time) (m : Datagram)
  | hello (t : Time)
  | read (t : Time)
  | writeGuarded (t : Time)
  | stageBegin (t : Time)
  | stageData (t : Time)
  | stageEnd (t : Time)
  | reload (t : Time)
  | ladder (t : Time)
  | logRead (t : Time)
  | charRead (t : Time)
  | restart (t : Time)
  -- events and the Log (chapter 17)
  | evPendClear (t : Time) (i : Fin 8) (v : Word)
  | evOccRead (t : Time)
  | evPop (t : Time)
  | logCommit (t : Time)
  | logCommitDone (t : Time)
  | logSecondEnd (t : Time)
  | brownout (t : Time) (vinMv : Nat)
  | mooringPowerLoss (t : Time)
  | watchKick (t : Time) (mask : BitVec 16)
  | watchExpiry (t : Time) (w : Fin 16)
  | ladderStep (t : Time) (d : Fin 10)
  | ladderDeadline (t : Time) (d : Fin 10)
  | ladderRequest (t : Time) (d step : Nat)
  | ladderHaltClear (t : Time)
  -- the TAP and core debug (chapter 17)
  | extest (t : Time) (boundary : Nat)
  | samplePreload (t : Time) (boundary : Nat)
  | idcode (t : Time)
  | clamp (t : Time)
  | highz (t : Time)
  | bypass (t : Time) (code : BitVec 5)
  | dbgChal (t : Time) (random : Block)
  | dbgResp (t : Time) (response : Block)
  | dbgBlockExpiry (t : Time)
  | dbgRelock (t : Time)
  | dbgAccessRead (t : Time) (target : BitVec 6) (addr : Word)
  | dbgAccessWrite (t : Time) (target : BitVec 6) (addr data : Word)
  | dbgHalt (t : Time) (core : Fin 4)
  | dbgResume (t : Time) (core : Fin 4)
  | dbgStep (t : Time) (core : Fin 4)
  | dbgBreakpoint (t : Time) (core : Fin 4) (i : Fin 4)
  | dbgWatchpoint (t : Time) (core : Fin 4) (addr : Word) (write : Bool)
  -- thermal, flash and the rows the table adds at its end
  | thermalTrip (t : Time)
  | thermalRelease (t : Time)
  | sfdpRetry (t : Time) (found : Bool)
  | sealJobEnd (t : Time) (job : Nat)
  | dramRequestComplete (t : Time) (ch : Fin 2)
  | prbsCheckerSync (t : Time) (lane : Fin 8) (bits : List Bool)
  | timeExchangeTimer (t : Time)
  | handoverBoundary (t : Time)
deriving DecidableEq, Repr

end Sys2Proof
end

