-- ==== Sys2Proof/Decode.lean ====
section
/-! DEFINITION. The commands that words of the opcode table spell. No row of spec/opcode_table.json has a
field or a bit, so no word spells a command. -/

namespace Sys2Proof

/-- The command a table word of `nbits` bits spells: none, for every word. -/
def decodeTableWord (_nbits _w : Nat) : Option Instr := none

end Sys2Proof
end

