-- ==== Sys2Proof/Machine/State.lean ====
section
/-! DEFINITION. The state of the DM3-8K: every register, FIFO, buffer, counter, mode and pin the
specification gives the block, as plain data, and the queue of the commands that wait.

A register that software writes (RW or LL) and every counter is held in `Regs` under its system-bus
address; every other piece of state has a field of its own. `Tab` is a finite map in one canonical form
whose unlisted keys hold a default, which is the reset value. -/

namespace Sys2Proof.Machine

/-- A sparse map: keys strictly rising, no entry equal to the map's default. -/
abbrev Tab (α : Type) := List (Nat × α)

/-- One item for each band (Table 4.1). -/
structure Tri (α : Type) where
  l : α
  m : α
  h : α
deriving DecidableEq, Repr

/-! ## Clocks and registers -/

/-- The clocks (R3, R227, R396). -/
structure Clock where
  /-- the TCXO count since the model's power-on, half ns (the model's own time base, log 1) -/
  now : Time
  /-- lamp time runs: D2 has left LOADING (R227, R396) -/
  lampRun : Bool
  /-- lamp time in units of `servoScale`-ths of a half ns (R3, R224) -/
  lampFix : Nat
  /-- the RTC, in units of 1/(2×10^9) of a 32.768 kHz tick since the Lantern epoch (R227) -/
  rtcFix : Nat
deriving DecidableEq, Repr

/-- One RC counter: the live value and the captured copy of R10. -/
structure Cnt where
  live : Nat
  copy : Nat
deriving DecidableEq, Repr

/-- The register file: what writes store, what counters hold, and the captures of R9 and R10. -/
structure Regs where
  /-- stored RW and LL bits by system-bus address; an unlisted register holds its reset value (R6) -/
  cfg : Tab Word
  /-- counters by system-bus address; unlisted: 0 (R10) -/
  cnt : Tab Cnt
  /-- bit n: a snapshot of domain n is in progress (R10) -/
  snap : BitVec 10
  /-- captured values of the counters a read does not clear, by lane: LANE_PRBS_BITS (R10) -/
  snapBits : Tab Nat
  /-- high half of the most recent capture of each 64-bit register, by its low address (R9) -/
  high : Tab Word
deriving DecidableEq, Repr

/-- State of one domain (Tables 1.5, 1.6, R272, R274). -/
structure Domain where
  /-- Table 1.6 code 0 OFF, 1 RESET, 2 LOADING, 3 READY, 4 RELOADING, 5 FAULT -/
  st : Nat
  /-- DOM_STATE.sections_loaded, saturates at 0xFF (R271) -/
  sections : Nat
  /-- DOM_STATE.char_valid (R272) -/
  charValid : Bool
  /-- DOM_STATE.reload_pending (Table 1.5) -/
  reloadPending : Bool
  /-- DOM_CHAR: digest of the configuration now held (R272) -/
  char : DWord
  /-- the digest s while LOADING or RELOADING (R272) -/
  digest : DWord
  /-- the last digest held in READY, kept in Mooring (R274) -/
  kept : DWord
  /-- instant at which the domain left RESET, for its limit (R290, R281) -/
  since : Time
  /-- DOM_SRAM_LAST (R253) -/
  sramLast : Word
deriving DecidableEq, Repr

/-! ## Radios (chapters 2 and 3) -/

/-- Radio states (Table 2.1). -/
inductive RState where
  | off | sleep | idle | locked | rx | tx | cal
deriving DecidableEq, Repr

/-- Why a frame went back to its queue (R39, R41, R108, R159, R292). -/
inductive Requeue where
  | lateLock | lockLost | dutyHeld | keyLimit | gateClosed
deriving DecidableEq, Repr

/-! ## What a radio sends (chapters 3 and 5) -/

/-- One symbol: the I and Q levels before normalisation, and the divisor's square: 1 for BPSK, else the
mean power of the constellation (R53, Table 3.2). -/
structure Sym where
  i : Int
  q : Int
  power : Nat
deriving DecidableEq, Repr

/-- What leaves the RF pin for one transmission. -/
inductive Wave where
  /-- a Sesia frame: roll-off in 1/1000 of its root-raised-cosine pulses, one chip or symbol in 1/2520 ns, the
  symbols of ramp-up, of the frame, and of ramp-down (R52, R53, R57, R64) -/
  | sesia (rollOff symQ : Nat) (up body down : List Sym)
  /-- a bell burst: carrier on or off, each with its duration in µs (R130) -/
  | ook (parts : List (Bool × Nat))
  /-- an IEEE 802.15.4 frame: PHR and PSDU as given (R79) -/
  | oqpsk (frame : Bytes)
deriving DecidableEq, Repr

/-- What travels with a REPORT toward the spool (Table 16.1). -/
structure RepMeta where
  time : Nat
  counter : Nat
  band : Band
  client : Nat
  link : Nat
  alarm : Bool
  eclipse : Bool
  rate : Nat
  rssi : Int
deriving DecidableEq, Repr

/-- A queued packet (R193, R194). -/
structure QPkt where
  data : Bytes
  /-- instant at which it was put in its queue (R203) -/
  at_ : Time
  dram : Bool
  policy : Nat
  rep : Option RepMeta
  tsTag : Option Nat
  /-- DUPLICATE: links for which it has been drawn, how many of these frames have been sent (R204), and the station
  sequence number given it -/
  sent : List Nat
  done : Nat
  seq : Option Nat
  /-- for a copy to Keeper: pass, generation, parse result and precedence index (R181) -/
  copy : Option (Nat × Nat × Nat × Nat)
deriving DecidableEq, Repr

/-- An ASSOC_RESP waiting for its reply position (R101). -/
structure AssocResp where
  band : Band
  slot : Nat
  sf : Nat
  serial : DWord
  status : Nat
  client : Nat
  epoch : Nat
  lease : Nat
  nonce : DWord
  counter : Word
  seq : Nat
  grants : List DWord
deriving DecidableEq, Repr

/-- A control record waiting for a client's REPLY (Table 4.13). -/
structure CtrlRec where
  ty : Nat
  value : Bytes
deriving DecidableEq, Repr

/-- A frame to send (R25, R84, R395): PHY header, MAC frame, descriptor. -/
structure TxFrame where
  kind : TxKind
  rate : Nat
  cls : Nat
  /-- channel index on the band (R110) -/
  chan : Nat
  /-- the MAC frame, tag included once the seal has ended (R84) -/
  data : Bytes
  /-- the PHY header flag beacon (Table 3.6) -/
  beacon : Bool
  /-- planned start, device instant (R25) -/
  planned : Time
  /-- 3-bit return_state of the descriptor (R30) -/
  ret : BitVec 3
  /-- target power at the antenna port, 0.25 dB (R395) -/
  target : Int
  ant : Nat
  /-- the frequencies it occupies, in 0.5 kHz (R107) -/
  span : Nat × Nat
  /-- superframe in which it is sent -/
  sf : Nat
  /-- client and link handle the frame concerns, and the key of the link queue whose credit it costs -/
  client : Option Nat
  link : Option Nat
  queue : Option Nat
  /-- the packets drawn into it, with their queues (R195, R203), the control records it carries (R98), and the sequence
  number of its stream (R84) -/
  pkts : List (Nat × QPkt)
  recs : List CtrlRec
  seq : Nat
  /-- what it costs stands against the credit of its queue (R196) -/
  charged : Bool
  /-- under DUPLICATE the packet stays in its queue: the queue's key (R204) -/
  dup : Option Nat
  /-- the ASSOC_RESP it carries (R101) -/
  resp : Option AssocResp
  /-- identifier of its seal job, if it is sealed by the engine (R151) -/
  sealJob : Option Nat
  /-- a bell burst's frames, or an 802.15.4 PPDU, are not Sesia frames (R130, R79) -/
  sesia : Bool
  /-- duration in 1/2520 ns, symbols only (R63, R130, R79) -/
  durQ : Nat
deriving DecidableEq, Repr

/-- A frame being sent (R39, R49). -/
structure TxRun where
  frame : TxFrame
  firstSym : Time
  /-- gain step s chosen by set_power (R49) -/
  gain : Nat
  /-- limited target p and power at the pin, 0.25 dB (R49) -/
  p : Int
  pin : Int
  /-- instant of its transmit command (R19, R29) -/
  at_ : Time
deriving DecidableEq, Repr

/-- One transition of Table 2.2, under way or still to begin (R22, R25). -/
structure Trans where
  dest : RState
  start : Time
  ends : Time
  /-- channel index and class on which the synthesiser locks, for a lock or channel change (R23) -/
  tune : Option (Nat × Nat)
deriving DecidableEq, Repr

/-- A synthesiser calibration in progress (R35, R36). -/
structure CalRun where
  group : Nat
  start : Time
  forced : Bool
  /-- returns to RX by the RX-on sequence when it ends (R33) -/
  backToRx : Bool
  /-- the radio held a channel when it began (R36) -/
  hadChannel : Bool
deriving DecidableEq, Repr

/-- A group awaiting calibration, and the superframes it has waited (R32, R34). -/
structure CalPend where
  group : Nat
  waited : Nat
deriving DecidableEq, Repr

/-- The equaliser as set for a frame: feedforward and feedback taps, the cursor's tap, and the two step
exponents (R68, Table 3.10). -/
structure EqRun where
  ff : Nat
  fb : Nat
  cursor : Nat
  trainExp : Nat
  ddExp : Nat
deriving DecidableEq, Repr

/-- A codeword in flight in the decoder: its place in the frame and the soft bits received for it (R66, R67). -/
structure CwRun where
  idx : Nat
  soft : List Int
deriving DecidableEq, Repr

/-- A detected preamble (R70, R71): the current frame or the held candidate. -/
structure RxDet where
  pwr : Int
  start : Time
  /-- sync timestamp, once the sync word is found (R70) -/
  sync : Option Time
  hdrOk : Bool
  hdr : Word
  /-- codewords of the frame: total, ready, ended, failed (R61, R66) -/
  cwTotal : Nat
  cwReady : Nat
  cwDone : Nat
  cwFail : Nat
  iterMax : Nat
  /-- class of the window in which it was detected (R71) -/
  cls : Nat
  /-- instant of the detection (R70) -/
  det : Time
  /-- the equaliser, once the header has passed (R68), and the decoded information bits by codeword (R66) -/
  eq : Option EqRun
  bits : Tab (List Bool)
deriving DecidableEq, Repr

/-- A receive window (R40, R95). -/
structure Win where
  w : RxWin
  opensAt : Time
  closesAt : Time
  cls : Nat
  chan : Nat
  ant : Nat
  /-- RX is held for the window now, and RX has been reached within it -/
  isOpen : Bool
  opened : Bool
  /-- superframe of the window -/
  sf : Nat
  /-- the window has closed while a headed frame runs on (R73) -/
  closed : Bool
deriving DecidableEq, Repr

/-- A received frame on its way to the MAC, the checks and the packet path (R74, R85, R224). -/
structure RxFrame where
  band : Band
  data : Bytes
  rate : Nat
  cls : Nat
  /-- superframe of reception -/
  sf : Nat
  /-- lamp time of the sync word at the antenna port, half ns (R224) -/
  stamp : Time
  /-- device instants of the first STF symbol and of the detection (R70, R122) -/
  start : Time
  det : Time
  /-- instant at which it ended with its result -/
  ended : Time
  /-- STF power at the RX pin, 0.25 dBm -/
  rssi : Int
  alarm : Bool
  /-- the grant credited, by plan index (R122), or the open slot -/
  win : Option RxWin
  /-- received in Eclipse (R322) -/
  eclipse : Bool
deriving DecidableEq, Repr

/-- An 802.15.4 ring entry (R78). -/
structure Ring154 where
  phr : Byte
  psdu : Bytes
  fcsOk : Bool
  rssi : Int
  sfd : Time
deriving DecidableEq, Repr

/-- One predistortion coefficient (Table 2.18): signed, 14 fraction bits. -/
structure Coef where
  i : BitVec 16
  q : BitVec 16
deriving DecidableEq, Repr

/-- A calibration word of a frequency group (RADx_GROUP_CAL_g). -/
structure GroupCal where
  valid : Bool
  temp : BitVec 16
deriving DecidableEq, Repr

/-- One radio domain. -/
structure Radio where
  /-- current state (Table 2.13) -/
  st : RState
  /-- the transition in progress or next to begin, and those that follow it (R22, R25, R30) -/
  trans : List Trans
  /-- channel held: index and class; none when no profile is in force (R36, R37) -/
  chan : Option Nat
  cls : Nat
  /-- calibration of each group (R24, R32, R37) -/
  groups : Tab GroupCal
  /-- groups pending, lowest first (R32), and the forced ones that wait (R35) -/
  pend : List CalPend
  forced : List Nat
  cal : Option CalRun
  /-- background calibration running, completed since domain reset, and the results in use (R42) -/
  bg : Option Nat
  bgDone : BitVec 5
  bgUse : Tab Word
  /-- predistortion coefficients in use (R44) -/
  dpd : Tab Coef
  /-- logical pin levels (Tables 2.6, 2.12) -/
  pins : BitVec 8
  /-- steps of the running sequence still to come, and its zero point (R45, R46) -/
  seqRun : Option (SeqId × Time)
  seqLeft : List Nat
  /-- antenna and gain step the running sequence applies (R47) -/
  seqAnt : Nat
  seqGain : Nat
  /-- frame scheduled or in the air (R38, R39), and frames scheduled after it -/
  tx : Option TxRun
  txNext : List TxRun
  /-- Keeper immediate transmissions not yet sent (R29) -/
  keeper : List TxFrame
  /-- receive windows commanded (R40) -/
  wins : List Win
  /-- current frame and candidate of the two correlators (R71) -/
  cur : Option RxDet
  cand : Option RxDet
  /-- receive gain held since the settling of this detection's power, 0.25 dBm (R69) -/
  gainHeld : Option Int
  /-- codewords in flight, oldest first, and their peak number (R67, Table 3.15) -/
  flight : List CwRun
  peakFlight : Nat
  /-- RADx_RX_LAST and RADx_RX_QUAL (Table 3.15) -/
  rxLast : Word
  rxQual : Word
  /-- closed-loop offsets off[3]..off[0] and whether each stands at its clamp (R50, R51) -/
  off : Tab Int
  atClamp : BitVec 4
  /-- RADx_PWR_LIMIT, 0x8000 = none (R51) -/
  limit : BitVec 16
  /-- the 64-entry 802.15.4 ring in the radio buffers (R78) -/
  ring154 : List Ring154
  /-- frames that wait in the radio buffers (R155, R163, Table 12.10) -/
  buffered : List RxFrame
  /-- end of the last symbol of the last frame sent (R103) -/
  lastEnd : Time
  /-- instant of the last Sesia preamble detection (R77) -/
  detAt : Option Time
  /-- LOCKED after the last transmission, from which the receiver recovers (Table 2.3) -/
  txOffAt : Option Time
  /-- feedback captures kept for the predistortion calibration, oldest first (R44) -/
  caps : List (List FbSample)
  /-- reason with which a frame last went back to its queue (R39, R41) -/
  back : Option Requeue
  /-- a relay's frames for its parent that were held and wait for a later slot of it (R108, R138) -/
  parentHeld : List TxFrame
deriving DecidableEq, Repr

/-! ## The Lantern (chapters 4 and 5) -/

/-- One record of the plan memory (Table 4.10) with the client and link it serves (log 20). -/
structure PlanRec where
  client : Nat
  link : Nat
  bits : DWord
deriving DecidableEq, Repr

/-- A held station frame (R106). -/
structure HeldFrame where
  seq : Nat
  data : Bytes
  link : Nat
  since : Time
deriving DecidableEq, Repr

/-- A client's hot context (R2, R100, R120 to R129, R104, R106, R157 to R161). -/
structure Client where
  assoc : Bool
  serial : DWord
  caps : Word
  links : List Nat
  /-- interval exponent of its grant, the sequence number of its next REPLY, and those of REPLYs that went back
  unsent (R84, R151) -/
  k : Nat
  downSeq : Nat
  downBack : List Nat
  lease : Nat
  missRun : Nat
  adrift : Bool
  bellLeft : Nat
  lr : Bool
  syncAge : Option Nat
  released : Bool
  guardLast : Nat
  /-- first active grants still to be counted under R102, and the lamp time after which their first slots
  start; none once the test has ended -/
  firstLeft : Option (Nat × Nat)
  /-- reason with which it was released (Table 16.2) -/
  reason : Nat
  /-- pending control records, oldest first (R98) -/
  ctrl : List CtrlRec
  /-- station sequence space: next to send, next expected, frames held (R104, R106) -/
  txSeq : Nat
  rxNext : Nat
  held : List HeldFrame
  /-- superframe E of an announced epoch (R157), and the deadline of a RETIRING slot (R158, R161) -/
  epochAt : Option Nat
  retireAt : Option Nat
  /-- the association's transition of R161: nothing is sealed under the RETIRING slot -/
  assocRetire : Bool
deriving DecidableEq, Repr

/-- A link (R15, R105, R395). -/
structure Link where
  used : Bool
  client : Nat
  band : Band
  order : Nat
  txTarget : Int
  ant : Nat
  unhealthy : Bool
  missed : Nat
deriving DecidableEq, Repr

/-- What the Lantern notes of an active grant in the superframe in hand (R92, R122, R123). -/
structure GrantNote where
  grant : Nat
  sf : Nat
  plan : PlanRec
  /-- skipped under R92, or void under R91, R113, R280 or R321, or its window lost under R40 -/
  skipped : Bool
  void : Bool
  lost : Bool
  /-- a frame credited: lamp time of its observed start, the instants of its result OK, of the end of its
  check, and of a check that passed -/
  heard : Option Time
  okAt : Option Time
  endAt : Option Time
  passAt : Option Time
  /-- a frame that R123 counts has arrived for it: on an UPLINK_REPLY grant its client's own, on a STATION_UP grant one on
  any link of the station (R129) -/
  counted : Bool
  /-- its window has closed, and its miss has been decided -/
  closed : Bool
  decided : Bool
  /-- link queues whose head did not fit and that give this grant nothing more (R203) -/
  shut : List Nat
deriving DecidableEq, Repr

/-- One band of one regulatory profile (Table 12.5). -/
structure SubBand where
  lo : Nat
  hi : Nat
  reserve : Nat
  share : Nat
deriving DecidableEq, Repr

structure ProfBand where
  present : Bool
  chan : Nat
  beaconCls : Nat
  classes : BitVec 8
  limit : BitVec 16
  reserve : Nat
  share : Nat
  subs : List SubBand
  restr : List (Nat × Nat)
deriving DecidableEq, Repr

/-- One bucket of a duty-cycle window (R107): its second, and the airtimes in 1/2520 ns. -/
structure Bucket where
  sec : Nat
  bcn : Nat
  data : Nat
deriving DecidableEq, Repr

/-- A duty-cycle window (R107, R109): the buckets that hold airtime, oldest first, and the two events'
armed states. -/
structure DutyWin where
  buckets : List Bucket
  warned : Bool
  heldRaised : Bool
deriving DecidableEq, Repr

/-- A checked ASSOC_REQ waiting for Keeper's answer (R336). -/
structure AssocReq where
  band : Band
  slot : Nat
  sf : Nat
  serial : DWord
  caps : Word
  nonce : DWord
  counter : Word
  seq : Nat
  unknown : Bool
deriving DecidableEq, Repr

/-- A POLL waiting for its REPLY (R89). -/
structure PollReq where
  band : Band
  slot : Nat
  sf : Nat
  client : Nat
  /-- lamp time of its observed start, and the instants of the end of its check and of a pass -/
  start : Time
  endAt : Option Time
  passAt : Option Time
deriving DecidableEq, Repr

/-- A bell burst placed in this superframe (R132). -/
structure BellPlan where
  client : Nat
  slot : Nat
deriving DecidableEq, Repr

/-- A grant that a GRANT record has announced: the superframe from which it replaces the client's grant of its band and
type (R94). -/
structure GrantDue where
  at_ : Nat
  new : PlanRec
deriving DecidableEq, Repr

/-- A pending plan commit (R93). -/
structure Commit where
  at_ : Nat
  plan : List PlanRec
deriving DecidableEq, Repr

/-- An announced or running profile switch (R111): 1 announced, 2 switching. -/
structure Switch where
  phase : Nat
  next : Nat
  c : Nat
  /-- affected bands L, M, H -/
  bands : BitVec 3
deriving DecidableEq, Repr

/-- Relay state (R136 to R141): 0 ANCHOR, 1 ATTACHED, 2 ORPHAN, 3 SCANNING. -/
structure Relay where
  st : Nat
  chan : Nat
  chanM : Nat
  miss : Nat
  parent : Nat
  parentDepth : Nat
  /-- lamp time of the last parent beacon, for pg (R137) -/
  lastBeacon : Option Time
  /-- a parent beacon ended OK in this superframe -/
  heard : Bool
  /-- scan position: parent-link band and channel (R139), and a join in progress -/
  scanM : Bool
  scanChan : Nat
  joining : Bool
  /-- procedure join of R99: attempts made, the superframe up to which it waits, the last request's open slot with its
  superframe and nonce, and the open map of the parent's last beacon -/
  attempts : Nat
  waitTill : Nat
  asked : Option (Nat × Nat × DWord)
  openMap : Word
  /-- a gateway that has answered UNKNOWN or BAND, which the relay does not ask again (Table 4.15) -/
  barred : Option Nat
  /-- the station's side of R105 on Radio M and Radio H: a beacon received, and a window lost, in this superframe; beacons
  missed, unhealthy -/
  heardM : Bool
  heardH : Bool
  lostM : Bool
  lostH : Bool
  missM : Nat
  missH : Nat
  badM : Bool
  badH : Bool
deriving DecidableEq, Repr

/-- One entry of the retained ring (Table 15.3) and the bytes it occupies. -/
structure RingEntry where
  bytes : Bytes
  size : Nat
deriving DecidableEq, Repr

/-- The Lantern, D2. -/
structure Lantern where
  /-- current superframe number (LANT_SF) -/
  sf : Nat
  /-- plan memory in force, its shadow, version and the pending commit (R91, R93) -/
  plan : List PlanRec
  shadow : List PlanRec
  version : Nat
  commit : Option Commit
  /-- changes to clients' grants that GRANT records have announced (R94) -/
  grantsDue : List GrantDue
  /-- open maps in force, and writes waiting for their boundary (R88) -/
  openMap : Tri Word
  openPend : Tri (List (Word × Nat))
  /-- pending bits: client IDs with downlink queued and no grant due (R89) -/
  pendBits : List Nat
  pendSeg : Nat
  lastSeg : Nat
  /-- regulatory profiles by 4 × profile + band (R110, R265), their validity, the profile in force -/
  profiles : Tab ProfBand
  validMask : BitVec 16
  profile : Option Nat
  switch_ : Option Switch
  /-- duty-cycle windows by 16 × band + sub-band, 15 the band total (R107), and their readiness (R293) -/
  duty : Tab DutyWin
  dutyReady : Bool
  dutySec : Nat
  /-- hot client contexts by client ID and links by handle (Table 1.7, Table 11.3) -/
  clients : Tab Client
  links : Tab Link
  /-- active grants of the superframe in hand (R91, R92) -/
  notes : List GrantNote
  /-- bands whose beacon is not sent in this superframe (R111, R280) -/
  silent : BitVec 3
  /-- bands L, M, H whose beacon has been commanded since their gates last passed (R292) -/
  lit : BitVec 3
  /-- superframe of the last long-range beacon since D2 left reset (R120) -/
  lastLr : Option Nat
  /-- beacon bodies of the superframe in hand, lantern_time still 0 (R87, R90) -/
  bodies : Tri Bytes
  assocReqs : List AssocReq
  assocResps : List AssocResp
  polls : List PollReq
  bells : List BellPlan
  relay : Relay
  /-- the retained ring: entries, occupied bytes, write position (R322) -/
  ring : List RingEntry
  ringUsed : Nat
  ringPos : Nat
  /-- the beacon sealer's key: gateway_id and key (R147) -/
  sealer : Option (Nat × Block)
  /-- the Lantern's copy of the device characteristic (R274) -/
  charCopy : DWord
  /-- superframe from which lamp_change is sent (R308) -/
  lampChangeAt : Option Nat
  /-- beacons carry eclipse = 1 (R320, R328) -/
  eclipseFlag : Bool
deriving DecidableEq, Repr

/-! ## Reference domains and steering (chapter 10) -/

/-- Reference domain states (R231). -/
inductive DomSt where
  | off | acquiring | tracking | locked
deriving DecidableEq, Repr

/-- One reference domain (R229, R231). -/
structure RefDomain where
  st : DomSt
  /-- measurements counted toward TRACKING, toward LOCKED and toward unlocking; consecutive outliers -/
  count : Nat
  lockRun : Nat
  unlockRun : Nat
  outliers : Nat
  /-- last accepted o and last o shown, quarter ns -/
  last : Option Int
  offset : Int
  /-- instant of the last measurement, of the last accepted edge, feed or exchange -/
  lastMeas : Option Time
  lastSeen : Option Time
  /-- GNSS: lamp time, half ns, and instant of the last edge while it awaits its label, and the lamp time
  of the last labelled edge (R229) -/
  edge : Option (Nat × Time)
  lastEdge : Option Nat
  /-- LANT_DOM_FEED_LO_d as last written (R239) -/
  feedLo : Word
deriving DecidableEq, Repr

/-- Time selection and the servo (R228, R232 to R237). -/
structure TimeBlk where
  gateOpen : Bool
  stepped : Bool
  selected : Option RefDom
  domA : RefDomain
  domB : RefDomain
  /-- servo f and r in units of `servoUnit`-ths of a ppb (R233) -/
  f : Int
  r : Int
  clamped : Bool
  /-- source code of the last domain selected and LOCKED since D2 left reset; 0: none (R237) -/
  lastLocked : Nat
  /-- instant D2 reached READY at this start (R228) -/
  readyAt : Option Time
  /-- instant since which the preferred domain has been selectable (R232) -/
  prefSince : Option Time
  /-- a TIME exchange under way: t1, lamp half ns (R229) -/
  t1 : Option Time
deriving DecidableEq, Repr

/-! ## Link security (chapter 6) -/

/-- Key slot states (Table 6.8). -/
inductive KeySt where
  | empty | current | next | retiring
deriving DecidableEq, Repr

/-- A key store entry (R146). -/
structure KeyEntry where
  st : KeySt
  kMac : Block
  kEnc : Block
  epoch : Nat
  usage : Nat
  encReq : Bool
  announced : Bool
deriving DecidableEq, Repr

/-- A replay window and the downlink counter of one link and key slot (R154). -/
structure RWin where
  high : Nat
  map : DWord
  tx : Nat
deriving DecidableEq, Repr

/-- A root table record (R145): the root key stands wrapped, under a key derived from the provisioning key. -/
structure Root where
  serial : DWord
  wrapped : Block
  encReq : Bool
  joinHigh : Option Nat
deriving DecidableEq, Repr

/-- Why Keeper derives a client's keys (R157, R161, R305): by a command of its own, for the next epoch, for an association
whose response goes in superframe `r`, or for a slot that the lit twin mirrors in a state and with a usage. -/
inductive DeriveFor where
  | command
  | epoch
  | assoc (r : Nat)
  | mirrored (st : KeySt) (usage : Nat)
deriving DecidableEq, Repr

/-- A cipher job (R155). -/
inductive JobKind where
  | sealing (band : Band) (f : TxFrame)
  | check (f : RxFrame)
  | derive (client slot epoch : Nat) (why : DeriveFor)
deriving DecidableEq, Repr

structure Job where
  id : Nat
  kind : JobKind
  /-- key store entry of a seal or a check, and the keys of a seal -/
  entry : Option Nat
  kMac : Block
  kEnc : Block
  since : Time
deriving DecidableEq, Repr

/-- The cipher engine, D7. -/
structure Cipher where
  keys : Tab KeyEntry
  wins : Tab RWin
  roots : List Root
  beaconKey : Option (Nat × Block)
  /-- jobs in flight (at most 64) and jobs waiting, oldest first -/
  jobs : List Job
  waiting : List Job
  nextJob : Nat
  peakJobs : Nat
  kdfBusy : Bool
  kdfError : Bool
  /-- the ring check of R163 has been made since the last Eclipse -/
  ringChecked : Bool
deriving DecidableEq, Repr

/-! ## The packet pipeline, queues, gates and meters (chapters 7 and 8) -/

/-- A packet in the pipeline or waiting to enter it (R166). -/
structure Pkt where
  port : Nat
  pass : Nat
  gen : Nat
  data : Bytes
  link : Option Nat
  client : Option Nat
  ftype : Nat
  rep : Option RepMeta
  /-- a directed injection's own action, and the timestamp tag of an injection (R169, R225) -/
  action : Option DWord
  tsTag : Option Nat
  /-- pass 2: bytes of the outer payload, which bound the parse (R183) -/
  bound : Option Nat
  /-- pass 2: VNI after VXLAN, or outer protocol after tunnelled IP -/
  vni : Option Nat
  outer : Option Nat
deriving DecidableEq, Repr

/-- A queue: port queues under 0 to 71, link queues under 72 + link queue index (R16, R192). -/
structure Queue where
  pkts : List QPkt
  /-- credit in 1/16 bit, relative to the burst at reset; instant of its last update (R196) -/
  used : Int
  stamp : Time
  /-- link queues: first symbols still to come, the planned start of each frame, and the bits it costs (R196) -/
  due : List (Time × Time × Nat)
deriving DecidableEq, Repr

/-- A learn FIFO entry (R177). -/
structure Learn where
  port : Nat
  bdType : Bool
  bd : Nat
  mac : Nat
  link : Option Nat
deriving DecidableEq, Repr

/-- A meter (R201): settings, tokens in 1/125000 byte, last update. -/
structure Meter where
  cir : Nat
  pir : Nat
  cbs : Nat
  pbs : Nat
  aware : Bool
  dp : Nat
  tc : Nat
  tp : Nat
  last : Time
  /-- both buckets are full at the next update (R202) -/
  fresh : Bool
deriving DecidableEq, Repr

/-- The gate list of one Ethernet port (R198, R200). -/
structure Gate where
  bankB : Bool
  swapAt : Option Nat
  entry : Nat
  /-- lamp instant, half ns, at which the entry in force started -/
  since : Time
deriving DecidableEq, Repr

/-- Egress of one wired or internal port: the queue and packet on the wire (R197). -/
structure Egress where
  busy : Option (Nat × QPkt)
  started : Time
deriving DecidableEq, Repr

/-- The Packet domain, D6. -/
structure Packet where
  /-- the four tables: 65536 × table + index, entries of 64 bytes (R174, R175) -/
  tables : Tab (BitVec 512)
  tblBusy : Bool
  tblError : Bool
  tblB0 : Nat
  tblB1 : Nat
  learn : List Learn
  /-- the three words loaded by the last PKT_LEARN_POP -/
  popMac : Word
  popBd : Word
  popLink : Word
  /-- generations (R185 to R187) and the default actions of the current and the previous one -/
  gen : Nat
  commitWait : Option Time
  refused : Bool
  defs : Tab DWord
  defsOld : Tab DWord
  /-- packets waiting at each ingress port, in the pipeline, and on the recirculation path -/
  ingress : Tab (List Pkt)
  rrPtr : Nat
  inPipe : List Pkt
  recirc : List Pkt
  parseLast : Word
  queues : Tab Queue
  /-- on-chip and overflow cells in use, and spilling (R193) -/
  cells : Nat
  dramCells : Nat
  spilling : Bool
  egress : Tab Egress
  gates : Tab Gate
  gateMem : Tab Word
  meters : Tab Meter
deriving DecidableEq, Repr

/-! ## Lanes and the Range link (chapter 9, 14) -/

/-- One serial lane (Table 9.9). -/
structure Lane where
  taps : Word
  sig : Bool
  cdr : Bool
  block : Bool
  hiBer : Bool
  chkSync : Bool
  rate : Nat
  /-- 48-bit LANE_PRBS_BITS -/
  bits : Nat
  /-- the PRBS generator's register, its last 31 bits, and the checker's: the sequence it expects, the error-free bits in
  a row before sync, and which of the last 64 bits were errors (R221) -/
  gen : BitVec 31
  chk : BitVec 31
  run : Nat
  errs : BitVec 64
  /-- since when hi_ber shows (R218) -/
  hiSince : Option Time
deriving DecidableEq, Repr

/-- One Ethernet port (Table 9.10). -/
structure Eth where
  linkUp : Bool
  localFault : Bool
  remoteFault : Bool
  /-- when a fault ordered set was last received (R211) -/
  faultAt : Option Time
deriving DecidableEq, Repr

/-- A timestamp FIFO entry (R225). -/
structure TsEntry where
  sent : Bool
  port : Nat
  stamp : Time
  msgType : Nat
  tag : Nat
deriving DecidableEq, Repr

/-- A frame on a MIRROR channel: its sequence number and payload without tag (R304). -/
structure MirFrame where
  seq : Nat
  payload : Bytes
deriving DecidableEq, Repr

/-- One MIRROR channel: next to send, unacknowledged frames, what waits for room in the window, next
expected, oldest send instant, and whether its copy is complete in this resynchronisation (R304, R306). -/
structure MirChan where
  txSeq : Nat
  unacked : List MirFrame
  backlog : List Bytes
  rxNext : Nat
  sentAt : Time
  done : Bool
deriving DecidableEq, Repr

/-- The content of a TRAIN frame (R215): the lanes of its sender that are in the link, whether it is READY_TO_TEST, its
result of the last check, and the changes of pre, main and post that it asks of each lane's transmitter. -/
structure Train where
  lane6 : Bool
  lane7 : Bool
  ready : Bool
  result : Option Bool
  ask6 : Int × Int × Int
  ask7 : Int × Int × Int
deriving DecidableEq, Repr

/-- The Range link (R213 to R219, R301, R304). -/
structure Rng where
  /-- 0 OFF, 1 TRAINING, 2 UP, 3 RETRY_WAIT -/
  st : Nat
  lane6 : Bool
  lane7 : Bool
  /-- kept rate code, and the rate code of the step in hand (0: none) -/
  rate : Nat
  step : Nat
  /-- taps kept with the kept rate, per lane (R216) -/
  kept6 : Word
  kept7 : Word
  /-- own result of the last check, and when it ended (R216) -/
  clean : Bool
  checkedAt : Option Time
  /-- this end is READY_TO_TEST; when both were, or from the second step when the step began; and the far end's result of
  the check (R215, R216) -/
  ready : Bool
  checkFrom : Option Time
  peer : Option Train
  /-- the link came UP at a reverted step: the exchange of TRAIN frames at the kept rate is still open (R216) -/
  closing : Bool
  since : Time
  txIdle : Bool
  lastTx : Time
  /-- instant of the last KEEPALIVE frame sent, and of the TIME frame that began the last exchange (R219, R229) -/
  lastKeep : Time
  lastTime : Option Time
  /-- session nonces: own, peer's (Table 14.3) -/
  nonce : DWord
  peerNonce : DWord
  peerKnown : Bool
  /-- sequence numbers of DATA channels 0-7, TIME and KEEPALIVE (8, 9) (Table 9.3) -/
  seqs : Tab Nat
  mirror : Tab MirChan
deriving DecidableEq, Repr

/-- The Lanes domain, D9. -/
structure Lanes where
  lanes : Tab Lane
  eth : Tab Eth
  rng : Rng
  ts : List TsEntry
  tsLo : Word
  tsHi : Word
deriving DecidableEq, Repr

/-! ## Memory and check values (chapter 11) -/

/-- A DRAM request of one 64-byte block held by a channel (R240, R243 to R245). -/
structure DReq where
  id : Nat
  req : Nat
  addr : Nat
  /-- page attribute OPEN (Table 11.2) -/
  keepOpen : Bool
  /-- the bytes to write; none for a read -/
  data : Option Bytes
  since : Time
deriving DecidableEq, Repr

/-- A bank in in-order mode: the writes whose completion ends it (R245). -/
structure Bank where
  row : Option Nat
  lastUse : Time
  inOrder : Option (List Nat)
deriving DecidableEq, Repr

/-- One DRAM channel (Table 11.8). -/
structure Channel where
  /-- 0 OFF, 1 TRAINING, 2 ACTIVE, 3 ENTERING, 4 SELF_REFRESH, 5 EXITING -/
  st : Nat
  reqs : List DReq
  held : List DReq
  banks : Tab Bank
  lastReq : Time
  /-- when self-refresh entry began (R249) -/
  entry : Time
deriving DecidableEq, Repr

/-- Training result of a byte lane (Table 11.8). -/
structure LaneTrain where
  result : Nat
  rd : Nat
  wr : Nat
deriving DecidableEq, Repr

/-- The Memory domain, D8. -/
structure Mem where
  /-- bytes of Keeper shared SRAM and DRAM by system-bus address; unlisted: 0 (R12, R241, log 11) -/
  bytes : List Host.Cell
  ch0 : Channel
  ch1 : Channel
  nextReq : Nat
  train : Tab LaneTrain
  trainDone : Bool
  trainWarm : Bool
  fail0 : Bool
  fail1 : Bool
  retained : Bool
  /-- training results kept in Mooring (R246) -/
  keptTrain : Bool
deriving DecidableEq, Repr

/-! ## Light List and start-up (chapters 12, 13) -/

/-- The QSPI flash (R257): size in bytes, a readable SFDP table, the image bytes at each bank's start. -/
structure Flash where
  size : Nat
  sfdp : Bool
  bankA : Bytes
  bankB : Bytes
deriving DecidableEq, Repr

/-- The Light List state (Tables 12.13, 12.14). -/
structure LightList where
  flash : Flash
  fallback : Bool
  bankB : Bool
  seq : Nat
  epoch : Nat
  restartPending : Bool
  rejectA : Bool
  rejectB : Bool
  /-- 0 IDLE, 1 STAGING, 2 VERIFIED, 3 RELOADING, 4 ROLLBACK -/
  stage : Nat
  reloadMask : BitVec 10
  /-- staged reload waits for this boundary (R280) -/
  reloadAt : Option Nat
  changed : BitVec 10
  delta : Bytes
  staged : Bytes
  devChar : DWord
  expChar : DWord
  expDigest : Tab DWord
  digestChk : BitVec 10
  twinSeen : Bool
  twinMatch : Bool
  parentSeen : Bool
  parentMatch : Bool
  twinChar : DWord
  parentChar : DWord
  /-- a twin characteristic, or a parent beacon, arrived in this superframe (R276) -/
  twinNow : Bool
  parentNow : Bool
deriving DecidableEq, Repr

/-- Start-up (Table 13.8, R285 to R290). -/
structure Start where
  powered : Bool
  cause : Nat
  straps : BitVec 4
  stage : Nat
  railFail : Nat
  attempts : Nat
  /-- next rail of Table 13.2 to switch on: 1 to 7, 8 = PWR_GOOD; 0: none in hand -/
  rail : Nat
  /-- instant from which the delays of Table 13.2 run -/
  t0 : Time
  pwrGood : Bool
  /-- a rail fault waits for its retry (R288) -/
  railFault : Bool
  /-- the start in hand is warm (Table 13.1) -/
  warm : Bool
  /-- RESET_N is low since -/
  resetLow : Option Time
  /-- events owed at the next completed start: EV001, EV021, EV041 (R288, R363, R393) -/
  owe : List Nat
  /-- Deep Eclipse, Moored or Eclipse is being left: EV005 is owed (R327) -/
  waking : Option Nat
  /-- domains still to be started at this start, in order (R289) -/
  todo : List Nat
  degraded : Bool
  sfdpTries : Nat
  alertInit : Bool
  /-- the straps' pads -/
  strapPins : BitVec 4
  /-- boot ROM is running the bring-up, and it awaits SFDP -/
  bringUp : Bool
deriving DecidableEq, Repr

/-! ## Twin operation (chapter 14) -/

/-- The range pair (Table 14.10, R298 to R313). -/
structure Twin where
  /-- Table 14.1 code 0 OFF, 1 STARTING, 2 LIT, 3 STANDBY, 4 ISOLATED -/
  role : Nat
  senior : Bool
  peerRole : Nat
  peerSenior : Bool
  peerSerial : DWord
  pinsOk : Bool
  /-- instant of the last KEEPALIVE that passed its checks (link_ok) -/
  keepAt : Option Time
  /-- 0 NONE, 1 RESYNC, 2 IN_SYNC -/
  sync : Nat
  spoolBehind : Bool
  /-- ends of the spool's copy, and of blocks asked for, still to come (R306) -/
  spoolLeft : Nat
  mirrorStale : Bool
  silentSf : Nat
  /-- superframe counted since boundary: a twin beacon ended OK in it; an air check runs -/
  airHeard : Bool
  airCheck : Bool
  silentRun : Nat
  syncedOnce : Bool
  lastTrigger : Nat
  /-- instant of the last heartbeat and of entering STARTING -/
  lastHb : Time
  startedAt : Time
  /-- boundary H of a pending HANDOVER, and an accepted take-over's instant and trigger -/
  handover : Option Nat
  takeAt : Option (Time × Nat)
  /-- this twin was LIT when it became ISOLATED (R312) -/
  wasLit : Bool
  lost : Bool
  /-- what TWIN_HB_OUT shows, and since when it shows YIELD, which lasts 2 ms -/
  hbOut : HbPattern
  yieldAt : Time
  yielding : Bool
  conflict : Bool
  /-- downlink counters as last mirrored, by 2 × link + slot (R305) -/
  lastTx : Tab Nat
  /-- superframe from which a stale twin's or an air check's count runs -/
  checkFrom : Nat
deriving DecidableEq, Repr

/-! ## Power states, pads, GPIO (chapter 15) -/

/-- One GPIO pin (R332 to R334). -/
structure Gpio where
  raw : Bool
  level : Bool
  frozen : Bool
  frozenAt : Time
  stuck : Bool
  activeAt : Option Time
  /-- frozen at its active level from before low-power entry (R324) -/
  frozenBefore : Bool
deriving DecidableEq, Repr

/-- Power states (Table 15.9). -/
structure Power where
  /-- 0 RUN, 1 ENTERING, 2 ECLIPSE, 3 DEEP_ECLIPSE, 4 MOORED, 5 EXITING -/
  st : Nat
  target : Nat
  held : Bool
  lastWake : Nat
  entryAt : Option Nat
  latch : BitVec 7
  padHold : BitVec 4
  /-- electrical levels latched by held pad groups 0-2 (R329) -/
  padLevels : Tab (BitVec 8)
  sampleVin : Nat
  sampleTemp : BitVec 16
  firstTick : Bool
  /-- the RTC's count of 1/32768 s at the sequencer's last run since entry (R324) -/
  tickAt : Option Nat
  vin : Nat
  gpio : Tab Gpio
  /-- thermal shut-down in force (R393), warn state (R392), last die sample -/
  tripped : Bool
  warn : Bool
  warnArmed : Bool
  dieTemp : BitVec 16
  /-- KEEP_THERM_STATUS.die_temp: the last sample taken in Run or by the sequencer (R392) -/
  thermTemp : BitVec 16
  bellLast : Word
  /-- per Bell code: instant of its last match (R135) -/
  bellAt : Tab Time
deriving DecidableEq, Repr

/-! ## Keeper services (chapter 16) -/

/-- A management request accepted into the queue (R349). -/
structure MgmtReq where
  op : Nat
  keyRead : Bool
  counter : Word
  body : Bytes
  src : Nat
  sport : Nat
  ingress : Nat
deriving DecidableEq, Repr

/-- Keeper's services. -/
structure Keeper where
  /-- spool indexes, custody chain (R339, R340, R344) -/
  wr : Nat
  fwd : Nat
  chain : DWord
  warn90 : Bool
  /-- forwarding: next index to send, datagrams unacknowledged, counter, time fwd last moved, timeouts -/
  sendNext : Nat
  sentHigh : Nat
  unacked : List (Nat × Nat)
  dgCounter : Word
  /-- packets that the SPL port has handed to Keeper (R339) -/
  splIn : List QPkt
  fwdMoved : Time
  timeouts : Nat
  stalled : Bool
  /-- geofence (R345) -/
  fixValid : Bool
  region : Nat
  run : Nat
  lastFix : Time
  /-- PTP port states by port (R346): 0 none yet, 1 SLAVE, 2 MASTER, 3 PASSIVE -/
  ptp : Tab Nat
  /-- management (R347, R349) -/
  bootNonce : DWord
  opWin : RWin
  rdWin : RWin
  queue : List MgmtReq
  hellos : List MgmtReq
deriving DecidableEq, Repr

/-! ## Events, the Log, recovery, debug (chapter 17) -/

/-- An event queue entry (Table 17.1). -/
structure EvEntry where
  time : Nat
  event : Nat
  kind : Nat
  count : Nat
  detail : Word
deriving DecidableEq, Repr

/-- The event fabric (R354 to R358). -/
structure Events where
  pending : BitVec 256
  /-- occurrence counters by event number (R354) -/
  occ : Tab Nat
  queue : List EvEntry
  /-- group-0 events to be queued as DEFERRED when D1 leaves reset (R358, R396) -/
  defer : BitVec 24
  /-- Eclipse: alert masks copied at entry (R359) -/
  alertCopy : BitVec 256
deriving DecidableEq, Repr

/-- A Log record on its way: its bytes 0 to 251 with seq still 0, and whether it came from the
KEEP_LOG_DATA buffer (R361). -/
structure LogRec where
  bytes : Bytes
  fw : Bool
deriving DecidableEq, Repr

/-- The Log unit (R360 to R362): record bytes by slot, requests of the RTC second in hand. -/
structure Log where
  slots : Tab Bytes
  nextSeq : Word
  /-- the commit in progress, the exempt requests, the others in request order -/
  cur : Option LogRec
  exempt : List LogRec
  wait : List LogRec
  held : Option LogRec
  reqs : Nat
  error : Bool
  /-- RTC second in hand -/
  sec : Nat
deriving DecidableEq, Repr

/-- One watch (R365). -/
structure Watch where
  kicked : Time
  expired : Bool
  retry : Bool
  /-- time since the kick for which the watch paused (R365) -/
  paused : Time
deriving DecidableEq, Repr

/-- A ladder instance (R367). -/
structure Ladder where
  dom : Nat
  watch : Option Nat
  step : Nat
  trigger : Nat
  /-- the step has been started, and when -/
  running : Bool
  since : Time
  requested : Bool
  /-- instant since which the domain has been READY after this step, and the stage DONE after step 3 or 4 -/
  ready : Option Time
deriving DecidableEq, Repr

/-- Tender (R365 to R370). -/
structure Tender where
  watches : Tab Watch
  ladders : List Ladder
  halted : Bool
  lastDom : Nat
  lastStep : Nat
  lastTrigger : Nat
  lastWatch : Nat
  lastResult : Nat
  /-- instants of unrequested runs of steps 3 and 4 (R367) -/
  runs3 : List Time
  runs4 : List Time
  /-- faults that wait for the stage DONE (R290, R366) -/
  faultWait : List Nat
deriving DecidableEq, Repr

/-- One Keeper core under debug (R373). -/
structure Core where
  halted : Bool
  reason : Nat
  pc : Word
  bp : Tab Word
  wpAddr : Tab Word
  wpCtl : Tab Word
deriving DecidableEq, Repr

/-- The TAP and the debug port (R371 to R373). -/
structure Debug where
  ir : BitVec 5
  /-- what drives the pads: 0 the device, 1 the boundary register (EXTEST, CLAMP), 2 high impedance -/
  drive : Nat
  boundary : Nat
  unlocked : Bool
  failRun : Nat
  blocked : Option Time
  challenge : Option (Block × Time)
  cores : Tab Core
  /-- since when a core is halted (R365) -/
  haltAt : Option Time
  /-- the access register: last op captured and its data (Table 17.8) -/
  accOp : Nat
  accData : Word
deriving DecidableEq, Repr

/-- Factory data in OTP (R143). -/
structure Otp where
  serial : DWord
  key : Block
deriving DecidableEq, Repr

/-- One write to a check-value unit (R254, R255). -/
inductive CvOp where
  | start
  | feed (v : Word)
  | stateLo (v : Word)
  | stateHi (v : Word)
deriving DecidableEq, Repr

/-- What a check-value unit's arbiter and pipeline hold: the state s, the low word of a state write, and the pointer of the
arbiter (R17, R254). -/
structure CvNow where
  s : DWord
  lo : Word
  ptr : Nat
deriving DecidableEq, Repr

/-- A check-value unit (R254, R255): what it holds, and, of the last cycle in which it was written, the instant, what it
held before, and the writes by requester in the order in which they came. -/
structure Cv where
  now : CvNow
  since : Time
  was : CvNow
  ops : List (Nat × CvOp)
deriving DecidableEq, Repr

/-- What a lane's transmit pair carries: electrical idle, frames, idle, remote fault, a PRBS sequence, or what it
receives (R211, R219 to R221, Table 9.4). -/
inductive LaneTx where
  | electricalIdle
  | frames
  | idle
  | remoteFault
  | prbs (k : Nat)
  | looped
deriving DecidableEq, Repr

/-- What the block put on its interfaces in the last step. -/
inductive Output where
  /-- the value a register read returned -/
  | data (v : Word)
  /-- the block a DRAM read returned: address, bytes -/
  | mem (addr : Nat) (data : Bytes)
  /-- a transmission that has left a radio: its wave and the instant of its first symbol, and the MAC frame or
  other payload bytes that the wave carries -/
  | air (b : Band) (wave : Wave) (first : Time) (data : Bytes)
  /-- the electrical levels of a radio's front-end pins (R48) -/
  | pins (b : Band) (levels : BitVec 8)
  /-- an Ethernet frame with its FCS on port e -/
  | eth (e : Nat) (data : Bytes)
  /-- a Range link frame, and the 64-bit blocks of it that lane 6 and lane 7 carry (R213) -/
  | rng (data : Bytes) (lane6 lane7 : List Bytes)
  /-- the training burst of so many UI that ends the Range link's electrical idle (R219) -/
  | burst (ui : Nat)
  /-- what lane n's transmit pair carries from now, and whether the pair is inverted (R207, R211, R220) -/
  | lane (n : Nat) (tx : LaneTx) (inverted : Bool)
  /-- a UDP datagram injected on KPR: destination address and port, source port, the port that it leaves by, payload -/
  | udp (dst port src via : Nat) (data : Bytes)
  /-- a packet handed to Keeper, with the pass, generation, parse result and precedence of a copy -/
  | keeper (queue : Nat) (data : Bytes) (copy : Option (Nat × Nat × Nat × Nat))
  /-- a TAP data register captured -/
  | tap (v : Nat)
deriving DecidableEq, Repr

/-- What the device did in the present cycle, where another command of the same cycle must not see it (R20, R178, R190, R195,
R202): hardware sets of W1C bits by 32 × address + bit, counters incremented with their value before and what was added, table
entries hit and table entries written, as they were, by 65536 × table + index, meters written, as they were, whether a packet has
entered the pipeline, learn entries popped, packets that a queue's limit refused: its key, the packet, whether it was yellow,
its drop precedence, and the reason counted, event entries that found the queue full, whether the OVERFLOW entry was formed for
them, and whether EV024 was pending before it (R356). -/
structure Cycle where
  sets : List Nat
  incs : Tab (Nat × Nat)
  hits : List Nat
  tables : Tab (BitVec 512)
  meters : Tab Meter
  entered : Bool
  pops : Nat
  tails : List (Nat × QPkt × Bool × Nat × Nat)
  lost : List EvEntry
  formed : Bool
  full : Bool
deriving DecidableEq, Repr

/-- The device: everything but the command queue. -/
structure Device where
  clk : Clock
  regs : Regs
  doms : Tab Domain
  rad : Tri Radio
  lant : Lantern
  time : TimeBlk
  ciph : Cipher
  pkt : Packet
  lanes : Lanes
  mem : Mem
  cv : Tab Cv
  ll : LightList
  start : Start
  twin : Twin
  pwr : Power
  keep : Keeper
  ev : Events
  log : Log
  tender : Tender
  dbg : Debug
  otp : Otp
  cycle : Cycle
  /-- counter of the free values taken so far (the model's own; log 2) -/
  free : Nat
  out : List Output
deriving DecidableEq, Repr

/-- The machine: the device and the commands that wait, first in, first out. -/
structure State where
  dev : Device
  pending : List Instr
deriving DecidableEq, Repr

/-- The reasons the machine stops. -/
inductive Fault where
  /-- raised by DBG_ACCESS_READ, DBG_ACCESS_WRITE and management reads and writes: a system-bus address
  that Table 1.2 gives no contents (R12). Safe: the model stops where the specification says nothing. -/
  | busHole (addr : Nat)
deriving DecidableEq, Repr

/-- The reasons a command has no meaning. -/
inductive Refusal where
  /-- raised by exec alone, for a command that has no meaning yet. Safe. -/
  | notModelled (mnemonic : String)
deriving DecidableEq, Repr

/-! ## What twins tell each other (Table 14.4) -/

/-- The content of one record on a MIRROR channel; its encoding is not given (log 30). -/
inductive MirRec where
  /-- CONTROL -/
  | role (r : Nat)
  | handoverReq (sfAhead : Nat)
  | handover (h : Nat)
  | yield_
  | accept
  | refuse
  | resync
  | profile (p c : Nat)
  | ladder (dom step : Nat)
  /-- the copy of this channel is complete -/
  | done
  /-- ROSTER -/
  | client (c : Nat) (k : Client)
  | link (h : Nat) (l : Link)
  /-- KEYSTATE -/
  | key (c s : Nat) (st : KeySt) (epoch usage : Nat) (encReq : Bool)
  /-- COUNTERS -/
  | counter (h s : Nat) (w : RWin)
  /-- PLAN -/
  | plan (l : List PlanRec) (version : Nat)
  | commit (c : Commit)
  | openMap (b : Band) (w : Word)
  | depth (n : Nat)
  /-- SPOOL -/
  | spool (i : Nat) (e : Bytes)
  | spoolPos (wr fwd : Nat) (chain : DWord)
  | spoolSum (block : Nat) (crc : Word)
  | spoolWant (block : Nat)

/-! ## The state after reset -/

/-- A domain after its reset: DOM_STATE resets to 0x1, RESET (Table 1.5). -/
def Domain.reset : Domain :=
  ⟨1, 0, false, false, 0, 0, 0, 0, 0⟩

/-- A frequency group without valid calibration (R37). -/
def GroupCal.reset : GroupCal := ⟨false, 0⟩

/-- A zero predistortion coefficient (Table 2.18, j > 0). -/
def Coef.zero : Coef := ⟨0, 0⟩

/-- A radio after its domain's reset (Tables 2.13, 2.18, R48, R51). -/
def Radio.reset : Radio where
  st := .off
  trans := []
  chan := none
  cls := 0
  groups := []
  pend := []
  forced := []
  cal := none
  bg := none
  bgDone := 0
  bgUse := []
  dpd := [(0, ⟨0x4000, 0⟩)]
  pins := 0
  seqRun := none
  seqLeft := []
  seqAnt := 0
  seqGain := 0
  tx := none
  txNext := []
  keeper := []
  wins := []
  cur := none
  cand := none
  gainHeld := none
  flight := []
  peakFlight := 0
  rxLast := 0
  rxQual := 0
  off := []
  atClamp := 0
  limit := 0x8000
  ring154 := []
  buffered := []
  lastEnd := 0
  detAt := none
  txOffAt := none
  caps := []
  back := none
  parentHeld := []

/-- A client ID that is not associated (R142). -/
def Client.none_ : Client where
  assoc := false
  serial := 0
  caps := 0
  links := []
  k := 0
  downSeq := 0
  downBack := []
  lease := 0
  missRun := 0
  adrift := false
  bellLeft := 0
  lr := false
  syncAge := none
  released := false
  guardLast := 0
  firstLeft := none
  reason := 0
  ctrl := []
  txSeq := 0
  rxNext := 0
  held := []
  epochAt := none
  retireAt := none
  assocRetire := false

/-- A link handle not in use (R395). -/
def Link.none_ : Link := ⟨false, 0, .l, 0, 0, 0, false, 0⟩

/-- A profile band with no PROFILE record (R265). -/
def ProfBand.none_ : ProfBand := ⟨false, 0, 0, 0, 0x8000, 0, 0, [], []⟩

/-- An empty duty-cycle window. -/
def DutyWin.empty : DutyWin := ⟨[], false, false⟩

/-- The relay status after reset: ANCHOR (Table 5.9). -/
def Relay.reset : Relay where
  st := 0
  chan := 0
  chanM := 0
  miss := 0
  parent := 0
  parentDepth := 0
  lastBeacon := none
  heard := false
  scanM := false
  scanChan := 0
  joining := false
  attempts := 0
  waitTill := 0
  asked := none
  openMap := 0
  barred := none
  heardM := false
  heardH := false
  lostM := false
  lostH := false
  missM := 0
  missH := 0
  badM := false
  badH := false

/-- The Lantern after D2 reset (Tables 4.20 to 4.23, 5.9). -/
def Lantern.reset : Lantern where
  sf := 0
  plan := []
  shadow := []
  version := 0
  commit := none
  grantsDue := []
  openMap := ⟨0, 0, 0⟩
  openPend := ⟨[], [], []⟩
  pendBits := []
  pendSeg := 0xFF
  lastSeg := 63
  profiles := []
  validMask := 0
  profile := none
  switch_ := none
  duty := []
  dutyReady := false
  dutySec := 0
  clients := []
  links := []
  notes := []
  silent := 0
  lit := 0
  lastLr := none
  bodies := ⟨[], [], []⟩
  assocReqs := []
  assocResps := []
  polls := []
  bells := []
  relay := Relay.reset
  ring := []
  ringUsed := 0
  ringPos := 0
  sealer := none
  charCopy := 0
  lampChangeAt := none
  eclipseFlag := false

/-- A reference domain after D2 reset (Table 10.8). -/
def RefDomain.reset : RefDomain :=
  ⟨.off, 0, 0, 0, 0, none, 0, none, none, none, none, 0⟩

/-- Time selection and servo after D2 reset (Table 10.8). -/
def TimeBlk.reset : TimeBlk :=
  ⟨false, false, none, RefDomain.reset, RefDomain.reset, 0, 0, false, 0, none, none, none⟩

/-- An EMPTY key slot (R146). -/
def KeyEntry.empty : KeyEntry := ⟨.empty, 0, 0, 0, 0, false, false⟩

/-- A replay window and downlink counter at the start of an epoch (R151, R154). -/
def RWin.fresh : RWin := ⟨0, 0, 0⟩

/-- The cipher engine after D7 reset. -/
def Cipher.reset : Cipher := ⟨[], [], [], none, [], [], 0, 0, false, false, false⟩

/-- A queue after D6 reset: empty, credit equal to its burst (R196). -/
def Queue.empty : Queue := ⟨[], 0, 0, []⟩

/-- A meter after D6 reset: cir, pir, cbs and pbs of 0 (Table 8.7, note). -/
def Meter.zero : Meter := ⟨0, 0, 0, 0, false, 0, 0, 0, 0, false⟩

/-- A gate list after D6 reset (Table 8.7). -/
def Gate.reset : Gate := ⟨false, none, 0, 0⟩

/-- An idle port. -/
def Egress.idle : Egress := ⟨none, 0⟩

/-- The default action after D6 reset: DROP (R189). -/
def actionDrop : DWord := 0x2000000000000000

/-- The Packet domain after D6 reset (R189, Tables 7.12, 7.13). -/
def Packet.reset : Packet where
  tables := []
  tblBusy := false
  tblError := false
  tblB0 := 0
  tblB1 := 0
  learn := []
  popMac := 0
  popBd := 0
  popLink := 0
  gen := 0
  commitWait := none
  refused := false
  defs := []
  defsOld := []
  ingress := []
  rrPtr := 0
  inPipe := []
  recirc := []
  parseLast := 0
  queues := []
  cells := 0
  dramCells := 0
  spilling := false
  egress := []
  gates := []
  gateMem := []
  meters := []

/-- A lane after D9 reset (Table 9.9), with the taps of LANE_CFG's reset value (log 15). -/
def Lane.reset : Lane := ⟨0x00003008, false, false, false, false, false, 0, 0, 0, 0, 0, 0, none⟩

/-- An Ethernet port after D9 reset (Table 9.10). -/
def Eth.reset : Eth := ⟨false, false, false, none⟩

/-- A MIRROR channel with nothing sent or received. -/
def MirChan.reset : MirChan := ⟨0, [], [], 0, 0, false⟩

/-- The Range link after D9 reset (Table 9.8). -/
def Rng.reset : Rng :=
  ⟨0, false, false, 0, 0, 0x00003008, 0x00003008, false, none, false, none, none, false, 0, false, 0, 0, none, 0, 0, false, [], []⟩

/-- The Lanes domain after its reset. -/
def Lanes.reset : Lanes := ⟨[], [], Rng.reset, [], 0, 0⟩

/-- A bank with no open row. -/
def Bank.closed : Bank := ⟨none, 0, none⟩

/-- A DRAM channel after D8 reset: OFF (Table 11.8). -/
def Channel.reset : Channel := ⟨0, [], [], [], 0, 0⟩

/-- Training results after reset (Table 11.8). -/
def LaneTrain.reset : LaneTrain := ⟨0, 0, 0⟩

/-- The Memory domain after reset. -/
def Mem.reset : Mem :=
  ⟨[], Channel.reset, Channel.reset, 0, [], false, false, false, false, false, false⟩

/-- A check-value unit after reset (Table 11.7). -/
def Cv.reset : Cv := ⟨⟨0, 0, 0⟩, 0, ⟨0, 0, 0⟩, []⟩

/-- The flash as shipped: 16 MiB, readable SFDP, both banks erased (log 9: an attached part). -/
def Flash.blank : Flash := ⟨0x1000000, true, [], []⟩

/-- The Light List state after reset (Table 12.14). -/
def LightList.reset : LightList where
  flash := Flash.blank
  fallback := false
  bankB := false
  seq := 0
  epoch := 0
  restartPending := false
  rejectA := false
  rejectB := false
  stage := 0
  reloadMask := 0
  reloadAt := none
  changed := 0
  delta := []
  staged := []
  devChar := 0
  expChar := 0
  expDigest := []
  digestChk := 0
  twinSeen := false
  twinMatch := false
  parentSeen := false
  parentMatch := false
  twinChar := 0
  parentChar := 0
  twinNow := false
  parentNow := false

/-- Start-up state before VIN rises (Table 13.8). -/
def Start.reset : Start where
  powered := false
  cause := 0
  straps := 0
  stage := 0
  railFail := 0
  attempts := 0
  rail := 0
  t0 := 0
  pwrGood := false
  railFault := false
  warm := false
  resetLow := none
  owe := []
  waking := none
  todo := []
  degraded := false
  sfdpTries := 0
  alertInit := true
  strapPins := 0
  bringUp := false

/-- The twin state after reset: OFF (Table 14.10). -/
def Twin.reset : Twin where
  role := 0
  senior := false
  peerRole := 0
  peerSenior := false
  peerSerial := 0
  pinsOk := false
  keepAt := none
  sync := 0
  spoolBehind := false
  spoolLeft := 0
  mirrorStale := false
  silentSf := 0
  airHeard := false
  airCheck := false
  silentRun := 0
  syncedOnce := false
  lastTrigger := 0
  lastHb := 0
  startedAt := 0
  handover := none
  takeAt := none
  wasLit := false
  lost := false
  hbOut := .off
  yieldAt := 0
  yielding := false
  conflict := false
  lastTx := []
  checkFrom := 0

/-- A GPIO pin after reset: an input at low level (Tables 15.9, 18.4; log 6). -/
def Gpio.reset : Gpio := ⟨false, false, false, 0, false, none, false⟩

/-- Power states after reset (Tables 15.8, 15.9, 18.18). -/
def Power.reset : Power where
  st := 0
  target := 0
  held := false
  lastWake := 0
  entryAt := none
  latch := 0
  padHold := 0
  padLevels := []
  sampleVin := 0
  sampleTemp := 0
  firstTick := false
  tickAt := none
  vin := 0
  gpio := []
  tripped := false
  warn := false
  warnArmed := true
  dieTemp := 0
  thermTemp := 0
  bellLast := 0
  bellAt := []

/-- Keeper's services after D1 reset (Tables 16.10, 16.11). -/
def Keeper.reset : Keeper where
  wr := 0
  fwd := 0
  chain := 0
  warn90 := false
  sendNext := 0
  sentHigh := 0
  unacked := []
  dgCounter := 0
  splIn := []
  fwdMoved := 0
  timeouts := 0
  stalled := false
  fixValid := false
  region := 0x1F
  run := 0
  lastFix := 0
  ptp := []
  bootNonce := 0
  opWin := RWin.fresh
  rdWin := RWin.fresh
  queue := []
  hellos := []

/-- The event fabric after reset (Table 17.11). -/
def Events.reset : Events := ⟨0, [], [], 0, 0⟩

/-- The Log unit over a blank MRAM (R360). -/
def Log.reset : Log := ⟨[], 1, none, [], [], none, 0, false, 0⟩

/-- A watch after reset. -/
def Watch.reset : Watch := ⟨0, false, false, 0⟩

/-- Tender after reset (Table 17.12). -/
def Tender.reset : Tender := ⟨[], [], false, 0, 0, 0, 0, 0, [], [], []⟩

/-- A running core with no break or watch points (R373). -/
def Core.reset : Core := ⟨false, 0, 0, [], [], []⟩

/-- The TAP in BYPASS, the port locked (R371, R372). -/
def Debug.reset : Debug := ⟨0x1F, 0, 0, false, 0, none, none, [], none, 0, 0⟩

/-- A cycle in which nothing has happened yet. -/
def Cycle.empty : Cycle := ⟨[], [], [], [], [], false, 0, [], [], false, false⟩

/-- The device after reset: every register at its reset value, every domain in RESET, no rail on. -/
def Device.reset : Device where
  clk := ⟨0, false, 0, 0⟩
  regs := ⟨[], [], 0, [], []⟩
  doms := []
  rad := ⟨Radio.reset, Radio.reset, Radio.reset⟩
  lant := Lantern.reset
  time := TimeBlk.reset
  ciph := Cipher.reset
  pkt := Packet.reset
  lanes := Lanes.reset
  mem := Mem.reset
  cv := []
  ll := LightList.reset
  start := Start.reset
  twin := Twin.reset
  pwr := Power.reset
  keep := Keeper.reset
  ev := Events.reset
  log := Log.reset
  tender := Tender.reset
  dbg := Debug.reset
  otp := ⟨0, 0⟩
  cycle := Cycle.empty
  free := 0
  out := []

/-- The machine after reset, with no command waiting. -/
def State.reset : State := ⟨Device.reset, []⟩

end Sys2Proof.Machine
end

