-- ==== Sys2Proof/Config.lean ====
section
/-! DEFINITION. What an implementation fixes and the free values: constants without a body, so that nothing can be proved of their values. -/

namespace Sys2Proof

/-- A fresh free value: the `n`-th value the specification leaves open (notes/assumptions/2). -/
opaque Config.freeNat : Nat → Nat

/-- Whether the inexact quotient `num / den` is rounded up, where the specification states a value but
not the rounding of its last unit (notes/assumptions/3). -/
opaque Config.roundsUp : Int → Nat → Bool

/-- The contents of the boot ROM, which the specification does not give (R12; notes/assumptions/12). -/
opaque Config.romByte : Nat → BitVec 8

/-- The fixed latency of a lane, in half nanoseconds, by rate code and direction, which R224 names but
does not give (notes/assumptions/13). -/
opaque Config.laneLatency : Nat → Bool → Nat

/-- The bytes of a record on a MIRROR channel, and the record that bytes spell: the specification names the
content and not the encoding (Table 14.4; notes/assumptions/30). -/
opaque Config.mirrorEncode : Machine.MirRec → List (BitVec 8)
opaque Config.mirrorDecode : List (BitVec 8) → Option Machine.MirRec

/-- The payload of a TIME frame, from the number of the exchange's frame and the two lamp times it carries, in half ns,
and the reading of one: the specification gives no layout (R229; notes/assumptions/31). -/
opaque Config.timeEncode : Nat → Nat → Nat → List (BitVec 8)
opaque Config.timeDecode : List (BitVec 8) → Option (Nat × Nat × Nat)

/-- The payload of a TRAIN frame and the reading of one: the specification names the content and not the layout (R215;
notes/assumptions/31). -/
opaque Config.trainEncode : Machine.Train → List (BitVec 8)
opaque Config.trainDecode : List (BitVec 8) → Option Machine.Train

/-- The value that wraps the root key of a device: made from the provisioning key and the device's serial; the
specification says that root keys are wrapped under a key derived from the provisioning key and gives neither the
derivation nor the wrapping (R145; notes/assumptions/98). -/
opaque Config.rootMask : BitVec 128 → BitVec 64 → BitVec 128

end Sys2Proof
end

