-- ==== Sys2Proof/Machine/RegMap.lean ====
section
/-! DEFINITION. The register map: for every register of the summary tables its place, its access masks
(Table 0.4) and its reset value, and a name for its address (R1, R11, R13). -/

namespace Sys2Proof.Machine

/-- One row of a register map: `n` registers from domain offset `off`, `stride` apart. `rw`, `ll`, `w1c`
and `wo` are the bits of each access code; `rcMax` is the greatest value of an RC register, 0 for the
others; `kind` is 1 for the low word and 2 for the high word of a 64-bit register (R9), 3 for a register
whose read has a row of its own. -/
structure RegRow where
  off : Nat
  stride : Nat
  n : Nat
  rw : Nat
  ll : Nat
  w1c : Nat
  wo : Nat
  rcMax : Nat
  reset : Nat
  kind : Nat
deriving DecidableEq, Repr

/-- Base of the domain window (R1). -/
def domBase (n : Nat) : Nat := 0x10000000 + n * 0x01000000

/-- Domain number of a band's radio (Table 0.3). -/
def bandDom : Band → Nat
  | .l => 3
  | .m => 4
  | .h => 5

/-- Number of a band: 0 L, 1 M, 2 H (Table 6.2). -/
def bandNum : Band → Nat
  | .l => 0
  | .m => 1
  | .h => 2

/-- The band of a number; 2 and above: H. -/
def bandOfNum : Nat → Band
  | 0 => .l
  | 1 => .m
  | _ => .h

/-- Base of a band's radio domain window. -/
def radBase (b : Band) : Nat := domBase (bandDom b)

/-- Register rows of the domain control block, the same in every domain (Tables 1.4, 11.5). -/
def domRows : List RegRow :=
  [ 
    ⟨0, 4, 1, 0, 0, 0, 0, 0, 0, 0⟩,  -- DOM_ID
    ⟨4, 4, 1, 0, 0, 0, 0, 0, 1, 0⟩,  -- DOM_STATE
    ⟨8, 4, 1, 0, 0, 0, 3, 0, 0, 0⟩,  -- DOM_SNAP
    ⟨0x10, 4, 1, 0, 0, 0, 0, 0, 0, 1⟩,  -- DOM_CHAR_LO
    ⟨0x14, 4, 1, 0, 0, 0, 0, 0, 0, 2⟩,  -- DOM_CHAR_HI
    ⟨0x20, 4, 1, 0, 0, 0, 0, 0xFFFFFFFF, 0, 0⟩,  -- DOM_SRAM_CORR_CNT
    ⟨0x24, 4, 1, 0, 0, 0, 0, 0xFFFFFFFF, 0, 0⟩,  -- DOM_SRAM_UNCORR_CNT
    ⟨0x28, 4, 1, 0, 0, 0, 0, 0, 0, 0⟩  -- DOM_SRAM_LAST
  ]

/-- Register rows of D0 Mooring. -/
def moorRows : List RegRow :=
  [ 
    ⟨0x40000, 4, 1, 0, 0xFFFFCFFF, 0, 0, 0, 0, 0⟩,  -- MOOR_BELL_CTRL
    ⟨0x40010, 4, 8, 0, 0xFFFFFFFF, 0, 0, 0, 0, 0⟩,  -- MOOR_BELL_CODE_i
    ⟨0x40030, 4, 1, 0, 0, 0, 0, 0, 0, 0⟩,  -- MOOR_BELL_LAST
    ⟨0x40034, 4, 1, 0, 0, 0, 0, 0xFFFFFFFF, 0, 0⟩,  -- MOOR_BELL_MATCH_CNT
    ⟨0x40, 4, 1, 0, 0, 0, 0, 0, 0, 0⟩,  -- MOOR_START
    ⟨0x44, 4, 1, 0, 0, 0, 0, 0xFFFFFFFF, 0, 0⟩,  -- MOOR_COLD_CNT
    ⟨0x48, 4, 1, 0, 0, 0, 0, 0xFFFFFFFF, 0, 0⟩,  -- MOOR_WARM_CNT
    ⟨0x50080, 4, 1, 0, 0x81FFFF00, 0, 0, 0, 0x141400, 0⟩,  -- MOOR_TWIN_CTRL
    ⟨0x50084, 4, 1, 0, 0, 0, 0, 0, 0, 0⟩,  -- MOOR_TWIN_STATUS
    ⟨0x50088, 4, 1, 0, 0, 0, 0xC00000FF, 0, 0, 0⟩,  -- MOOR_TWIN_CMD
    ⟨0x50090, 4, 1, 0, 0, 0, 0, 0xFFFFFFFF, 0, 0⟩,  -- MOOR_LAMP_CHANGE_CNT
    ⟨0x50094, 4, 1, 0, 0, 0, 0, 0xFFFFFFFF, 0, 0⟩,  -- MOOR_TWIN_HB_LOSS_CNT
    ⟨0x10000, 4, 1, 0xFFFFFFFF, 0, 0, 0, 0, 0, 0⟩,  -- MOOR_RTC_ALARM
    ⟨0x10010, 4, 1, 0x7F, 0, 0, 0, 0, 0x7F, 0⟩,  -- MOOR_WAKE_EN
    ⟨0x10014, 4, 1, 0, 0, 0x7F, 0, 0, 0, 0⟩,  -- MOOR_WAKE_LATCH
    ⟨0x10018, 4, 1, 0, 0, 0, 0, 0xFFFFFFFF, 0, 0⟩,  -- MOOR_WAKE_CNT
    ⟨0x20000, 4, 1, 0, 0, 0, 0, 0, 0, 0⟩,  -- MOOR_PAD_HOLD
    ⟨0x20004, 4, 1, 0, 0, 0, 0xF, 0, 0, 0⟩,  -- MOOR_PAD_RELEASE
    ⟨0x30000, 4, 1, 0, 0, 0, 0x80000003, 0, 0, 0⟩,  -- MOOR_PWR_CMD
    ⟨0x30004, 4, 1, 0, 0, 0, 0, 0, 0, 0⟩,  -- MOOR_PWR_STATUS
    ⟨0x30008, 4, 1, 0xFFFF, 0, 0, 0, 0, 0x3E8, 0⟩,  -- MOOR_SEQ_CTRL
    ⟨0x3000C, 4, 1, 0xFFFFFFFF, 0, 0, 0, 0, 0xFFFF0000, 0⟩,  -- MOOR_VIN_THRESH
    ⟨0x30010, 4, 1, 0xFFFFFFFF, 0, 0, 0, 0, 0x7FFF8000, 0⟩,  -- MOOR_TEMP_THRESH
    ⟨0x30014, 4, 1, 0, 0, 0, 0, 0, 0, 0⟩,  -- MOOR_SAMPLE
    ⟨0x60000, 4, 0x10, 0xF00000FF, 0, 0, 0, 0, 0xA, 0⟩,  -- MOOR_GPIO_CFG_i
    ⟨0x60040, 4, 1, 0xFFFF00FF, 0, 0, 0, 0, 0x2580014, 0⟩,  -- MOOR_GPIO_CTRL
    ⟨0x60044, 4, 1, 0, 0, 0, 0, 0, 0, 0⟩,  -- MOOR_GPIO_LEVEL
    ⟨0x60048, 4, 1, 0, 0, 0, 0, 0, 0, 0⟩,  -- MOOR_GPIO_FLAGS
    ⟨0x50000, 4, 1, 0, 0, 0, 0xC0000F07, 0, 0, 0⟩,  -- MOOR_LADDER_CMD
    ⟨0x50004, 4, 1, 0, 0, 0, 0, 0, 0, 0⟩,  -- MOOR_LADDER_STATUS
    ⟨0x50010, 4, 1, 0, 0, 0, 0xFFFF, 0, 0, 0⟩,  -- MOOR_WATCH_KICK
    ⟨0x50014, 4, 1, 0, 0, 0, 0, 0, 0, 0⟩,  -- MOOR_WATCH_STAT
    ⟨0x50020, 4, 0x10, 0x8F3FFFFF, 0, 0, 0, 0, 0, 0⟩,  -- MOOR_WATCH_CFG_w
    ⟨0x50060, 4, 4, 0, 0, 0, 0, 0xFFFFFFFF, 0, 0⟩,  -- MOOR_LADDER_STEP_CNT_s
    ⟨0x50070, 4, 1, 0, 0, 0, 0, 0xFFFFFFFF, 0, 0⟩,  -- MOOR_BROWNOUT_CNT
    ⟨0x4C, 4, 1, 0, 0, 0, 0, 0xFFFFFFFF, 0, 0⟩,  -- MOOR_THERM_TRIP_CNT
    ⟨0x30018, 4, 1, 0, 0, 0, 0, 0, 0, 0⟩  -- MOOR_VHOLD
  ]

/-- Register rows of D1 Keeper. -/
def keepRows : List RegRow :=
  [ 
    ⟨0x30000, 0x40, 4, 0x7BF, 0, 0, 0, 0, 0x61F, 0⟩,  -- CVn_CTRL
    ⟨0x30004, 0x40, 4, 0, 0, 0, 1, 0, 0, 0⟩,  -- CVn_CMD
    ⟨0x30008, 0x40, 4, 0xFFFFFFFF, 0, 0, 0, 0, 0, 0⟩,  -- CVn_POLY_LO
    ⟨0x3000C, 0x40, 4, 0xFFFFFFFF, 0, 0, 0, 0, 0, 0⟩,  -- CVn_POLY_HI
    ⟨0x30010, 0x40, 4, 0xFFFFFFFF, 0, 0, 0, 0, 0, 0⟩,  -- CVn_INIT_LO
    ⟨0x30014, 0x40, 4, 0xFFFFFFFF, 0, 0, 0, 0, 0, 0⟩,  -- CVn_INIT_HI
    ⟨0x30018, 0x40, 4, 0xFFFFFFFF, 0, 0, 0, 0, 0, 0⟩,  -- CVn_XOROUT_LO
    ⟨0x3001C, 0x40, 4, 0xFFFFFFFF, 0, 0, 0, 0, 0, 0⟩,  -- CVn_XOROUT_HI
    ⟨0x30020, 0x40, 4, 0xFFFFFFFF, 0, 0, 0, 0, 0, 1⟩,  -- CVn_STATE_LO
    ⟨0x30024, 0x40, 4, 0xFFFFFFFF, 0, 0, 0, 0, 0, 2⟩,  -- CVn_STATE_HI
    ⟨0x30028, 0x40, 4, 0, 0, 0, 0, 0, 0, 1⟩,  -- CVn_RESULT_LO
    ⟨0x3002C, 0x40, 4, 0, 0, 0, 0, 0, 0, 2⟩,  -- CVn_RESULT_HI
    ⟨0x30030, 0x40, 4, 0, 0, 0, 0xFFFFFFFF, 0, 0, 0⟩,  -- CVn_DATA
    ⟨0x50100, 4, 1, 0, 0, 0, 0, 0, 0, 0⟩,  -- KEEP_LL_STATUS
    ⟨0x50104, 4, 1, 0, 0, 0, 0, 0, 0, 0⟩,  -- KEEP_LL_SEQ
    ⟨0x50108, 4, 1, 0, 0, 0, 0, 0, 0, 0⟩,  -- KEEP_LL_EPOCH
    ⟨0x50110, 4, 1, 0, 0, 0, 0, 0, 0, 1⟩,  -- KEEP_LL_CHAR_LO
    ⟨0x50114, 4, 1, 0, 0, 0, 0, 0, 0, 2⟩,  -- KEEP_LL_CHAR_HI
    ⟨0x50118, 4, 1, 0, 0, 0, 0, 0, 0, 1⟩,  -- KEEP_LL_EXP_LO
    ⟨0x5011C, 4, 1, 0, 0, 0, 0, 0, 0, 2⟩,  -- KEEP_LL_EXP_HI
    ⟨0x50120, 4, 1, 0, 0, 0, 0, 0, 0, 0⟩,  -- KEEP_LL_DIGEST_CHK
    ⟨0x50124, 4, 1, 0, 0x80000000, 0, 0, 0, 0, 0⟩,  -- KEEP_LL_AGREE
    ⟨0x50128, 4, 1, 0, 0, 0, 0, 0, 0, 0⟩,  -- KEEP_LL_CMP
    ⟨0x50130, 4, 1, 0, 0, 0, 0, 0, 0, 1⟩,  -- KEEP_LL_TWIN_LO
    ⟨0x50134, 4, 1, 0, 0, 0, 0, 0, 0, 2⟩,  -- KEEP_LL_TWIN_HI
    ⟨0x50138, 4, 1, 0, 0, 0, 0, 0, 0, 1⟩,  -- KEEP_LL_PARENT_LO
    ⟨0x5013C, 4, 1, 0, 0, 0, 0, 0, 0, 2⟩,  -- KEEP_LL_PARENT_HI
    ⟨0x50140, 8, 4, 0xFFFFFFFF, 0, 0, 0, 0, 0, 1⟩,  -- KEEP_LL_PEER_LO
    ⟨0x50144, 8, 4, 0xFFFFFFFF, 0, 0, 0, 0, 0, 2⟩,  -- KEEP_LL_PEER_HI
    ⟨0x50160, 4, 1, 0, 0, 0, 0x800003FF, 0, 0, 0⟩,  -- KEEP_LL_RELOAD_CMD
    ⟨0x50170, 4, 1, 0, 0, 0, 0, 0xFFFFFFFF, 0, 0⟩,  -- KEEP_LL_RELOAD_DISC_CNT
    ⟨0x50174, 4, 1, 0, 0, 0, 0, 0xFFFFFFFF, 0, 0⟩,  -- KEEP_LL_RELOAD_CNT
    ⟨0x40100, 4, 1, 0, 0x8000FF3F, 0, 0, 0, 0xA01, 0⟩,  -- KEEP_GEO_CTRL
    ⟨0x40104, 4, 1, 0, 0xFFFF, 0, 0, 0, 0, 0⟩,  -- KEEP_GEO_EN
    ⟨0x40108, 4, 1, 0, 0xFFFFFFFF, 0, 0, 0, 0, 0⟩,  -- KEEP_GEO_PROF_LO
    ⟨0x4010C, 4, 1, 0, 0xFFFFFFFF, 0, 0, 0, 0, 0⟩,  -- KEEP_GEO_PROF_HI
    ⟨0x40110, 4, 1, 0, 0, 0, 0, 0, 0x1F0000, 0⟩,  -- KEEP_GEO_STATUS
    ⟨0x40140, 4, 0x40, 0, 0xFFFFFFFF, 0, 0, 0, 0, 0⟩,  -- KEEP_GEO_REG_i
    ⟨0x40300, 4, 1, 0, 0xF8FFFFFF, 0, 0, 0, 0x8080, 0⟩,  -- KEEP_PTP_CTRL
    ⟨0x40310, 4, 6, 0, 0xFC00FFFF, 0, 0, 0, 0x400FD01, 0⟩  -- KEEP_PTP_PORT_e
  ] ++
  [ 
    ⟨0x50200, 4, 1, 0, 0xFFFF8007, 0, 0, 0, 0x76C18000, 0⟩,  -- KEEP_MGMT_CTRL
    ⟨0x50210, 4, 1, 0, 0, 0, 0, 0xFFFFFFFF, 0, 0⟩,  -- KEEP_MGMT_OK_CNT
    ⟨0x50214, 4, 1, 0, 0, 0, 0, 0xFFFFFFFF, 0, 0⟩,  -- KEEP_MGMT_AUTH_FAIL_CNT
    ⟨0x50218, 4, 1, 0, 0, 0, 0, 0xFFFFFFFF, 0, 0⟩,  -- KEEP_MGMT_REPLAY_CNT
    ⟨0x5021C, 4, 1, 0, 0, 0, 0, 0xFFFFFFFF, 0, 0⟩,  -- KEEP_MGMT_REFUSED_CNT
    ⟨0x50240, 4, 1, 0, 0xFFFFFFFF, 0, 0, 0, 0x76C20840, 0⟩,  -- KEEP_SPOOL_CTRL
    ⟨0x50244, 4, 1, 0, 0x8FFFFFFF, 0, 0, 0, 0x88400000, 0⟩,  -- KEEP_PLAN_CTRL
    ⟨0x50250, 4, 4, 0, 0xFFFFFFFF, 0, 0, 0, 0, 0⟩,  -- KEEP_SPOOL_COLL_w
    ⟨0x50260, 4, 1, 0, 0, 0, 0, 0, 0, 1⟩,  -- KEEP_SPOOL_WR_LO
    ⟨0x50264, 4, 1, 0, 0, 0, 0, 0, 0, 2⟩,  -- KEEP_SPOOL_WR_HI
    ⟨0x50268, 4, 1, 0, 0, 0, 0, 0, 0, 1⟩,  -- KEEP_SPOOL_FWD_LO
    ⟨0x5026C, 4, 1, 0, 0, 0, 0, 0, 0, 2⟩,  -- KEEP_SPOOL_FWD_HI
    ⟨0x50270, 4, 1, 0, 0, 0, 0, 0xFFFFFFFF, 0, 0⟩,  -- KEEP_SPOOL_LOST_CNT
    ⟨0x50274, 4, 1, 0, 0xFF, 0, 0, 0, 0xC5, 0⟩,  -- KEEP_CUST_CTRL (R353)
    ⟨0x20000, 4, 8, 0, 0, 0xFFFFFFFF, 0, 0, 0, 0⟩,  -- KEEP_EV_PEND_i
    ⟨0x20020, 4, 8, 0xFFFFFFFF, 0, 0, 0, 0, 0, 0⟩,  -- KEEP_EV_ALERT_i
    ⟨0x20040, 4, 8, 0xFFFFFFFF, 0, 0, 0, 0, 0xFFFFFFFF, 0⟩,  -- KEEP_EV_LOG_i
    ⟨0x20060, 4, 1, 0xFF, 0, 0, 0, 0, 0, 0⟩,  -- KEEP_EV_SEL
    ⟨0x20064, 4, 1, 0, 0, 0, 0, 0xFFFFFFFF, 0, 3⟩,  -- KEEP_EV_OCC
    ⟨0x20070, 4, 1, 0, 0, 0, 0, 0, 0, 0⟩,  -- KEEP_EV_Q_STATUS
    ⟨0x20080, 4, 4, 0, 0, 0, 0, 0, 0, 0⟩,  -- KEEP_EV_HEAD_k
    ⟨0x20090, 4, 1, 0, 0, 0, 1, 0, 0, 0⟩,  -- KEEP_EV_POP
    ⟨0x60000, 4, 0x40, 0xFFFFFFFF, 0, 0, 0, 0, 0, 0⟩,  -- KEEP_LOG_DATA_i
    ⟨0x60100, 4, 1, 0, 0, 0, 0x80000000, 0, 0, 0⟩,  -- KEEP_LOG_CMD
    ⟨0x60104, 4, 1, 0, 0, 0x20000000, 0, 0, 0, 0⟩,  -- KEEP_LOG_STATUS
    ⟨0x60108, 4, 1, 0, 0, 0, 0, 0, 0, 0⟩,  -- KEEP_LOG_NEXT_SEQ
    ⟨0x60110, 4, 1, 0, 0, 0, 0, 0xFFFFFFFF, 0, 0⟩,  -- KEEP_LOG_SUPP_CNT
    ⟨0x60114, 4, 1, 0, 0, 0, 0, 0xFFFFFFFF, 0, 0⟩,  -- KEEP_LOG_BAD_CNT
    ⟨0x60200, 4, 1, 0x1FFF, 0, 0, 0, 0, 0, 0⟩,  -- KEEP_LOG_RD_SEL
    ⟨0x60400, 4, 0x40, 0, 0, 0, 0, 0, 0, 0⟩,  -- KEEP_LOG_RD_i
    ⟨0x200A0, 4, 1, 0, 0xFF, 0, 0, 0, 0x6E, 0⟩,  -- KEEP_THERM_CTRL
    ⟨0x200A4, 4, 1, 0, 0, 0, 0, 0, 0, 0⟩  -- KEEP_THERM_STATUS
  ]

/-- Register rows of D2 Lantern. -/
def lantRows : List RegRow :=
  [ 
    ⟨0x10000, 4, 1, 0, 0, 0, 0, 0, 0, 1⟩,  -- LANT_SF_LO
    ⟨0x10004, 4, 1, 0, 0, 0, 0, 0, 0, 2⟩,  -- LANT_SF_HI
    ⟨0x10010, 4, 1, 0, 0, 0, 0x800000FF, 0, 0, 0⟩,  -- LANT_PLAN_CMD
    ⟨0x10014, 4, 1, 0, 0, 0, 0, 0, 0, 0⟩,  -- LANT_PLAN_STATUS
    ⟨0x10020, 4, 1, 0, 0x3F3F3FF3, 0, 0, 0, 0x4000682, 0⟩,  -- LANT_BEACON_CTRL
    ⟨0x10024, 4, 1, 0xFFFFFFFF, 0, 0, 0, 0, 0, 0⟩,  -- LANT_OPEN_L
    ⟨0x10028, 4, 1, 0xFFFFFFFF, 0, 0, 0, 0, 0, 0⟩,  -- LANT_OPEN_M
    ⟨0x1002C, 4, 1, 0xFFFFFFFF, 0, 0, 0, 0, 0, 0⟩,  -- LANT_OPEN_H
    ⟨0x10030, 4, 1, 0xFF00, 0xFFFF0000, 0, 0, 0, 0, 0⟩,  -- LANT_NET
    ⟨0x10040, 4, 1, 0, 0, 0, 0, 0xFFFFFFFF, 0, 0⟩,  -- LANT_CONFLICT_CNT
    ⟨0x10044, 4, 1, 0, 0, 0, 0, 0xFFFFFFFF, 0, 0⟩,  -- LANT_COMMIT_LATE_CNT
    ⟨0x10048, 4, 1, 0, 0, 0, 0, 0xFFFFFFFF, 0, 0⟩,  -- LANT_MAC_DROP_CNT
    ⟨0x10050, 4, 1, 0, 0, 0, 0, 0, 0, 0⟩,  -- LANT_PROFILE
    ⟨0x10054, 4, 1, 0, 0, 0, 0xC0000F3F, 0, 0, 0⟩,  -- LANT_PROFILE_CMD
    ⟨0x30000, 4, 1, 0x3F, 0, 0, 0, 0, 0, 0⟩,  -- LANT_DC_SEL
    ⟨0x30004, 4, 1, 0, 0, 0, 0, 0, 0, 0⟩,  -- LANT_DC_DATA_USED
    ⟨0x30008, 4, 1, 0, 0, 0, 0, 0, 0, 0⟩,  -- LANT_DC_BCN_USED
    ⟨0x3000C, 4, 1, 0, 0, 0, 0, 0, 0, 0⟩,  -- LANT_DC_DATA_SHARE
    ⟨0x30010, 4, 1, 0, 0, 0, 0, 0, 0, 0⟩,  -- LANT_DC_BCN_RESERVE
    ⟨0x30020, 4, 1, 0, 0, 0, 0, 0xFFFFFFFF, 0, 0⟩,  -- LANT_DC_HELD_CNT
    ⟨0x30024, 4, 1, 0, 0, 0, 0, 0xFFFFFFFF, 0, 0⟩,  -- LANT_BCN_SKIP_CNT
    ⟨0x40010, 4, 1, 0, 0, 0, 0, 0xFFFFFFFF, 0, 0⟩,  -- LANT_REORDER_DUP_CNT
    ⟨0x40014, 4, 1, 0, 0, 0, 0, 0xFFFFFFFF, 0, 0⟩,  -- LANT_REORDER_SKIP_CNT
    ⟨0x40040, 4, 1, 0, 0xFFFF1FFF, 0, 0, 0, 0x1E140040, 0⟩,  -- LANT_SLEEPY_CTRL
    ⟨0x40044, 4, 1, 0, 0xFFFFFFFF, 0, 0, 0, 0x40008080, 0⟩,  -- LANT_GUARD_MAX
    ⟨0x40048, 4, 1, 0, 0x8FFF00FF, 0, 0, 0, 0x80000044, 0⟩,  -- LANT_BELL_CTRL
    ⟨0x4004C, 4, 1, 0, 0xC0000000, 0, 0, 0, 0, 0⟩,  -- LANT_RELAY_CTRL
    ⟨0x40050, 4, 1, 0, 0xFFFFFFFF, 0, 0, 0, 0xFFFFFFFF, 0⟩,  -- LANT_PARENT_A
    ⟨0x40054, 4, 1, 0, 0xFFFFFFFF, 0, 0, 0, 0xFFFFFFFF, 0⟩,  -- LANT_PARENT_B
    ⟨0x40058, 4, 1, 0, 0, 0, 0, 0, 0, 0⟩,  -- LANT_RELAY_STATUS
    ⟨0x40060, 4, 1, 0, 0, 0, 0, 0xFFFFFFFF, 0, 0⟩,  -- LANT_MISS_CNT
    ⟨0x40064, 4, 1, 0, 0, 0, 0, 0xFFFFFFFF, 0, 0⟩,  -- LANT_ADRIFT_CNT
    ⟨0x40068, 4, 1, 0, 0, 0, 0, 0xFFFFFFFF, 0, 0⟩,  -- LANT_LEASE_REL_CNT
    ⟨0x4006C, 4, 1, 0, 0, 0, 0, 0xFFFFFFFF, 0, 0⟩,  -- LANT_FOREIGN_CNT
    ⟨0x40070, 4, 1, 0, 0, 0, 0, 0xFFFFFFFF, 0, 0⟩,  -- LANT_BELL_TX_CNT
    ⟨0x40074, 4, 1, 0, 0, 0, 0, 0xFFFFFFFF, 0, 0⟩,  -- LANT_BELL_SKIP_CNT
    ⟨0x40078, 4, 1, 0, 0, 0, 0, 0xFFFFFFFF, 0, 0⟩,  -- LANT_PARENT_MISS_CNT
    ⟨0x40080, 4, 1, 0x1FFF, 0, 0, 0, 0, 0, 0⟩,  -- LANT_CTX_SEL
    ⟨0x40084, 4, 1, 0, 0, 0, 0, 0, 0, 0⟩,  -- LANT_CTX_SLEEPY0
    ⟨0x40088, 4, 1, 0, 0, 0, 0, 0, 0, 0⟩  -- LANT_CTX_SLEEPY1
  ] ++
  [ 
    ⟨0x40090, 4, 1, 0x1FFF, 0, 0, 0, 0, 0, 0⟩,  -- LANT_LINK_SEL
    ⟨0x40094, 4, 1, 0xFFFF0003, 0, 0, 0, 0, 0, 0⟩,  -- LANT_LINK_TX
    ⟨0x20000, 4, 1, 0, 0, 0, 0, 0, 0, 1⟩,  -- LANT_LAMP_LO
    ⟨0x20004, 4, 1, 0, 0, 0, 0, 0, 0, 2⟩,  -- LANT_LAMP_HI
    ⟨0x20008, 4, 1, 0, 0, 0, 0, 0, 0, 0⟩,  -- LANT_RATE
    ⟨0x2000C, 4, 1, 0, 0, 0, 0, 0, 0, 0⟩,  -- LANT_FREQ
    ⟨0x20010, 4, 1, 0, 0xFFFFF8FF, 0, 0, 0, 0xA052025, 0⟩,  -- LANT_TIME_CTRL
    ⟨0x20014, 4, 1, 0, 0, 0, 0, 0, 0, 0⟩,  -- LANT_TIME_STATUS
    ⟨0x20020, 0x20, 2, 0, 0xF000FFFF, 0, 0, 0, 0xBB8, 0⟩,  -- LANT_DOM_CFG_d
    ⟨0x20024, 0x20, 2, 0, 0xFFFFFFFF, 0, 0, 0, 0x3E80064, 0⟩,  -- LANT_DOM_THRESH_d
    ⟨0x20028, 0x20, 2, 0, 0xFFFFFFFF, 0, 0, 0, 0, 0⟩,  -- LANT_DOM_DELAY_d
    ⟨0x2002C, 0x20, 2, 0, 0, 0, 0, 0, 0, 0⟩,  -- LANT_DOM_STAT_d
    ⟨0x20030, 0x20, 2, 0, 0, 0, 0, 0, 0, 0⟩,  -- LANT_DOM_OFFSET_d
    ⟨0x20034, 0x20, 2, 0, 0, 0, 0xFFFFFFFF, 0, 0, 0⟩,  -- LANT_DOM_FEED_LO_d
    ⟨0x20038, 0x20, 2, 0, 0, 0, 0xFFFFFFFF, 0, 0, 0⟩,  -- LANT_DOM_FEED_HI_d
    ⟨0x2003C, 0x20, 2, 0, 0, 0, 0, 0xFFFFFFFF, 0, 0⟩,  -- LANT_DOM_OUTLIER_CNT_d
    ⟨0x10058, 4, 1, 0, 0, 0, 0, 0, 0, 0⟩,  -- LANT_TX_GATES
    ⟨0x30030, 4, 1, 0, 0x7F, 0, 0, 0, 0x32, 0⟩,  -- LANT_DC_START
    ⟨0x50000, 4, 1, 0, 0, 0, 0, 0, 0, 0⟩,  -- LANT_RING_STATUS
    ⟨0x50004, 4, 1, 0, 0, 0, 0, 0xFFFFFFFF, 0, 0⟩,  -- LANT_RING_DROP_CNT
    ⟨0x50008, 4, 1, 0, 0, 0, 0, 0xFFFFFFFF, 0, 0⟩  -- LANT_RING_WRITE_CNT
  ]

/-- Register rows of D3 to D5, the registers every radio has. -/
def radRows : List RegRow :=
  [ 
    ⟨0x10000, 4, 1, 0, 0, 0, 0, 0, 0, 0⟩,  -- RADx_STATE
    ⟨0x10008, 4, 1, 0, 0xFFFFFF1F, 0, 0, 0, 0x8100808, 0⟩,  -- RADx_TIMING
    ⟨0x1000C, 4, 1, 0, 0x707, 0, 0, 0, 0x101, 0⟩,  -- RADx_RETURN
    ⟨0x10010, 4, 1, 0, 0x1FF0, 0, 0, 0, 0xA40, 0⟩,  -- RADx_CAL_CTRL
    ⟨0x10014, 4, 1, 0, 0, 0, 0x8000000F, 0, 0, 0⟩,  -- RADx_CAL_CMD
    ⟨0x10018, 4, 1, 0, 0, 0, 0, 0, 0, 0⟩,  -- RADx_TEMP
    ⟨0x10020, 4, 1, 0, 0, 0, 0, 0xFFFF, 0, 0⟩,  -- RADx_LATE_LOCK_CNT
    ⟨0x10024, 4, 1, 0, 0, 0, 0, 0xFFFF, 0, 0⟩,  -- RADx_WIN_LOST_CNT
    ⟨0x10028, 4, 1, 0, 0, 0, 0, 0xFFFF, 0, 0⟩,  -- RADx_LOCK_LOSS_CNT
    ⟨0x10040, 4, 0x10, 0, 0, 0, 0, 0, 0, 0⟩,  -- RADx_GROUP_CAL_g
    ⟨0x10080, 4, 1, 0, 0xE3FFFFFF, 0, 0, 0, 0xE00000D8, 0⟩,  -- RADx_PWR_CTRL
    ⟨0x10084, 4, 1, 0, 0, 0, 0, 0, 0, 0⟩,  -- RADx_PWR_LIMIT
    ⟨0x10088, 4, 1, 0, 0xFFFFFFFF, 0, 0, 0, 0, 0⟩,  -- RADx_EXT_GAIN
    ⟨0x10090, 4, 1, 0, 0, 0, 0, 0, 0, 0⟩,  -- RADx_PWR_OFFSET
    ⟨0x20000, 4, 8, 0, 0x80FFFFFF, 0, 0, 0, 0, 0⟩,  -- RADx_SEQ_TXON_i
    ⟨0x20020, 4, 8, 0, 0x80FFFFFF, 0, 0, 0, 0, 0⟩,  -- RADx_SEQ_TXOFF_i
    ⟨0x20040, 4, 8, 0, 0x80FFFFFF, 0, 0, 0, 0, 0⟩,  -- RADx_SEQ_RXON_i
    ⟨0x20060, 4, 8, 0, 0x80FFFFFF, 0, 0, 0, 0, 0⟩,  -- RADx_SEQ_RXOFF_i
    ⟨0x20080, 4, 1, 0, 0xFF, 0, 0, 0, 0, 0⟩,  -- RADx_PIN_POL
    ⟨0x20084, 4, 1, 0, 0, 0, 0, 0, 0, 0⟩,  -- RADx_PIN_STATE
    ⟨0x60000, 4, 1, 0, 0x1F, 0, 0, 0, 0x1F, 0⟩,  -- RADx_BGCAL_CTRL
    ⟨0x60004, 4, 1, 0, 0, 0, 0, 0, 0, 0⟩,  -- RADx_BGCAL_STATUS
    ⟨0x60008, 4, 1, 0, 0, 0, 0, 0xFFFF, 0, 0⟩,  -- RADx_BGCAL_ABORT_CNT
    ⟨0x60010, 4, 1, 0, 3, 0, 0, 0, 1, 0⟩,  -- RADx_DPD_CTRL
    ⟨0x60040, 4, 0xC, 0, 0, 0, 0, 0, 0x40000000, 0⟩,  -- RADx_DPD_COEF_j
    ⟨0x30000, 4, 1, 0, 0xFF1F00, 0, 0, 0, 0x400800, 0⟩,  -- RADx_RX_CTRL
    ⟨0x30004, 4, 1, 0, 0xFF0, 0, 0, 0, 0x360, 0⟩,  -- RADx_EQ_CTRL
    ⟨0x30008, 4, 1, 0, 0x8000FFFF, 0, 0, 0, 0x8000E2D8, 0⟩,  -- RADx_AGC_CTRL
    ⟨0x30010, 4, 1, 0, 0, 0, 0, 0, 0, 0⟩,  -- RADx_RX_LAST
    ⟨0x30014, 4, 1, 0, 0, 0, 0, 0, 0, 0⟩,  -- RADx_RX_QUAL
    ⟨0x30020, 4, 1, 0, 0, 0, 0, 0xFFFFFFFF, 0, 0⟩,  -- RADx_RX_PD_CNT
    ⟨0x30024, 4, 1, 0, 0, 0, 0, 0xFFFFFFFF, 0, 0⟩,  -- RADx_RX_OK_CNT
    ⟨0x30028, 4, 1, 0, 0, 0, 0, 0xFFFFFFFF, 0, 0⟩,  -- RADx_SYNC_MISS_CNT
    ⟨0x3002C, 4, 1, 0, 0, 0, 0, 0xFFFFFFFF, 0, 0⟩,  -- RADx_HDR_CRC_CNT
    ⟨0x30030, 4, 1, 0, 0, 0, 0, 0xFFFFFFFF, 0, 0⟩,  -- RADx_HDR_INV_CNT
    ⟨0x30034, 4, 1, 0, 0, 0, 0, 0xFFFFFFFF, 0, 0⟩,  -- RADx_RELOCK_CNT
    ⟨0x30038, 4, 1, 0, 0, 0, 0, 0xFFFFFFFF, 0, 0⟩,  -- RADx_CAPTURE_CNT
    ⟨0x3003C, 4, 1, 0, 0, 0, 0, 0xFFFFFFFF, 0, 0⟩,  -- RADx_CAPTURE_ABORT_CNT
    ⟨0x30040, 4, 1, 0, 0, 0, 0, 0xFFFFFFFF, 0, 0⟩,  -- RADx_DECODE_FAIL_CNT
    ⟨0x30044, 4, 1, 0, 0, 0, 0, 0xFFFFFFFF, 0, 0⟩  -- RADx_TRUNC_CNT
  ] ++
  [ 
    ⟨0x40000, 4, 1, 0, 0x1F03, 0, 0, 0, 0x1402, 0⟩,  -- RADx_LDPC_CTRL
    ⟨0x40004, 4, 1, 0, 0, 0, 0, 0, 0, 0⟩,  -- RADx_LDPC_STAT
    ⟨0x40010, 4, 1, 0, 0, 0, 0, 0xFFFFFFFF, 0, 0⟩,  -- RADx_CW_CNT
    ⟨0x40014, 4, 1, 0, 0, 0, 0, 0xFFFFFFFF, 0, 0⟩,  -- RADx_ITER_CNT
    ⟨0x40018, 4, 1, 0, 0, 0, 0, 0xFFFFFFFF, 0, 0⟩,  -- RADx_CW_FAIL_CNT
    ⟨0x4001C, 4, 1, 0, 0, 0, 0, 0xFFFFFFFF, 0, 0⟩,  -- RADx_FORCED_STOP_CNT
    ⟨0x300C0, 4, 1, 0, 0xFFFFFFFF, 0, 0, 0, 0, 0⟩  -- RADx_FE_LAT
  ]

/-- Register rows of D4 only, the 802.15.4 path. -/
def radmRows : List RegRow :=
  [ 
    ⟨0x30080, 4, 1, 0, 0xC000001F, 0, 0, 0, 0xB, 0⟩,  -- RADM_154_CTRL
    ⟨0x30084, 4, 1, 0, 0, 0, 0, 0xFFFFFFFF, 0, 0⟩,  -- RADM_154_RX_CNT
    ⟨0x30088, 4, 1, 0, 0, 0, 0, 0xFFFFFFFF, 0, 0⟩  -- RADM_154_DROP_CNT
  ]

/-- Register rows of D6 Packet. -/
def pktRows : List RegRow :=
  [ 
    ⟨0x10000, 4, 1, 0, 0xFFFF8000, 0, 0, 0, 0x12B58000, 0⟩,  -- PKT_PARSE_CTRL
    ⟨0x10010, 4, 1, 0, 0, 0, 0, 0xFFFFFFFF, 0, 0⟩,  -- PKT_PARSE_OK_CNT
    ⟨0x10014, 4, 1, 0, 0, 0, 0, 0xFFFFFFFF, 0, 0⟩,  -- PKT_PARSE_INC_CNT
    ⟨0x10040, 4, 9, 0, 0, 0, 0, 0xFFFFFFFF, 0, 0⟩,  -- PKT_PARSE_FAIL_CNT_r
    ⟨0x10080, 4, 1, 0, 0, 0, 0, 0, 0, 0⟩,  -- PKT_PARSE_LAST
    ⟨0x20000, 4, 0x10, 0xFFFFFFFF, 0, 0, 0, 0, 0, 0⟩,  -- PKT_TBL_DATA_i
    ⟨0x20040, 4, 1, 0, 0, 0, 0xF0007FFF, 0, 0, 0⟩,  -- PKT_TBL_CMD
    ⟨0x20044, 4, 1, 0, 0, 0x40000000, 0, 0, 0, 0⟩,  -- PKT_TBL_STATUS
    ⟨0x20050, 4, 4, 0, 0xFFFFFFFF, 0, 0, 0, 0xFFFFFFFF, 0⟩,  -- PKT_TBL_SEED_t
    ⟨0x20060, 4, 4, 0, 0, 0, 0, 0, 0, 0⟩,  -- PKT_TBL_OCC_t
    ⟨0x20070, 4, 1, 0, 0, 0, 0, 0xFFFFFFFF, 0, 3⟩,  -- PKT_LEARN_POP
    ⟨0x20074, 4, 1, 0, 0, 0, 0, 0, 0, 0⟩,  -- PKT_LEARN_POP_MAC
    ⟨0x20078, 4, 1, 0, 0, 0, 0, 0xFFFFFFFF, 0, 0⟩,  -- PKT_LEARN_LOST_CNT
    ⟨0x2007C, 4, 1, 0, 0, 0, 0, 0, 0, 0⟩,  -- PKT_LEARN_POP_BD
    ⟨0x20080, 4, 1, 0, 0, 0, 0, 0, 0, 0⟩,  -- PKT_LEARN_POP_LINK
    ⟨0x30000, 4, 0xC, 0, 0xFC000FFF, 0, 0, 0, 1, 0⟩,  -- PKT_PORT_CFG_p
    ⟨0x30040, 8, 0xC, 0, 0xFFFFFFFF, 0, 0, 0, 0, 0⟩,  -- PKT_PORT_MAC_LO
    ⟨0x30044, 8, 0xC, 0, 0xFFFF, 0, 0, 0, 0, 0⟩,  -- PKT_PORT_MAC_HI
    ⟨0x30100, 8, 0xC, 0xFFFFFFFF, 0, 0, 0, 0, 0, 0⟩,  -- PKT_DEF_PEND_LO
    ⟨0x30104, 8, 0xC, 0xFFFFFFFF, 0, 0, 0, 0, 0x20000000, 0⟩,  -- PKT_DEF_PEND_HI
    ⟨0x30180, 8, 0xC, 0, 0, 0, 0, 0, 0, 1⟩,  -- PKT_DEF_ACT_LO
    ⟨0x30184, 8, 0xC, 0, 0, 0, 0, 0, 0x20000000, 2⟩,  -- PKT_DEF_ACT_HI
    ⟨0x30200, 4, 1, 0, 0, 0, 0x80000000, 0, 0, 0⟩,  -- PKT_GEN_CMD
    ⟨0x30204, 4, 1, 0, 0, 0x4000, 0, 0, 0, 0⟩,  -- PKT_GEN_STATUS
    ⟨0x30208, 4, 1, 0, 0x707, 0, 0, 0, 0x607, 0⟩,  -- PKT_COPY_CFG
    ⟨0x30210, 4, 1, 0, 0, 0, 0, 0xFFFFFFFF, 0, 0⟩,  -- PKT_GEN_DROP_CNT
    ⟨0x30214, 4, 1, 0, 0, 0, 0, 0xFFFFFFFF, 0, 0⟩,  -- PKT_RECIRC_CNT
    ⟨0x30218, 4, 1, 0, 0, 0, 0, 0xFFFFFFFF, 0, 0⟩,  -- PKT_COPY_LOST_CNT
    ⟨0x30240, 4, 8, 0, 0, 0, 0, 0xFFFFFFFF, 0, 0⟩,  -- PKT_DROP_CNT_r
    ⟨0x40000, 4, 0x48, 0, 0xFFFF0000, 0, 0, 0, 0x1000000, 0⟩,  -- PKT_Q_CFG_i
    ⟨0x40200, 4, 6, 0, 0xFFFF00FF, 0, 0, 0, 0x200020, 0⟩,  -- PKT_LQ_CFG_j
    ⟨0x40300, 4, 1, 0, 0xFFFF, 0, 0, 0, 0x9000, 0⟩,  -- PKT_BUF_CTRL
    ⟨0x40304, 4, 1, 0, 0, 0, 0, 0, 0, 0⟩,  -- PKT_BUF_STAT
    ⟨0x40310, 4, 1, 0xFFFF, 0, 0, 0, 0, 0, 0⟩,  -- PKT_Q_SEL
    ⟨0x40314, 4, 1, 0, 0, 0, 0, 0, 0, 0⟩,  -- PKT_Q_DEPTH
    ⟨0x40318, 4, 1, 0, 0, 0, 0, 0, 0, 0⟩,  -- PKT_Q_CREDIT
    ⟨0x40340, 4, 6, 0, 0, 0, 0, 0xFFFFFFFF, 0, 0⟩,  -- PKT_QDROP_CNT_r
    ⟨0x50000, 8, 0x48, 0, 0x80007FFF, 0, 0, 0, 0, 0⟩,  -- PKT_SHP_CFG_LO
    ⟨0x50004, 8, 0x48, 0, 0xFFFFFF, 0, 0, 0, 0x3010, 0⟩,  -- PKT_SHP_CFG_HI
    ⟨0x50300, 8, 6, 0, 0x80007FFF, 0, 0, 0, 0, 0⟩  -- PKT_LQ_SHP_LO
  ] ++
  [ 
    ⟨0x50304, 8, 6, 0, 0xFFFFFF, 0, 0, 0, 0x3010, 0⟩,  -- PKT_LQ_SHP_HI
    ⟨0x50400, 4, 6, 0x81FF01FF, 0, 0, 0x40000000, 0, 0, 0⟩,  -- PKT_GATE_CTRL_e
    ⟨0x50420, 4, 1, 0xFFF, 0, 0, 0, 0, 0, 0⟩,  -- PKT_GATE_ADDR
    ⟨0x50424, 4, 1, 0xFFFFFFFF, 0, 0, 0, 0, 0, 0⟩,  -- PKT_GATE_DATA
    ⟨0x50440, 4, 6, 0, 0, 0, 0, 0, 0, 0⟩,  -- PKT_GATE_STAT_e
    ⟨0x60000, 4, 1, 0xFFF, 0, 0, 0, 0, 0, 0⟩,  -- PKT_MTR_SEL
    ⟨0x60004, 4, 1, 0xFFFFFF, 0, 0, 0, 0, 0, 0⟩,  -- PKT_MTR_RATE_C
    ⟨0x60008, 4, 1, 0xFFFFFF, 0, 0, 0, 0, 0, 0⟩,  -- PKT_MTR_RATE_P
    ⟨0x6000C, 4, 1, 0xFFFFFF, 0, 0, 0, 0, 0, 0⟩,  -- PKT_MTR_CBS
    ⟨0x60010, 4, 1, 0xFFFFFF, 0, 0, 0, 0, 0, 0⟩,  -- PKT_MTR_PBS
    ⟨0x60014, 4, 1, 0, 0, 0, 0xC000000B, 0, 0, 0⟩,  -- PKT_MTR_CMD
    ⟨0x60020, 4, 1, 0, 0, 0, 0, 0xFFFFFFFF, 0, 0⟩,  -- PKT_MTR_GREEN_CNT
    ⟨0x60024, 4, 1, 0, 0, 0, 0, 0xFFFFFFFF, 0, 0⟩,  -- PKT_MTR_YELLOW_CNT
    ⟨0x60028, 4, 1, 0, 0, 0, 0, 0xFFFFFFFF, 0, 0⟩  -- PKT_MTR_RED_CNT
  ]

/-- Register rows of D7 Cipher. -/
def ciphRows : List RegRow :=
  [ 
    ⟨0x10000, 4, 1, 0, 0x3F00, 0, 0, 0, 0x1C00, 0⟩,  -- CIPH_CTRL
    ⟨0x10004, 4, 1, 0, 0, 0, 0, 0, 0, 0⟩,  -- CIPH_JOB_STAT
    ⟨0x20000, 4, 1, 0x3FFF, 0, 0, 0, 0, 0, 0⟩,  -- CIPH_KS_SEL
    ⟨0x20004, 4, 1, 0, 0, 0, 0, 0, 0, 0⟩,  -- CIPH_KS_INFO
    ⟨0x20008, 4, 1, 0, 0, 0, 0, 0, 0, 1⟩,  -- CIPH_KS_USAGE_LO
    ⟨0x2000C, 4, 1, 0, 0, 0, 0, 0, 0, 2⟩,  -- CIPH_KS_USAGE_HI
    ⟨0x20010, 4, 1, 0, 0, 0, 0xDFFFFFFF, 0, 0, 0⟩,  -- CIPH_KDF_CMD
    ⟨0x20014, 4, 1, 0, 0, 0, 0, 0, 0, 0⟩,  -- CIPH_KDF_STATUS
    ⟨0x30000, 4, 1, 0x11FFF, 0, 0, 0, 0, 0, 0⟩,  -- CIPH_RW_SEL
    ⟨0x30004, 4, 1, 0, 0, 0, 0, 0, 0, 0⟩,  -- CIPH_RW_HIGH
    ⟨0x30008, 4, 1, 0, 0, 0, 0, 0, 0, 1⟩,  -- CIPH_RW_MAP_LO
    ⟨0x3000C, 4, 1, 0, 0, 0, 0, 0, 0, 2⟩,  -- CIPH_RW_MAP_HI
    ⟨0x30010, 4, 1, 0, 0, 0, 0, 0, 0, 0⟩,  -- CIPH_TX_CTR
    ⟨0x30024, 4, 6, 0, 0, 0, 0, 0xFFFFFFFF, 0, 0⟩,  -- CIPH_RES_CNT_c, c = 1 to 6
    ⟨0x30040, 4, 1, 0, 0, 0, 0, 0xFFFFFFFF, 0, 0⟩,  -- CIPH_DEFER_CNT
    ⟨0x30044, 4, 1, 0, 0, 0, 0, 0xFFFFFFFF, 0, 0⟩  -- CIPH_SEAL_NOKEY_CNT
  ]

/-- Register rows of D8 Memory. -/
def memRows : List RegRow :=
  [ 
    ⟨0x10000, 0x10000, 2, 0, 0xFF, 0, 0, 0, 0x80, 0⟩,  -- MEM_CH_CTRL_c
    ⟨0x10004, 0x10000, 2, 0, 0, 0, 0, 0, 0, 0⟩,  -- MEM_CH_STATUS_c
    ⟨0x10010, 0x10000, 2, 0, 0, 0, 0, 0xFFFFFFFF, 0, 0⟩,  -- MEM_CH_INORDER_CNT_c
    ⟨0x10014, 0x10000, 2, 0, 0, 0, 0, 0xFFFFFFFF, 0, 0⟩,  -- MEM_CH_ROWHIT_CNT_c
    ⟨0x10018, 0x10000, 2, 0, 0, 0, 0, 0xFFFFFFFF, 0, 0⟩,  -- MEM_CH_ROWMISS_CNT_c
    ⟨0x30000, 4, 1, 0, 0x3F, 0, 0, 0, 0x10, 0⟩,  -- MEM_TRAIN_CTRL
    ⟨0x30004, 4, 1, 0, 0, 0, 0, 0, 0, 0⟩,  -- MEM_TRAIN_STATUS
    ⟨0x30010, 4, 8, 0, 0, 0, 0, 0, 0, 0⟩,  -- MEM_TRAIN_LANE_i
    ⟨0x40000, 4, 1, 0, 0x3FFF, 0, 0, 0, 0x40, 0⟩,  -- MEM_SR_CTRL
    ⟨0x40004, 4, 1, 0, 0, 0, 0, 0, 0, 0⟩,  -- MEM_SR_STATUS
    ⟨0x40008, 4, 1, 0, 0, 0, 0, 0xFFFFFFFF, 0, 0⟩  -- MEM_SR_ENTRY_CNT
  ]

/-- Register rows of D9 Lanes. -/
def laneRows : List RegRow :=
  [ 
    ⟨0x10000, 4, 1, 0, 0xC700FFFF, 0, 0, 0, 0x400000A, 0⟩,  -- LANE_RNG_CTRL
    ⟨0x10004, 4, 1, 0, 0, 0, 0x80000000, 0, 0, 0⟩,  -- LANE_RNG_CMD
    ⟨0x10008, 4, 1, 0, 0, 0, 0, 0, 0, 0⟩,  -- LANE_RNG_STATUS
    ⟨0x10010, 4, 1, 0, 0, 0, 0, 0xFFFFFFFF, 0, 0⟩,  -- LANE_RNG_CRC_CNT
    ⟨0x10014, 4, 1, 0, 0, 0, 0, 0xFFFFFFFF, 0, 0⟩,  -- LANE_RNG_RETRAIN_CNT
    ⟨0x80000, 0x10000, 8, 0, 0x670F3F1F, 0, 0, 0, 0x3008, 0⟩,  -- LANE_CFG
    ⟨0x80004, 0x10000, 8, 0, 0, 0, 0, 0, 0, 0⟩,  -- LANE_TAPS_NOW
    ⟨0x80008, 0x10000, 8, 0xFC000000, 0, 0, 0, 0, 0, 0⟩,  -- LANE_TEST
    ⟨0x8000C, 0x10000, 8, 0, 0, 0, 0, 0, 0, 0⟩,  -- LANE_STATUS
    ⟨0x80010, 0x10000, 8, 0, 0, 0, 0, 0xFFFFFFFF, 0, 0⟩,  -- LANE_PRBS_ERR_CNT
    ⟨0x80014, 0x10000, 8, 0, 0, 0, 0, 0, 0, 1⟩,  -- LANE_PRBS_BITS_LO
    ⟨0x80018, 0x10000, 8, 0, 0, 0, 0, 0, 0, 2⟩,  -- LANE_PRBS_BITS_HI
    ⟨0x100000, 0x10000, 6, 0, 0xC0003FFF, 0, 0, 0, 0x233E, 0⟩,  -- LANE_ETH_CFG
    ⟨0x100004, 0x10000, 6, 0, 0, 0, 0, 0, 0, 0⟩,  -- LANE_ETH_STATUS
    ⟨0x100010, 0x10000, 6, 0, 0, 0, 0, 0xFFFFFFFF, 0, 0⟩,  -- LANE_ETH_RX_OK_CNT
    ⟨0x100014, 0x10000, 6, 0, 0, 0, 0, 0xFFFFFFFF, 0, 0⟩,  -- LANE_ETH_RX_FCS_CNT
    ⟨0x100018, 0x10000, 6, 0, 0, 0, 0, 0xFFFFFFFF, 0, 0⟩,  -- LANE_ETH_RX_OVERSIZE_CNT
    ⟨0x10001C, 0x10000, 6, 0, 0, 0, 0, 0xFFFFFFFF, 0, 0⟩,  -- LANE_ETH_RX_RUNT_CNT
    ⟨0x100020, 0x10000, 6, 0, 0, 0, 0, 0xFFFFFFFF, 0, 0⟩,  -- LANE_ETH_RX_MACCTL_CNT
    ⟨0x100024, 0x10000, 6, 0, 0, 0, 0, 0xFFFFFFFF, 0, 0⟩,  -- LANE_ETH_TX_OK_CNT
    ⟨0x100028, 0x10000, 6, 0, 0, 0, 0, 0xFFFFFFFF, 0, 0⟩,  -- LANE_ETH_LINK_DOWN_CNT
    ⟨0x20000, 4, 7, 0, 0xFFFFFFFF, 0, 0, 0, 0, 0⟩,  -- LANE_TS_ADJ_e
    ⟨0x20020, 4, 1, 0, 0, 0, 0, 0xFFFFFFFF, 0, 3⟩,  -- LANE_TS_POP
    ⟨0x20024, 4, 1, 0, 0, 0, 0, 0, 0, 1⟩,  -- LANE_TS_LO
    ⟨0x20028, 4, 1, 0, 0, 0, 0, 0, 0, 2⟩,  -- LANE_TS_HI
    ⟨0x2002C, 4, 1, 0, 0, 0, 0, 0xFFFFFFFF, 0, 0⟩,  -- LANE_TS_LOST_CNT
    ⟨0x10018, 4, 1, 0, 0, 0, 0, 0xFFFFFFFF, 0, 0⟩  -- LANE_RNG_RETX_CNT
  ]

/-! ## Addresses -/

namespace Reg

/-- Address of DOM_ID. -/
def DOM_ID (d : Nat) : Nat := domBase d + 0
/-- Address of DOM_STATE. -/
def DOM_STATE (d : Nat) : Nat := domBase d + 4
/-- Address of DOM_SNAP. -/
def DOM_SNAP (d : Nat) : Nat := domBase d + 8
/-- Address of DOM_CHAR_LO. -/
def DOM_CHAR_LO (d : Nat) : Nat := domBase d + 0x10
/-- Address of DOM_CHAR_HI. -/
def DOM_CHAR_HI (d : Nat) : Nat := domBase d + 0x14
/-- Address of RADx_STATE. -/
def RAD_STATE (b : Band) : Nat := radBase b + 0x10000
/-- Address of RADx_TIMING. -/
def RAD_TIMING (b : Band) : Nat := radBase b + 0x10008
/-- Address of RADx_RETURN. -/
def RAD_RETURN (b : Band) : Nat := radBase b + 0x1000C
/-- Address of RADx_CAL_CTRL. -/
def RAD_CAL_CTRL (b : Band) : Nat := radBase b + 0x10010
/-- Address of RADx_CAL_CMD. -/
def RAD_CAL_CMD (b : Band) : Nat := radBase b + 0x10014
/-- Address of RADx_TEMP. -/
def RAD_TEMP (b : Band) : Nat := radBase b + 0x10018
/-- Address of RADx_LATE_LOCK_CNT. -/
def RAD_LATE_LOCK_CNT (b : Band) : Nat := radBase b + 0x10020
/-- Address of RADx_WIN_LOST_CNT. -/
def RAD_WIN_LOST_CNT (b : Band) : Nat := radBase b + 0x10024
/-- Address of RADx_LOCK_LOSS_CNT. -/
def RAD_LOCK_LOSS_CNT (b : Band) : Nat := radBase b + 0x10028
/-- Address of RADx_GROUP_CAL_g. -/
def RAD_GROUP_CAL (b : Band) (i : Nat) : Nat := radBase b + 0x10040 + 4 * i
/-- Address of RADx_PWR_CTRL. -/
def RAD_PWR_CTRL (b : Band) : Nat := radBase b + 0x10080
/-- Address of RADx_PWR_LIMIT. -/
def RAD_PWR_LIMIT (b : Band) : Nat := radBase b + 0x10084
/-- Address of RADx_EXT_GAIN. -/
def RAD_EXT_GAIN (b : Band) : Nat := radBase b + 0x10088
/-- Address of RADx_PWR_OFFSET. -/
def RAD_PWR_OFFSET (b : Band) : Nat := radBase b + 0x10090
/-- Address of RADx_SEQ_TXON_i. -/
def RAD_SEQ_TXON (b : Band) (i : Nat) : Nat := radBase b + 0x20000 + 4 * i
/-- Address of RADx_SEQ_TXOFF_i. -/
def RAD_SEQ_TXOFF (b : Band) (i : Nat) : Nat := radBase b + 0x20020 + 4 * i
/-- Address of RADx_SEQ_RXON_i. -/
def RAD_SEQ_RXON (b : Band) (i : Nat) : Nat := radBase b + 0x20040 + 4 * i
/-- Address of RADx_SEQ_RXOFF_i. -/
def RAD_SEQ_RXOFF (b : Band) (i : Nat) : Nat := radBase b + 0x20060 + 4 * i
/-- Address of RADx_PIN_POL. -/
def RAD_PIN_POL (b : Band) : Nat := radBase b + 0x20080
/-- Address of RADx_PIN_STATE. -/
def RAD_PIN_STATE (b : Band) : Nat := radBase b + 0x20084
/-- Address of RADx_BGCAL_CTRL. -/
def RAD_BGCAL_CTRL (b : Band) : Nat := radBase b + 0x60000
/-- Address of RADx_BGCAL_STATUS. -/
def RAD_BGCAL_STATUS (b : Band) : Nat := radBase b + 0x60004
/-- Address of RADx_BGCAL_ABORT_CNT. -/
def RAD_BGCAL_ABORT_CNT (b : Band) : Nat := radBase b + 0x60008
/-- Address of RADx_DPD_CTRL. -/
def RAD_DPD_CTRL (b : Band) : Nat := radBase b + 0x60010
/-- Address of RADx_DPD_COEF_j. -/
def RAD_DPD_COEF (b : Band) (i : Nat) : Nat := radBase b + 0x60040 + 4 * i
/-- Address of RADx_RX_CTRL. -/
def RAD_RX_CTRL (b : Band) : Nat := radBase b + 0x30000
/-- Address of RADx_EQ_CTRL. -/
def RAD_EQ_CTRL (b : Band) : Nat := radBase b + 0x30004
/-- Address of RADx_AGC_CTRL. -/
def RAD_AGC_CTRL (b : Band) : Nat := radBase b + 0x30008
/-- Address of RADx_RX_LAST. -/
def RAD_RX_LAST (b : Band) : Nat := radBase b + 0x30010
/-- Address of RADx_RX_QUAL. -/
def RAD_RX_QUAL (b : Band) : Nat := radBase b + 0x30014
/-- Address of RADx_RX_PD_CNT. -/
def RAD_RX_PD_CNT (b : Band) : Nat := radBase b + 0x30020
/-- Address of RADx_RX_OK_CNT. -/
def RAD_RX_OK_CNT (b : Band) : Nat := radBase b + 0x30024
/-- Address of RADx_SYNC_MISS_CNT. -/
def RAD_SYNC_MISS_CNT (b : Band) : Nat := radBase b + 0x30028
/-- Address of RADx_HDR_CRC_CNT. -/
def RAD_HDR_CRC_CNT (b : Band) : Nat := radBase b + 0x3002C
/-- Address of RADx_HDR_INV_CNT. -/
def RAD_HDR_INV_CNT (b : Band) : Nat := radBase b + 0x30030
/-- Address of RADx_RELOCK_CNT. -/
def RAD_RELOCK_CNT (b : Band) : Nat := radBase b + 0x30034
/-- Address of RADx_CAPTURE_CNT. -/
def RAD_CAPTURE_CNT (b : Band) : Nat := radBase b + 0x30038
/-- Address of RADx_CAPTURE_ABORT_CNT. -/
def RAD_CAPTURE_ABORT_CNT (b : Band) : Nat := radBase b + 0x3003C
/-- Address of RADx_DECODE_FAIL_CNT. -/
def RAD_DECODE_FAIL_CNT (b : Band) : Nat := radBase b + 0x30040
/-- Address of RADx_TRUNC_CNT. -/
def RAD_TRUNC_CNT (b : Band) : Nat := radBase b + 0x30044
/-- Address of RADM_154_CTRL. -/
def RADM_F154_CTRL : Nat := 0x14030080
/-- Address of RADM_154_RX_CNT. -/
def RADM_F154_RX_CNT : Nat := 0x14030084
/-- Address of RADM_154_DROP_CNT. -/
def RADM_F154_DROP_CNT : Nat := 0x14030088
/-- Address of RADx_LDPC_CTRL. -/
def RAD_LDPC_CTRL (b : Band) : Nat := radBase b + 0x40000
/-- Address of RADx_LDPC_STAT. -/
def RAD_LDPC_STAT (b : Band) : Nat := radBase b + 0x40004
/-- Address of RADx_CW_CNT. -/
def RAD_CW_CNT (b : Band) : Nat := radBase b + 0x40010
/-- Address of RADx_ITER_CNT. -/
def RAD_ITER_CNT (b : Band) : Nat := radBase b + 0x40014
/-- Address of RADx_CW_FAIL_CNT. -/
def RAD_CW_FAIL_CNT (b : Band) : Nat := radBase b + 0x40018
/-- Address of RADx_FORCED_STOP_CNT. -/
def RAD_FORCED_STOP_CNT (b : Band) : Nat := radBase b + 0x4001C
/-- Address of LANT_SF_LO. -/
def LANT_SF_LO : Nat := 0x12010000
/-- Address of LANT_SF_HI. -/
def LANT_SF_HI : Nat := 0x12010004
/-- Address of LANT_PLAN_CMD. -/
def LANT_PLAN_CMD : Nat := 0x12010010
/-- Address of LANT_PLAN_STATUS. -/
def LANT_PLAN_STATUS : Nat := 0x12010014
/-- Address of LANT_BEACON_CTRL. -/
def LANT_BEACON_CTRL : Nat := 0x12010020
/-- Address of LANT_OPEN_L. -/
def LANT_OPEN_L : Nat := 0x12010024
/-- Address of LANT_OPEN_M. -/
def LANT_OPEN_M : Nat := 0x12010028
/-- Address of LANT_OPEN_H. -/
def LANT_OPEN_H : Nat := 0x1201002C
/-- Address of LANT_NET. -/
def LANT_NET : Nat := 0x12010030
/-- Address of LANT_CONFLICT_CNT. -/
def LANT_CONFLICT_CNT : Nat := 0x12010040
/-- Address of LANT_COMMIT_LATE_CNT. -/
def LANT_COMMIT_LATE_CNT : Nat := 0x12010044
/-- Address of LANT_MAC_DROP_CNT. -/
def LANT_MAC_DROP_CNT : Nat := 0x12010048
/-- Address of LANT_PROFILE. -/
def LANT_PROFILE : Nat := 0x12010050
/-- Address of LANT_PROFILE_CMD. -/
def LANT_PROFILE_CMD : Nat := 0x12010054
/-- Address of LANT_DC_SEL. -/
def LANT_DC_SEL : Nat := 0x12030000
/-- Address of LANT_DC_DATA_USED. -/
def LANT_DC_DATA_USED : Nat := 0x12030004
/-- Address of LANT_DC_BCN_USED. -/
def LANT_DC_BCN_USED : Nat := 0x12030008
/-- Address of LANT_DC_DATA_SHARE. -/
def LANT_DC_DATA_SHARE : Nat := 0x1203000C
/-- Address of LANT_DC_BCN_RESERVE. -/
def LANT_DC_BCN_RESERVE : Nat := 0x12030010
/-- Address of LANT_DC_HELD_CNT. -/
def LANT_DC_HELD_CNT : Nat := 0x12030020
/-- Address of LANT_BCN_SKIP_CNT. -/
def LANT_BCN_SKIP_CNT : Nat := 0x12030024
/-- Address of LANT_REORDER_DUP_CNT. -/
def LANT_REORDER_DUP_CNT : Nat := 0x12040010
/-- Address of LANT_REORDER_SKIP_CNT. -/
def LANT_REORDER_SKIP_CNT : Nat := 0x12040014
/-- Address of LANT_SLEEPY_CTRL. -/
def LANT_SLEEPY_CTRL : Nat := 0x12040040
/-- Address of LANT_GUARD_MAX. -/
def LANT_GUARD_MAX : Nat := 0x12040044
/-- Address of LANT_BELL_CTRL. -/
def LANT_BELL_CTRL : Nat := 0x12040048
/-- Address of LANT_RELAY_CTRL. -/
def LANT_RELAY_CTRL : Nat := 0x1204004C
/-- Address of LANT_PARENT_A. -/
def LANT_PARENT_A : Nat := 0x12040050
/-- Address of LANT_PARENT_B. -/
def LANT_PARENT_B : Nat := 0x12040054
/-- Address of LANT_RELAY_STATUS. -/
def LANT_RELAY_STATUS : Nat := 0x12040058
/-- Address of LANT_MISS_CNT. -/
def LANT_MISS_CNT : Nat := 0x12040060
/-- Address of LANT_ADRIFT_CNT. -/
def LANT_ADRIFT_CNT : Nat := 0x12040064
/-- Address of LANT_LEASE_REL_CNT. -/
def LANT_LEASE_REL_CNT : Nat := 0x12040068
/-- Address of LANT_FOREIGN_CNT. -/
def LANT_FOREIGN_CNT : Nat := 0x1204006C
/-- Address of LANT_BELL_TX_CNT. -/
def LANT_BELL_TX_CNT : Nat := 0x12040070
/-- Address of LANT_BELL_SKIP_CNT. -/
def LANT_BELL_SKIP_CNT : Nat := 0x12040074
/-- Address of LANT_PARENT_MISS_CNT. -/
def LANT_PARENT_MISS_CNT : Nat := 0x12040078
/-- Address of LANT_CTX_SEL. -/
def LANT_CTX_SEL : Nat := 0x12040080
/-- Address of LANT_CTX_SLEEPY0. -/
def LANT_CTX_SLEEPY0 : Nat := 0x12040084
/-- Address of LANT_CTX_SLEEPY1. -/
def LANT_CTX_SLEEPY1 : Nat := 0x12040088
/-- Address of LANT_LINK_SEL. -/
def LANT_LINK_SEL : Nat := 0x12040090
/-- Address of LANT_LINK_TX. -/
def LANT_LINK_TX : Nat := 0x12040094
/-- Address of MOOR_BELL_CTRL. -/
def MOOR_BELL_CTRL : Nat := 0x10040000
/-- Address of MOOR_BELL_CODE_i. -/
def MOOR_BELL_CODE (i : Nat) : Nat := 0x10040010 + 4 * i
/-- Address of MOOR_BELL_LAST. -/
def MOOR_BELL_LAST : Nat := 0x10040030
/-- Address of MOOR_BELL_MATCH_CNT. -/
def MOOR_BELL_MATCH_CNT : Nat := 0x10040034
/-- Address of CIPH_CTRL. -/
def CIPH_CTRL : Nat := 0x17010000
/-- Address of CIPH_JOB_STAT. -/
def CIPH_JOB_STAT : Nat := 0x17010004
/-- Address of CIPH_KS_SEL. -/
def CIPH_KS_SEL : Nat := 0x17020000
/-- Address of CIPH_KS_INFO. -/
def CIPH_KS_INFO : Nat := 0x17020004
/-- Address of CIPH_KS_USAGE_LO. -/
def CIPH_KS_USAGE_LO : Nat := 0x17020008
/-- Address of CIPH_KS_USAGE_HI. -/
def CIPH_KS_USAGE_HI : Nat := 0x1702000C
/-- Address of CIPH_KDF_CMD. -/
def CIPH_KDF_CMD : Nat := 0x17020010
/-- Address of CIPH_KDF_STATUS. -/
def CIPH_KDF_STATUS : Nat := 0x17020014
/-- Address of CIPH_RW_SEL. -/
def CIPH_RW_SEL : Nat := 0x17030000
/-- Address of CIPH_RW_HIGH. -/
def CIPH_RW_HIGH : Nat := 0x17030004
/-- Address of CIPH_RW_MAP_LO. -/
def CIPH_RW_MAP_LO : Nat := 0x17030008
/-- Address of CIPH_RW_MAP_HI. -/
def CIPH_RW_MAP_HI : Nat := 0x1703000C
/-- Address of CIPH_TX_CTR. -/
def CIPH_TX_CTR : Nat := 0x17030010
/-- Address of CIPH_RES_CNT_c, c = 1 to 6. -/
def CIPH_RES_CNT (i : Nat) : Nat := 0x17030020 + 4 * i
/-- Address of CIPH_DEFER_CNT. -/
def CIPH_DEFER_CNT : Nat := 0x17030040
/-- Address of CIPH_SEAL_NOKEY_CNT. -/
def CIPH_SEAL_NOKEY_CNT : Nat := 0x17030044
/-- Address of PKT_PARSE_CTRL. -/
def PKT_PARSE_CTRL : Nat := 0x16010000
/-- Address of PKT_PARSE_OK_CNT. -/
def PKT_PARSE_OK_CNT : Nat := 0x16010010
/-- Address of PKT_PARSE_INC_CNT. -/
def PKT_PARSE_INC_CNT : Nat := 0x16010014
/-- Address of PKT_PARSE_FAIL_CNT_r. -/
def PKT_PARSE_FAIL_CNT (i : Nat) : Nat := 0x16010040 + 4 * i
/-- Address of PKT_PARSE_LAST. -/
def PKT_PARSE_LAST : Nat := 0x16010080
/-- Address of PKT_TBL_DATA_i. -/
def PKT_TBL_DATA (i : Nat) : Nat := 0x16020000 + 4 * i
/-- Address of PKT_TBL_CMD. -/
def PKT_TBL_CMD : Nat := 0x16020040
/-- Address of PKT_TBL_STATUS. -/
def PKT_TBL_STATUS : Nat := 0x16020044
/-- Address of PKT_TBL_SEED_t. -/
def PKT_TBL_SEED (i : Nat) : Nat := 0x16020050 + 4 * i
/-- Address of PKT_TBL_OCC_t. -/
def PKT_TBL_OCC (i : Nat) : Nat := 0x16020060 + 4 * i
/-- Address of PKT_LEARN_POP. -/
def PKT_LEARN_POP : Nat := 0x16020070
/-- Address of PKT_LEARN_POP_MAC. -/
def PKT_LEARN_POP_MAC : Nat := 0x16020074
/-- Address of PKT_LEARN_LOST_CNT. -/
def PKT_LEARN_LOST_CNT : Nat := 0x16020078
/-- Address of PKT_LEARN_POP_BD. -/
def PKT_LEARN_POP_BD : Nat := 0x1602007C
/-- Address of PKT_LEARN_POP_LINK. -/
def PKT_LEARN_POP_LINK : Nat := 0x16020080
/-- Address of PKT_PORT_CFG_p. -/
def PKT_PORT_CFG (i : Nat) : Nat := 0x16030000 + 4 * i
/-- Address of PKT_PORT_MAC_LO. -/
def PKT_PORT_MAC_LO (i : Nat) : Nat := 0x16030040 + 8 * i
/-- Address of PKT_PORT_MAC_HI. -/
def PKT_PORT_MAC_HI (i : Nat) : Nat := 0x16030044 + 8 * i
/-- Address of PKT_DEF_PEND_LO. -/
def PKT_DEF_PEND_LO (i : Nat) : Nat := 0x16030100 + 8 * i
/-- Address of PKT_DEF_PEND_HI. -/
def PKT_DEF_PEND_HI (i : Nat) : Nat := 0x16030104 + 8 * i
/-- Address of PKT_DEF_ACT_LO. -/
def PKT_DEF_ACT_LO (i : Nat) : Nat := 0x16030180 + 8 * i
/-- Address of PKT_DEF_ACT_HI. -/
def PKT_DEF_ACT_HI (i : Nat) : Nat := 0x16030184 + 8 * i
/-- Address of PKT_GEN_CMD. -/
def PKT_GEN_CMD : Nat := 0x16030200
/-- Address of PKT_GEN_STATUS. -/
def PKT_GEN_STATUS : Nat := 0x16030204
/-- Address of PKT_COPY_CFG. -/
def PKT_COPY_CFG : Nat := 0x16030208
/-- Address of PKT_GEN_DROP_CNT. -/
def PKT_GEN_DROP_CNT : Nat := 0x16030210
/-- Address of PKT_RECIRC_CNT. -/
def PKT_RECIRC_CNT : Nat := 0x16030214
/-- Address of PKT_COPY_LOST_CNT. -/
def PKT_COPY_LOST_CNT : Nat := 0x16030218
/-- Address of PKT_DROP_CNT_r. -/
def PKT_DROP_CNT (i : Nat) : Nat := 0x16030240 + 4 * i
/-- Address of PKT_Q_CFG_i. -/
def PKT_Q_CFG (i : Nat) : Nat := 0x16040000 + 4 * i
/-- Address of PKT_LQ_CFG_j. -/
def PKT_LQ_CFG (i : Nat) : Nat := 0x16040200 + 4 * i
/-- Address of PKT_BUF_CTRL. -/
def PKT_BUF_CTRL : Nat := 0x16040300
/-- Address of PKT_BUF_STAT. -/
def PKT_BUF_STAT : Nat := 0x16040304
/-- Address of PKT_Q_SEL. -/
def PKT_Q_SEL : Nat := 0x16040310
/-- Address of PKT_Q_DEPTH. -/
def PKT_Q_DEPTH : Nat := 0x16040314
/-- Address of PKT_Q_CREDIT. -/
def PKT_Q_CREDIT : Nat := 0x16040318
/-- Address of PKT_QDROP_CNT_r. -/
def PKT_QDROP_CNT (i : Nat) : Nat := 0x16040340 + 4 * i
/-- Address of PKT_SHP_CFG_LO. -/
def PKT_SHP_CFG_LO (i : Nat) : Nat := 0x16050000 + 8 * i
/-- Address of PKT_SHP_CFG_HI. -/
def PKT_SHP_CFG_HI (i : Nat) : Nat := 0x16050004 + 8 * i
/-- Address of PKT_LQ_SHP_LO. -/
def PKT_LQ_SHP_LO (i : Nat) : Nat := 0x16050300 + 8 * i
/-- Address of PKT_LQ_SHP_HI. -/
def PKT_LQ_SHP_HI (i : Nat) : Nat := 0x16050304 + 8 * i
/-- Address of PKT_GATE_CTRL_e. -/
def PKT_GATE_CTRL (i : Nat) : Nat := 0x16050400 + 4 * i
/-- Address of PKT_GATE_ADDR. -/
def PKT_GATE_ADDR : Nat := 0x16050420
/-- Address of PKT_GATE_DATA. -/
def PKT_GATE_DATA : Nat := 0x16050424
/-- Address of PKT_GATE_STAT_e. -/
def PKT_GATE_STAT (i : Nat) : Nat := 0x16050440 + 4 * i
/-- Address of PKT_MTR_SEL. -/
def PKT_MTR_SEL : Nat := 0x16060000
/-- Address of PKT_MTR_RATE_C. -/
def PKT_MTR_RATE_C : Nat := 0x16060004
/-- Address of PKT_MTR_RATE_P. -/
def PKT_MTR_RATE_P : Nat := 0x16060008
/-- Address of PKT_MTR_CBS. -/
def PKT_MTR_CBS : Nat := 0x1606000C
/-- Address of PKT_MTR_PBS. -/
def PKT_MTR_PBS : Nat := 0x16060010
/-- Address of PKT_MTR_CMD. -/
def PKT_MTR_CMD : Nat := 0x16060014
/-- Address of PKT_MTR_GREEN_CNT. -/
def PKT_MTR_GREEN_CNT : Nat := 0x16060020
/-- Address of PKT_MTR_YELLOW_CNT. -/
def PKT_MTR_YELLOW_CNT : Nat := 0x16060024
/-- Address of PKT_MTR_RED_CNT. -/
def PKT_MTR_RED_CNT : Nat := 0x16060028
/-- Address of LANE_RNG_CTRL. -/
def LANE_RNG_CTRL : Nat := 0x19010000
/-- Address of LANE_RNG_CMD. -/
def LANE_RNG_CMD : Nat := 0x19010004
/-- Address of LANE_RNG_STATUS. -/
def LANE_RNG_STATUS : Nat := 0x19010008
/-- Address of LANE_RNG_CRC_CNT. -/
def LANE_RNG_CRC_CNT : Nat := 0x19010010
/-- Address of LANE_RNG_RETRAIN_CNT. -/
def LANE_RNG_RETRAIN_CNT : Nat := 0x19010014
/-- Address of LANE_CFG. -/
def LANE_CFG (i : Nat) : Nat := 0x19080000 + 65536 * i
/-- Address of LANE_TAPS_NOW. -/
def LANE_TAPS_NOW (i : Nat) : Nat := 0x19080004 + 65536 * i
/-- Address of LANE_TEST. -/
def LANE_TEST (i : Nat) : Nat := 0x19080008 + 65536 * i
/-- Address of LANE_STATUS. -/
def LANE_STATUS (i : Nat) : Nat := 0x1908000C + 65536 * i
/-- Address of LANE_PRBS_ERR_CNT. -/
def LANE_PRBS_ERR_CNT (i : Nat) : Nat := 0x19080010 + 65536 * i
/-- Address of LANE_PRBS_BITS_LO. -/
def LANE_PRBS_BITS_LO (i : Nat) : Nat := 0x19080014 + 65536 * i
/-- Address of LANE_PRBS_BITS_HI. -/
def LANE_PRBS_BITS_HI (i : Nat) : Nat := 0x19080018 + 65536 * i
/-- Address of LANE_ETH_CFG. -/
def LANE_ETH_CFG (i : Nat) : Nat := 0x19100000 + 65536 * i
/-- Address of LANE_ETH_STATUS. -/
def LANE_ETH_STATUS (i : Nat) : Nat := 0x19100004 + 65536 * i
/-- Address of LANE_ETH_RX_OK_CNT. -/
def LANE_ETH_RX_OK_CNT (i : Nat) : Nat := 0x19100010 + 65536 * i
/-- Address of LANE_ETH_RX_FCS_CNT. -/
def LANE_ETH_RX_FCS_CNT (i : Nat) : Nat := 0x19100014 + 65536 * i
/-- Address of LANE_ETH_RX_OVERSIZE_CNT. -/
def LANE_ETH_RX_OVERSIZE_CNT (i : Nat) : Nat := 0x19100018 + 65536 * i
/-- Address of LANE_ETH_RX_RUNT_CNT. -/
def LANE_ETH_RX_RUNT_CNT (i : Nat) : Nat := 0x1910001C + 65536 * i
/-- Address of LANE_ETH_RX_MACCTL_CNT. -/
def LANE_ETH_RX_MACCTL_CNT (i : Nat) : Nat := 0x19100020 + 65536 * i
/-- Address of LANE_ETH_TX_OK_CNT. -/
def LANE_ETH_TX_OK_CNT (i : Nat) : Nat := 0x19100024 + 65536 * i
/-- Address of LANE_ETH_LINK_DOWN_CNT. -/
def LANE_ETH_LINK_DOWN_CNT (i : Nat) : Nat := 0x19100028 + 65536 * i
/-- Address of LANT_LAMP_LO. -/
def LANT_LAMP_LO : Nat := 0x12020000
/-- Address of LANT_LAMP_HI. -/
def LANT_LAMP_HI : Nat := 0x12020004
/-- Address of LANT_RATE. -/
def LANT_RATE : Nat := 0x12020008
/-- Address of LANT_FREQ. -/
def LANT_FREQ : Nat := 0x1202000C
/-- Address of LANT_TIME_CTRL. -/
def LANT_TIME_CTRL : Nat := 0x12020010
/-- Address of LANT_TIME_STATUS. -/
def LANT_TIME_STATUS : Nat := 0x12020014
/-- Address of LANT_DOM_CFG_d. -/
def LANT_DOM_CFG (i : Nat) : Nat := 0x12020020 + 32 * i
/-- Address of LANT_DOM_THRESH_d. -/
def LANT_DOM_THRESH (i : Nat) : Nat := 0x12020024 + 32 * i
/-- Address of LANT_DOM_DELAY_d. -/
def LANT_DOM_DELAY (i : Nat) : Nat := 0x12020028 + 32 * i
/-- Address of LANT_DOM_STAT_d. -/
def LANT_DOM_STAT (i : Nat) : Nat := 0x1202002C + 32 * i
/-- Address of LANT_DOM_OFFSET_d. -/
def LANT_DOM_OFFSET (i : Nat) : Nat := 0x12020030 + 32 * i
/-- Address of LANT_DOM_FEED_LO_d. -/
def LANT_DOM_FEED_LO (i : Nat) : Nat := 0x12020034 + 32 * i
/-- Address of LANT_DOM_FEED_HI_d. -/
def LANT_DOM_FEED_HI (i : Nat) : Nat := 0x12020038 + 32 * i
/-- Address of LANT_DOM_OUTLIER_CNT_d. -/
def LANT_DOM_OUTLIER_CNT (i : Nat) : Nat := 0x1202003C + 32 * i
/-- Address of RADx_FE_LAT. -/
def RAD_FE_LAT (b : Band) : Nat := radBase b + 0x300C0
/-- Address of LANE_TS_ADJ_e. -/
def LANE_TS_ADJ (i : Nat) : Nat := 0x19020000 + 4 * i
/-- Address of LANE_TS_POP. -/
def LANE_TS_POP : Nat := 0x19020020
/-- Address of LANE_TS_LO. -/
def LANE_TS_LO : Nat := 0x19020024
/-- Address of LANE_TS_HI. -/
def LANE_TS_HI : Nat := 0x19020028
/-- Address of LANE_TS_LOST_CNT. -/
def LANE_TS_LOST_CNT : Nat := 0x1902002C
/-- Address of DOM_SRAM_CORR_CNT. -/
def DOM_SRAM_CORR_CNT (d : Nat) : Nat := domBase d + 0x20
/-- Address of DOM_SRAM_UNCORR_CNT. -/
def DOM_SRAM_UNCORR_CNT (d : Nat) : Nat := domBase d + 0x24
/-- Address of DOM_SRAM_LAST. -/
def DOM_SRAM_LAST (d : Nat) : Nat := domBase d + 0x28
/-- Address of MEM_CH_CTRL_c. -/
def MEM_CH_CTRL (i : Nat) : Nat := 0x18010000 + 65536 * i
/-- Address of MEM_CH_STATUS_c. -/
def MEM_CH_STATUS (i : Nat) : Nat := 0x18010004 + 65536 * i
/-- Address of MEM_CH_INORDER_CNT_c. -/
def MEM_CH_INORDER_CNT (i : Nat) : Nat := 0x18010010 + 65536 * i
/-- Address of MEM_CH_ROWHIT_CNT_c. -/
def MEM_CH_ROWHIT_CNT (i : Nat) : Nat := 0x18010014 + 65536 * i
/-- Address of MEM_CH_ROWMISS_CNT_c. -/
def MEM_CH_ROWMISS_CNT (i : Nat) : Nat := 0x18010018 + 65536 * i
/-- Address of MEM_TRAIN_CTRL. -/
def MEM_TRAIN_CTRL : Nat := 0x18030000
/-- Address of MEM_TRAIN_STATUS. -/
def MEM_TRAIN_STATUS : Nat := 0x18030004
/-- Address of MEM_TRAIN_LANE_i. -/
def MEM_TRAIN_LANE (i : Nat) : Nat := 0x18030010 + 4 * i
/-- Address of MEM_SR_CTRL. -/
def MEM_SR_CTRL : Nat := 0x18040000
/-- Address of MEM_SR_STATUS. -/
def MEM_SR_STATUS : Nat := 0x18040004
/-- Address of MEM_SR_ENTRY_CNT. -/
def MEM_SR_ENTRY_CNT : Nat := 0x18040008
/-- Address of CVn_CTRL. -/
def CV_CTRL (i : Nat) : Nat := 0x11030000 + 64 * i
/-- Address of CVn_CMD. -/
def CV_CMD (i : Nat) : Nat := 0x11030004 + 64 * i
/-- Address of CVn_POLY_LO. -/
def CV_POLY_LO (i : Nat) : Nat := 0x11030008 + 64 * i
/-- Address of CVn_POLY_HI. -/
def CV_POLY_HI (i : Nat) : Nat := 0x1103000C + 64 * i
/-- Address of CVn_INIT_LO. -/
def CV_INIT_LO (i : Nat) : Nat := 0x11030010 + 64 * i
/-- Address of CVn_INIT_HI. -/
def CV_INIT_HI (i : Nat) : Nat := 0x11030014 + 64 * i
/-- Address of CVn_XOROUT_LO. -/
def CV_XOROUT_LO (i : Nat) : Nat := 0x11030018 + 64 * i
/-- Address of CVn_XOROUT_HI. -/
def CV_XOROUT_HI (i : Nat) : Nat := 0x1103001C + 64 * i
/-- Address of CVn_STATE_LO. -/
def CV_STATE_LO (i : Nat) : Nat := 0x11030020 + 64 * i
/-- Address of CVn_STATE_HI. -/
def CV_STATE_HI (i : Nat) : Nat := 0x11030024 + 64 * i
/-- Address of CVn_RESULT_LO. -/
def CV_RESULT_LO (i : Nat) : Nat := 0x11030028 + 64 * i
/-- Address of CVn_RESULT_HI. -/
def CV_RESULT_HI (i : Nat) : Nat := 0x1103002C + 64 * i
/-- Address of CVn_DATA. -/
def CV_DATA (i : Nat) : Nat := 0x11030030 + 64 * i
/-- Address of KEEP_LL_STATUS. -/
def KEEP_LL_STATUS : Nat := 0x11050100
/-- Address of KEEP_LL_SEQ. -/
def KEEP_LL_SEQ : Nat := 0x11050104
/-- Address of KEEP_LL_EPOCH. -/
def KEEP_LL_EPOCH : Nat := 0x11050108
/-- Address of KEEP_LL_CHAR_LO. -/
def KEEP_LL_CHAR_LO : Nat := 0x11050110
/-- Address of KEEP_LL_CHAR_HI. -/
def KEEP_LL_CHAR_HI : Nat := 0x11050114
/-- Address of KEEP_LL_EXP_LO. -/
def KEEP_LL_EXP_LO : Nat := 0x11050118
/-- Address of KEEP_LL_EXP_HI. -/
def KEEP_LL_EXP_HI : Nat := 0x1105011C
/-- Address of KEEP_LL_DIGEST_CHK. -/
def KEEP_LL_DIGEST_CHK : Nat := 0x11050120
/-- Address of KEEP_LL_AGREE. -/
def KEEP_LL_AGREE : Nat := 0x11050124
/-- Address of KEEP_LL_CMP. -/
def KEEP_LL_CMP : Nat := 0x11050128
/-- Address of KEEP_LL_TWIN_LO. -/
def KEEP_LL_TWIN_LO : Nat := 0x11050130
/-- Address of KEEP_LL_TWIN_HI. -/
def KEEP_LL_TWIN_HI : Nat := 0x11050134
/-- Address of KEEP_LL_PARENT_LO. -/
def KEEP_LL_PARENT_LO : Nat := 0x11050138
/-- Address of KEEP_LL_PARENT_HI. -/
def KEEP_LL_PARENT_HI : Nat := 0x1105013C
/-- Address of KEEP_LL_PEER_LO. -/
def KEEP_LL_PEER_LO (i : Nat) : Nat := 0x11050140 + 8 * i
/-- Address of KEEP_LL_PEER_HI. -/
def KEEP_LL_PEER_HI (i : Nat) : Nat := 0x11050144 + 8 * i
/-- Address of KEEP_LL_RELOAD_CMD. -/
def KEEP_LL_RELOAD_CMD : Nat := 0x11050160
/-- Address of KEEP_LL_RELOAD_DISC_CNT. -/
def KEEP_LL_RELOAD_DISC_CNT : Nat := 0x11050170
/-- Address of KEEP_LL_RELOAD_CNT. -/
def KEEP_LL_RELOAD_CNT : Nat := 0x11050174
/-- Address of MOOR_START. -/
def MOOR_START : Nat := 0x10000040
/-- Address of MOOR_COLD_CNT. -/
def MOOR_COLD_CNT : Nat := 0x10000044
/-- Address of MOOR_WARM_CNT. -/
def MOOR_WARM_CNT : Nat := 0x10000048
/-- Address of LANT_TX_GATES. -/
def LANT_TX_GATES : Nat := 0x12010058
/-- Address of LANT_DC_START. -/
def LANT_DC_START : Nat := 0x12030030
/-- Address of MOOR_TWIN_CTRL. -/
def MOOR_TWIN_CTRL : Nat := 0x10050080
/-- Address of MOOR_TWIN_STATUS. -/
def MOOR_TWIN_STATUS : Nat := 0x10050084
/-- Address of MOOR_TWIN_CMD. -/
def MOOR_TWIN_CMD : Nat := 0x10050088
/-- Address of MOOR_LAMP_CHANGE_CNT. -/
def MOOR_LAMP_CHANGE_CNT : Nat := 0x10050090
/-- Address of MOOR_TWIN_HB_LOSS_CNT. -/
def MOOR_TWIN_HB_LOSS_CNT : Nat := 0x10050094
/-- Address of LANE_RNG_RETX_CNT. -/
def LANE_RNG_RETX_CNT : Nat := 0x19010018
/-- Address of MOOR_RTC_ALARM. -/
def MOOR_RTC_ALARM : Nat := 0x10010000
/-- Address of MOOR_WAKE_EN. -/
def MOOR_WAKE_EN : Nat := 0x10010010
/-- Address of MOOR_WAKE_LATCH. -/
def MOOR_WAKE_LATCH : Nat := 0x10010014
/-- Address of MOOR_WAKE_CNT. -/
def MOOR_WAKE_CNT : Nat := 0x10010018
/-- Address of MOOR_PAD_HOLD. -/
def MOOR_PAD_HOLD : Nat := 0x10020000
/-- Address of MOOR_PAD_RELEASE. -/
def MOOR_PAD_RELEASE : Nat := 0x10020004
/-- Address of MOOR_PWR_CMD. -/
def MOOR_PWR_CMD : Nat := 0x10030000
/-- Address of MOOR_PWR_STATUS. -/
def MOOR_PWR_STATUS : Nat := 0x10030004
/-- Address of MOOR_SEQ_CTRL. -/
def MOOR_SEQ_CTRL : Nat := 0x10030008
/-- Address of MOOR_VIN_THRESH. -/
def MOOR_VIN_THRESH : Nat := 0x1003000C
/-- Address of MOOR_TEMP_THRESH. -/
def MOOR_TEMP_THRESH : Nat := 0x10030010
/-- Address of MOOR_SAMPLE. -/
def MOOR_SAMPLE : Nat := 0x10030014
/-- Address of MOOR_GPIO_CFG_i. -/
def MOOR_GPIO_CFG (i : Nat) : Nat := 0x10060000 + 4 * i
/-- Address of MOOR_GPIO_CTRL. -/
def MOOR_GPIO_CTRL : Nat := 0x10060040
/-- Address of MOOR_GPIO_LEVEL. -/
def MOOR_GPIO_LEVEL : Nat := 0x10060044
/-- Address of MOOR_GPIO_FLAGS. -/
def MOOR_GPIO_FLAGS : Nat := 0x10060048
/-- Address of LANT_RING_STATUS. -/
def LANT_RING_STATUS : Nat := 0x12050000
/-- Address of LANT_RING_DROP_CNT. -/
def LANT_RING_DROP_CNT : Nat := 0x12050004
/-- Address of LANT_RING_WRITE_CNT. -/
def LANT_RING_WRITE_CNT : Nat := 0x12050008
/-- Address of KEEP_GEO_CTRL. -/
def KEEP_GEO_CTRL : Nat := 0x11040100
/-- Address of KEEP_GEO_EN. -/
def KEEP_GEO_EN : Nat := 0x11040104
/-- Address of KEEP_GEO_PROF_LO. -/
def KEEP_GEO_PROF_LO : Nat := 0x11040108
/-- Address of KEEP_GEO_PROF_HI. -/
def KEEP_GEO_PROF_HI : Nat := 0x1104010C
/-- Address of KEEP_GEO_STATUS. -/
def KEEP_GEO_STATUS : Nat := 0x11040110
/-- Address of KEEP_GEO_REG_i. -/
def KEEP_GEO_REG (i : Nat) : Nat := 0x11040140 + 4 * i
/-- Address of KEEP_PTP_CTRL. -/
def KEEP_PTP_CTRL : Nat := 0x11040300
/-- Address of KEEP_PTP_PORT_e. -/
def KEEP_PTP_PORT (i : Nat) : Nat := 0x11040310 + 4 * i
/-- Address of KEEP_MGMT_CTRL. -/
def KEEP_MGMT_CTRL : Nat := 0x11050200
/-- Address of KEEP_MGMT_OK_CNT. -/
def KEEP_MGMT_OK_CNT : Nat := 0x11050210
/-- Address of KEEP_MGMT_AUTH_FAIL_CNT. -/
def KEEP_MGMT_AUTH_FAIL_CNT : Nat := 0x11050214
/-- Address of KEEP_MGMT_REPLAY_CNT. -/
def KEEP_MGMT_REPLAY_CNT : Nat := 0x11050218
/-- Address of KEEP_MGMT_REFUSED_CNT. -/
def KEEP_MGMT_REFUSED_CNT : Nat := 0x1105021C
/-- Address of KEEP_SPOOL_CTRL. -/
def KEEP_SPOOL_CTRL : Nat := 0x11050240
/-- Address of KEEP_PLAN_CTRL. -/
def KEEP_PLAN_CTRL : Nat := 0x11050244
/-- Address of KEEP_SPOOL_COLL_w. -/
def KEEP_SPOOL_COLL (i : Nat) : Nat := 0x11050250 + 4 * i
/-- Address of KEEP_SPOOL_WR_LO. -/
def KEEP_SPOOL_WR_LO : Nat := 0x11050260
/-- Address of KEEP_SPOOL_WR_HI. -/
def KEEP_SPOOL_WR_HI : Nat := 0x11050264
/-- Address of KEEP_SPOOL_FWD_LO. -/
def KEEP_SPOOL_FWD_LO : Nat := 0x11050268
/-- Address of KEEP_SPOOL_FWD_HI. -/
def KEEP_SPOOL_FWD_HI : Nat := 0x1105026C
/-- Address of KEEP_SPOOL_LOST_CNT. -/
def KEEP_SPOOL_LOST_CNT : Nat := 0x11050270
def KEEP_CUST_CTRL : Nat := 0x11050274
/-- Address of MOOR_LADDER_CMD. -/
def MOOR_LADDER_CMD : Nat := 0x10050000
/-- Address of MOOR_LADDER_STATUS. -/
def MOOR_LADDER_STATUS : Nat := 0x10050004
/-- Address of MOOR_WATCH_KICK. -/
def MOOR_WATCH_KICK : Nat := 0x10050010
/-- Address of MOOR_WATCH_STAT. -/
def MOOR_WATCH_STAT : Nat := 0x10050014
/-- Address of MOOR_WATCH_CFG_w. -/
def MOOR_WATCH_CFG (i : Nat) : Nat := 0x10050020 + 4 * i
/-- Address of MOOR_LADDER_STEP_CNT_s. -/
def MOOR_LADDER_STEP_CNT (i : Nat) : Nat := 0x10050060 + 4 * i
/-- Address of MOOR_BROWNOUT_CNT. -/
def MOOR_BROWNOUT_CNT : Nat := 0x10050070
/-- Address of KEEP_EV_PEND_i. -/
def KEEP_EV_PEND (i : Nat) : Nat := 0x11020000 + 4 * i
/-- Address of KEEP_EV_ALERT_i. -/
def KEEP_EV_ALERT (i : Nat) : Nat := 0x11020020 + 4 * i
/-- Address of KEEP_EV_LOG_i. -/
def KEEP_EV_LOG (i : Nat) : Nat := 0x11020040 + 4 * i
/-- Address of KEEP_EV_SEL. -/
def KEEP_EV_SEL : Nat := 0x11020060
/-- Address of KEEP_EV_OCC. -/
def KEEP_EV_OCC : Nat := 0x11020064
/-- Address of KEEP_EV_Q_STATUS. -/
def KEEP_EV_Q_STATUS : Nat := 0x11020070
/-- Address of KEEP_EV_HEAD_k. -/
def KEEP_EV_HEAD (i : Nat) : Nat := 0x11020080 + 4 * i
/-- Address of KEEP_EV_POP. -/
def KEEP_EV_POP : Nat := 0x11020090
/-- Address of KEEP_LOG_DATA_i. -/
def KEEP_LOG_DATA (i : Nat) : Nat := 0x11060000 + 4 * i
/-- Address of KEEP_LOG_CMD. -/
def KEEP_LOG_CMD : Nat := 0x11060100
/-- Address of KEEP_LOG_STATUS. -/
def KEEP_LOG_STATUS : Nat := 0x11060104
/-- Address of KEEP_LOG_NEXT_SEQ. -/
def KEEP_LOG_NEXT_SEQ : Nat := 0x11060108
/-- Address of KEEP_LOG_SUPP_CNT. -/
def KEEP_LOG_SUPP_CNT : Nat := 0x11060110
/-- Address of KEEP_LOG_BAD_CNT. -/
def KEEP_LOG_BAD_CNT : Nat := 0x11060114
/-- Address of KEEP_LOG_RD_SEL. -/
def KEEP_LOG_RD_SEL : Nat := 0x11060200
/-- Address of KEEP_LOG_RD_i. -/
def KEEP_LOG_RD (i : Nat) : Nat := 0x11060400 + 4 * i
/-- Address of MOOR_THERM_TRIP_CNT. -/
def MOOR_THERM_TRIP_CNT : Nat := 0x1000004C
/-- Address of MOOR_VHOLD. -/
def MOOR_VHOLD : Nat := 0x10030018
/-- Address of KEEP_THERM_CTRL. -/
def KEEP_THERM_CTRL : Nat := 0x110200A0
/-- Address of KEEP_THERM_STATUS. -/
def KEEP_THERM_STATUS : Nat := 0x110200A4

end Reg

/-- Rows of domain `n` beyond block 0's common part. -/
def domainRows (n : Nat) : List RegRow :=
  match n with
  | 0 => moorRows
  | 1 => keepRows
  | 2 => lantRows
  | 3 => radRows
  | 4 => radmRows ++ radRows
  | 5 => radRows
  | 6 => pktRows
  | 7 => ciphRows
  | 8 => memRows
  | 9 => laneRows
  | _ => []

/-- The row, if any, that holds domain offset `off`, and the register's index in it. -/
def findRow (rows : List RegRow) (off : Nat) : Option (RegRow × Nat) :=
  match rows with
  | [] => none
  | r :: rest =>
    if r.off ≤ off ∧ (off - r.off) % r.stride = 0 ∧ (off - r.off) / r.stride < r.n then
      some (r, (off - r.off) / r.stride)
    else findRow rest off

/-- The register at a system-bus address of the domain space (R11, R13): its row and index. -/
def regAt (addr : Nat) : Option (RegRow × Nat) :=
  let n := (addr - 0x10000000) / 0x01000000
  let off := (addr - 0x10000000) % 0x01000000
  if addr < 0x10000000 ∨ 9 < n then none
  else match findRow domRows off with
    | some r => some r
    | none => findRow (domainRows n) off

/-- Blocks that Table 1.3 assigns to domain `n` (R13). -/
def blockAssigned (n blk : Nat) : Bool :=
  match n with
  | 0 => blk ≤ 6
  | 1 => blk ≤ 6
  | 2 => blk ≤ 5
  | 3 | 4 | 5 => blk ≤ 7
  | 6 => blk ≤ 6
  | 7 => blk ≤ 3
  | 8 => blk ≤ 4
  | 9 => blk ≤ 2 || (8 ≤ blk && blk ≤ 0x15)
  | _ => false

/-- Reset values that differ from their row's: the sequence steps (Table 2.17, note), Radio L's ramp
(Table 2.14) and the watches of Keeper cores 0 to 3 (Table 17.12). -/
def resetSpecial : List (Nat × Nat) :=
  let radio (b : Band) : List (Nat × Nat) :=
    [ (Reg.RAD_SEQ_TXON b 0, 0x8000E820), (Reg.RAD_SEQ_TXON b 1, 0x80040701),
      (Reg.RAD_SEQ_TXOFF b 0, 0x80000100), (Reg.RAD_SEQ_TXOFF b 1, 0x80042600),
      (Reg.RAD_SEQ_RXON b 0, 0x8000F000), (Reg.RAD_SEQ_RXON b 1, 0x80080808),
      (Reg.RAD_SEQ_RXOFF b 0, 0x80000800) ]
  (Reg.RAD_TIMING .l, 0x08100810) :: (radio .l ++ radio .m ++ radio .h)
    ++ [ (Reg.MOOR_WATCH_CFG 0, 0x8100A064), (Reg.MOOR_WATCH_CFG 1, 0x8100A064),
         (Reg.MOOR_WATCH_CFG 2, 0x8100A064), (Reg.MOOR_WATCH_CFG 3, 0x8100A064) ]

/-- The value register `addr` has after its domain's reset (Table 0.4 note). -/
def resetValue (addr : Nat) : Word :=
  match resetSpecial.find? (fun p => p.1 = addr) with
  | some p => BitVec.ofNat 32 p.2
  | none =>
    match regAt addr with
    | some (r, _) => BitVec.ofNat 32 r.reset
    | none => 0

end Sys2Proof.Machine
end

