-- ==== Sys2Proof/Machine/Ops.lean ====
section
/-! DEFINITION. The named operations over the state: sparse maps, memory, bytes and bits, the clocks, the
register store, counters, domain states, free values, and the raising of an event with its Log request. -/

namespace Sys2Proof.Machine

/-! ## Sparse maps -/

/-- The value a map holds for a key; an unlisted key holds the default. -/
def Tab.get {α : Type} (t : Tab α) (dflt : α) (k : Nat) : α :=
  match t with
  | [] => dflt
  | (k', v) :: r => if k' = k then v else Tab.get r dflt k

/-- The map without an entry for `k`. -/
def Tab.del {α : Type} (t : Tab α) (k : Nat) : Tab α :=
  match t with
  | [] => []
  | (k', v) :: r => if k' = k then r else (k', v) :: Tab.del r k

/-- The map with the entry `(k, v)` in its place. -/
def Tab.put {α : Type} (t : Tab α) (k : Nat) (v : α) : Tab α :=
  match t with
  | [] => [(k, v)]
  | (k', v') :: r =>
    if k < k' then (k, v) :: (k', v') :: r
    else if k' = k then (k, v) :: r
    else (k', v') :: Tab.put r k v

/-- Sets `k` to `v`; an entry equal to the default is not listed. -/
def Tab.set {α : Type} [DecidableEq α] (t : Tab α) (dflt : α) (k : Nat) (v : α) : Tab α :=
  if v = dflt then Tab.del t k else Tab.put t k v

/-- Changes the value of `k` by `f`. -/
def Tab.upd {α : Type} [DecidableEq α] (t : Tab α) (dflt : α) (k : Nat) (f : α → α) : Tab α :=
  Tab.set t dflt k (f (Tab.get t dflt k))

/-- The canonical form: keys strictly rising, no entry equal to the default of its key. -/
def Tab.wfFrom {α : Type} [DecidableEq α] (lo : Nat) (dflt : Nat → α) : Tab α → Bool
  | [] => true
  | (k, v) :: r => decide (lo ≤ k) && decide (v ≠ dflt k) && Tab.wfFrom (k + 1) dflt r

/-- Canonical form with one default for every key. -/
def Tab.wf {α : Type} [DecidableEq α] (dflt : α) (t : Tab α) : Bool := Tab.wfFrom 0 (fun _ => dflt) t

/-- The item of a band. -/
def Tri.get {α : Type} (t : Tri α) : Band → α
  | .l => t.l
  | .m => t.m
  | .h => t.h

/-- Replaces the item of a band. -/
def Tri.set {α : Type} (t : Tri α) (b : Band) (v : α) : Tri α :=
  match b with
  | .l => { t with l := v }
  | .m => { t with m := v }
  | .h => { t with h := v }

/-! ## Numbers, bits and bytes -/

/-- Bits `hi` to `lo` of a word as a number. -/
def fld {n : Nat} (w : BitVec n) (hi lo : Nat) : Nat := (w.toNat >>> lo) % 2 ^ (hi + 1 - lo)

/-- Bit `i` of a word. -/
def bitOf {n : Nat} (w : BitVec n) (i : Nat) : Bool := w.getLsbD i

/-- 1 for true. -/
def b2n (b : Bool) : Nat := if b then 1 else 0

/-- A word built from a number. -/
def w32 (n : Nat) : Word := BitVec.ofNat 32 n

/-- A two's-complement field of `n` bits, as an integer. -/
def sfld {m : Nat} (w : BitVec m) (hi lo : Nat) : Int :=
  (BitVec.ofNat (hi + 1 - lo) (fld w hi lo)).toInt

/-- An integer as an `n`-bit two's-complement number. -/
def ofInt (n : Nat) (x : Int) : Nat := (BitVec.ofInt n x).toNat

/-- `x` limited to the range `lo` to `hi`. -/
def clampInt (lo hi x : Int) : Int := if x < lo then lo else if hi < x then hi else x

/-- Quotient rounded up. -/
def ceilDiv (a b : Nat) : Nat := (a + b - 1) / b

/-- A quotient whose exact value the specification states and whose rounding to the unit it does not:
exact where the division is, and one of the two neighbours where it is not (log 3). -/
def rdiv (num : Int) (den : Nat) : Int :=
  if num % (den : Int) = 0 then num / (den : Int)
  else num / (den : Int) + (if Config.roundsUp num den then 1 else 0)

/-- `n` bytes of a number, most significant first (R4). -/
def beBytes : Nat → Nat → Bytes
  | 0, _ => []
  | n + 1, v => BitVec.ofNat 8 (v >>> (8 * n)) :: beBytes n v

/-- The number that bytes spell, most significant first (R4). -/
def beNat (l : Bytes) : Nat := l.foldl (fun a b => a * 256 + b.toNat) 0

/-- `n` zero bytes. -/
def zeros (n : Nat) : Bytes := List.replicate n 0

/-- Bytes `off` to `off + n − 1`, zero where the string has ended. -/
def slice (l : Bytes) (off n : Nat) : Bytes :=
  let r := (l.drop off).take n
  r ++ zeros (n - r.length)

/-- The field of `n` bytes at `off`. -/
def fieldAt (l : Bytes) (off n : Nat) : Nat := beNat (slice l off n)

/-- A byte string padded with zero bytes, or cut, to `n` bytes. -/
def padTo (n : Nat) (l : Bytes) : Bytes := slice l 0 n

/-- Replaces bytes from `off` on. -/
def splice (l : Bytes) (off : Nat) (v : Bytes) : Bytes := l.take off ++ v ++ l.drop (off + v.length)

/-- Sorted insertion of a number into a rising list without repeats. -/
def insertNat (l : List Nat) (n : Nat) : List Nat :=
  match l with
  | [] => [n]
  | m :: r => if n < m then n :: m :: r else if n = m then m :: r else m :: insertNat r n

/-- The set bits of a mask below `n`, lowest first. -/
def bitsOf {m : Nat} (w : BitVec m) (n : Nat) : List Nat := (List.range n).filter (fun i => bitOf w i)

/-- Sets bit `i` of a mask. -/
def setBit {m : Nat} (w : BitVec m) (i : Nat) : BitVec m := w ||| BitVec.twoPow m i

/-- Clears bit `i` of a mask. -/
def clrBit {m : Nat} (w : BitVec m) (i : Nat) : BitVec m := w &&& ~~~ BitVec.twoPow m i

/-- Puts bit `i` of a mask at a value. -/
def putBit {m : Nat} (w : BitVec m) (i : Nat) (v : Bool) : BitVec m :=
  if v then setBit w i else clrBit w i

/-! ## Memory (R12): bytes of the shared SRAM and of DRAM -/

/-- The byte at a system-bus address; a byte that nothing has written reads 0 (log 11). -/
def readByte (m : List Host.Cell) (a : Nat) : Byte := Tab.get m 0 a

/-- Stores one byte (log 11). -/
def writeByte (m : List Host.Cell) (a : Nat) (v : Byte) : List Host.Cell := Tab.set m 0 a v

/-- Stores bytes at rising addresses (log 64). -/
def writeBytes (m : List Host.Cell) (a : Nat) : Bytes → List Host.Cell
  | [] => m
  | v :: r => writeBytes (writeByte m a v) (a + 1) r

/-- `n` bytes from address `a`. -/
def readBytes (m : List Host.Cell) (a : Nat) : Nat → Bytes
  | 0 => []
  | n + 1 => readByte m a :: readBytes m (a + 1) n

/-- The canonical form of memory (log 11). -/
def Memory.wf (m : List Host.Cell) : Bool := Tab.wf 0 m

/-! ## Units of time -/

/-- One microsecond, one millisecond and one second in half nanoseconds. -/
def usec : Nat := 2000
def msec : Nat := 2000000
def sec : Nat := 2000000000

/-- One superframe, 1,048,576,000 ns (R3), in half nanoseconds. -/
def sfLen : Nat := 2097152000

/-- Units of 1/2520 ns in one half nanosecond and in one microsecond, in which every frame duration is exact. -/
def qPerHn : Nat := 1260
def qPerUs : Nat := 2520000

/-- Units of lamp time in one half nanosecond: 2^23 × 10^18, so that the servo's r is exact (R233). -/
def lampScale : Nat := 8388608 * 1000000000000000000

/-! ## Clocks -/

/-- Lamp time in half nanoseconds (R224). -/
def Device.lampHn (d : Device) : Nat := d.clk.lampFix / lampScale

/-- Lamp time in nanoseconds since the Lantern epoch (R3). -/
def Device.lampNs (d : Device) : Nat := d.lampHn / 2

/-- The superframe that lamp time is in (R81). -/
def Device.lampSf (d : Device) : Nat := d.lampHn / sfLen

/-- RTC in ticks of 32.768 kHz since the Lantern epoch (R227). -/
def Device.rtcTicks (d : Device) : Nat := d.clk.rtcFix / 2000000000

/-- RTC second since the Lantern epoch. -/
def Device.rtcSec (d : Device) : Nat := d.rtcTicks / 32768

/-- RTC in ns, at the resolution of one cycle (R396). -/
def Device.rtcNs (d : Device) : Nat := (rdiv (d.rtcTicks * 1000000000) 32768).toNat

/-- The time an event entry or a Log record takes: lamp time once it runs, before that the RTC (R396). -/
def Device.stampNs (d : Device) : Nat := if d.clk.lampRun then d.lampNs else d.rtcNs

/-- Moves the clocks on by `dt` half nanoseconds: lamp time at the rate 1 + r (R233), the RTC at
32,768 ticks a second. -/
def Device.advance (d : Device) (dt : Nat) : Device :=
  { d with clk :=
      { d.clk with
        now := d.clk.now + dt
        lampFix := if d.clk.lampRun then d.clk.lampFix + (dt * ((lampScale : Int) + d.time.r)).toNat
                   else d.clk.lampFix
        rtcFix := d.clk.rtcFix + dt * 32768 } }

/-- The beginning of every command: nothing is on the interfaces yet, a cycle begins where the instant is a new one (log 5), and
the clocks stand at the command's instant; an instant that lies behind the clock is taken as the clock's (log 1) (log 32). -/
def Device.begin (t : Time) (d : Device) : Device :=
  ({ d with out := [], cycle := if d.clk.now < t then Cycle.empty else d.cycle }).advance (t - d.clk.now)

/-- The device instant at which lamp time will read `lamp` half ns, at the present rate. -/
def Device.devAt (d : Device) (lamp : Nat) : Time :=
  d.clk.now + ceilDiv (lamp * lampScale - d.clk.lampFix) ((lampScale : Int) + d.time.r).toNat

/-- The lamp time, half ns, of a device instant, by the present rate (R224). -/
def Device.lampAt (d : Device) (t : Time) : Nat :=
  if d.clk.now ≤ t then
    (d.clk.lampFix + ((t - d.clk.now) * ((lampScale : Int) + d.time.r)).toNat) / lampScale
  else (d.clk.lampFix - ((d.clk.now - t) * ((lampScale : Int) + d.time.r)).toNat) / lampScale

/-- Puts an item on the interfaces (log 32). -/
def Device.emit (d : Device) (o : Output) : Device := { d with out := d.out ++ [o] }

/-- A fresh free value (log 2) (log 73). -/
def Device.freeVal (d : Device) : Nat := Config.freeNat d.free

/-- The device after one free value has been taken. -/
def Device.freeNext (d : Device) : Device := { d with free := d.free + 1 }

/-! ## Parts of the device -/

def Device.onLant (d : Device) (f : Lantern → Lantern) : Device := { d with lant := f d.lant }
def Device.onTime (d : Device) (f : TimeBlk → TimeBlk) : Device := { d with time := f d.time }
def Device.onCiph (d : Device) (f : Cipher → Cipher) : Device := { d with ciph := f d.ciph }
def Device.onPkt (d : Device) (f : Packet → Packet) : Device := { d with pkt := f d.pkt }
def Device.onLanes (d : Device) (f : Lanes → Lanes) : Device := { d with lanes := f d.lanes }
def Device.onRng (d : Device) (f : Rng → Rng) : Device := d.onLanes fun l => { l with rng := f l.rng }
def Device.onMem (d : Device) (f : Mem → Mem) : Device := { d with mem := f d.mem }
def Device.onLL (d : Device) (f : LightList → LightList) : Device := { d with ll := f d.ll }
def Device.onStart (d : Device) (f : Start → Start) : Device := { d with start := f d.start }
def Device.onTwin (d : Device) (f : Twin → Twin) : Device := { d with twin := f d.twin }
def Device.onPwr (d : Device) (f : Power → Power) : Device := { d with pwr := f d.pwr }
def Device.onKeep (d : Device) (f : Keeper → Keeper) : Device := { d with keep := f d.keep }
def Device.onEv (d : Device) (f : Events → Events) : Device := { d with ev := f d.ev }
def Device.onLog (d : Device) (f : Log → Log) : Device := { d with log := f d.log }
def Device.onTender (d : Device) (f : Tender → Tender) : Device := { d with tender := f d.tender }
def Device.onDbg (d : Device) (f : Debug → Debug) : Device := { d with dbg := f d.dbg }
def Device.onRelay (d : Device) (f : Relay → Relay) : Device := d.onLant fun l => { l with relay := f l.relay }

/-- The radio of a band. -/
def Device.radio (d : Device) (b : Band) : Radio := d.rad.get b

/-- Changes the radio of a band. -/
def Device.onRad (d : Device) (b : Band) (f : Radio → Radio) : Device :=
  { d with rad := d.rad.set b (f (d.rad.get b)) }

/-- The domain record of domain `n`. -/
def Device.dom (d : Device) (n : Nat) : Domain := d.doms.get Domain.reset n

/-- Changes a domain record. -/
def Device.onDom (d : Device) (n : Nat) (f : Domain → Domain) : Device :=
  { d with doms := d.doms.upd Domain.reset n f }

/-- Domain state code (Table 1.6). -/
def Device.domSt (d : Device) (n : Nat) : Nat := (d.dom n).st

/-- The domain is OFF or in RESET (R14, R396). -/
def Device.domDown (d : Device) (n : Nat) : Bool := d.domSt n ≤ 1

/-- A client's hot context. -/
def Device.client (d : Device) (c : Nat) : Client := d.lant.clients.get Client.none_ c

/-- Changes a client's hot context. -/
def Device.onClient (d : Device) (c : Nat) (f : Client → Client) : Device :=
  d.onLant fun l => { l with clients := l.clients.upd Client.none_ c f }

/-- A link by its handle. -/
def Device.linkOf (d : Device) (h : Nat) : Link := d.lant.links.get Link.none_ h

/-- Changes a link. -/
def Device.onLink (d : Device) (h : Nat) (f : Link → Link) : Device :=
  d.onLant fun l => { l with links := l.links.upd Link.none_ h f }

/-- A queue, by its key (port queues 0 to 71, link queues from 72). -/
def Device.queue (d : Device) (q : Nat) : Queue := d.pkt.queues.get Queue.empty q

/-- Changes a queue. -/
def Device.onQueue (d : Device) (q : Nat) (f : Queue → Queue) : Device :=
  d.onPkt fun p => { p with queues := p.queues.upd Queue.empty q f }

/-! ## Registers and counters -/

/-- The stored bits of a register: what was last written or loaded, or its reset value (R6). -/
def Device.cfg (d : Device) (a : Nat) : Word := d.regs.cfg.get (resetValue a) a

/-- Stores a register. -/
def Device.setCfg (d : Device) (a : Nat) (v : Word) : Device :=
  { d with regs := { d.regs with cfg := d.regs.cfg.set (resetValue a) a v } }

/-- A field of a stored register. -/
def Device.cf (d : Device) (a hi lo : Nat) : Nat := fld (d.cfg a) hi lo

/-- A bit of a stored register. -/
def Device.cb (d : Device) (a i : Nat) : Bool := bitOf (d.cfg a) i

/-- Changes what has happened in the present cycle. -/
def Device.onCycle (d : Device) (f : Cycle → Cycle) : Device := { d with cycle := f d.cycle }

/-- Notes an increment of a counter that stood at `was` in the present cycle (R20). -/
def Device.noteInc (d : Device) (a was n : Nat) : Device :=
  let x := d.cycle.incs.get (was, 0) a
  d.onCycle fun c => { c with incs := c.incs.put a (x.1, x.2 + n) }

/-- What a read takes of a counter that stands at `live`, and what it leaves: an increment of the same cycle is not read, and
the counter then holds it (R20). -/
def Device.takeInc (d : Device) (a live : Nat) : Nat × Nat := d.cycle.incs.get (live, 0) a

/-- A counter has been read in this cycle. -/
def Device.incRead (d : Device) (a : Nat) : Device := d.onCycle fun c => { c with incs := c.incs.del a }

/-- Hardware sets W1C bit `i` of the register at `a` in the present cycle (R20). -/
def Device.hwSet (d : Device) (a i : Nat) : Device := d.onCycle fun c => { c with sets := (32 * a + i) :: c.sets }

/-- The bits of a written 1 that clear: those that hardware has not set in this cycle (R20). -/
def Device.w1c (d : Device) (a : Nat) (v : Word) : Word :=
  (bitsOf v 32).foldl (fun w i => if d.cycle.sets.contains (32 * a + i) then clrBit w i else w) v

/-- Adds to a counter, which saturates at `max` (R10). -/
def Device.addCnt (d : Device) (a n max : Nat) : Device :=
  let was := (d.regs.cnt.get ⟨0, 0⟩ a).live
  ({ d with regs := { d.regs with cnt := d.regs.cnt.upd ⟨0, 0⟩ a fun c => { c with live := min max (c.live + n) } } }).noteInc a was n

/-- Takes back one count of the present cycle. -/
def Device.uncount (d : Device) (a : Nat) : Device :=
  let d : Device := { d with regs := { d.regs with cnt := d.regs.cnt.upd ⟨0, 0⟩ a fun c => { c with live := c.live - 1 } } }
  d.onCycle fun c => { c with incs := c.incs.map fun x => if x.1 = a then (x.1, x.2.1, x.2.2 - 1) else x }

/-- Increments a 32-bit counter, saturating at 0xFFFF_FFFF. -/
def Device.inc (d : Device) (a : Nat) : Device := d.addCnt a 1 0xFFFFFFFF

/-- Increments a 16-bit counter, saturating at 0xFFFF. -/
def Device.inc16 (d : Device) (a : Nat) : Device := d.addCnt a 1 0xFFFF

/-- The live value of a counter. -/
def Device.cnt (d : Device) (a : Nat) : Nat := (d.regs.cnt.get ⟨0, 0⟩ a).live

/-! ## The Log unit (R361, R362) -/

/-- Bytes 0 to 251 of a Log record requested now, with seq still 0 (Table 17.2). -/
def Device.logBytes (d : Device) (kind : Nat) (data : Bytes) (holdUp : Bool) : Bytes :=
  beBytes 2 0x4B4C ++ [0x01, BitVec.ofNat 8 kind] ++ zeros 4 ++ beBytes 8 d.stampNs ++ beBytes 2 0x0302
    ++ [0xB1, BitVec.ofNat 8 d.start.stage,
        BitVec.ofNat 8 (128 * b2n (d.clk.lampRun && d.time.gateOpen) + 64 * b2n holdUp)]
    ++ zeros 3 ++ padTo 228 data

/-- Starts the next commit when none is in progress: exempt requests first, then in request order. -/
def Log.pump (l : Log) : Log :=
  match l.cur with
  | some _ => l
  | none =>
    match l.exempt, l.wait with
    | r :: rest, _ => { l with cur := some r, exempt := rest }
    | [], r :: rest => { l with cur := some r, wait := rest }
    | [], [] => l

/-- One counted request: the first 30 of a second are committed as they come, each later one replaces
the held record (R362). -/
def Log.request (l : Log) (r : LogRec) : Log :=
  if l.reqs < 30 then Log.pump { l with reqs := l.reqs + 1, wait := l.wait ++ [r] }
  else { l with reqs := l.reqs + 1, held := some r }

/-- The end of an RTC second, but for EV027 and the count: the held record is committed, and after it a
SUPPRESSED record where the second had more than 31 requests (R362). -/
def Device.logRoll (d : Device) : Device :=
  let l := d.log
  let n := l.reqs - 31
  let supp : List LogRec :=
    if 31 < l.reqs then [⟨d.logBytes 2 (beBytes 4 n ++ beBytes 4 l.sec) false, false⟩] else []
  let d := d.onLog fun l =>
    Log.pump { l with wait := l.wait ++ l.held.toList ++ supp, held := none, reqs := 0, sec := d.rtcSec }
  d.addCnt Reg.KEEP_LOG_SUPP_CNT n 0xFFFFFFFF

/-! ## Events (R354 to R358, R396) -/

/-- The group of an event: EV(24n) to EV(24n + 23) are group n, EV240 to EV255 group 1 (R354). -/
def evGroup (ev : Nat) : Nat := if 240 ≤ ev then 1 else ev / 24

/-- Sets an event's pending bit and counts it (R354). -/
def Device.evMark (d : Device) (ev : Nat) : Device :=
  ((d.onEv fun e => { e with pending := setBit e.pending ev,
                             occ := e.occ.upd 0 ev fun n => min 0xFFFF (n + 1) }).hwSet (Reg.KEEP_EV_PEND (ev / 32)) (ev % 32)).noteInc
    ev (d.ev.occ.get 0 ev) 1

/-- An OVERFLOW entry is held, which is then the last one (R356). -/
def Events.overflowHeld (e : Events) : Bool :=
  match e.queue.getLast? with
  | some x => x.kind = 1
  | none => false

/-- Adds 1 to the count of the last entry, saturating (R356). -/
def bumpLast : List EvEntry → List EvEntry
  | [] => []
  | [x] => [{ x with count := min 0xFFFF (x.count + 1) }]
  | x :: r => x :: bumpLast r

/-- The OVERFLOW entry that stands for `x` and for what is lost after it (R356). -/
def EvEntry.overflow (x : EvEntry) (n : Nat) : EvEntry := { x with kind := 1, count := min 0xFFFF n, detail := 0 }

/-- Pushes one entry under R356. -/
def Device.evPush (d : Device) (x : EvEntry) : Device :=
  if d.ev.overflowHeld then
    (d.onCycle fun c => { c with lost := c.lost ++ [x] }).onEv fun e => { e with queue := bumpLast e.queue }
  else if d.ev.queue.length < 1023 then d.onEv fun e => { e with queue := e.queue ++ [x] }
  else
    let was := bitOf d.ev.pending 24
    ((d.onCycle fun c => { c with lost := [x], formed := true, full := was }).onEv fun e => { e with queue := e.queue ++ [x.overflow 1] }).evMark 24

/-- The head entry leaves the queue (R357). Entries that found no room earlier in this cycle see the room that it leaves (R356). -/
def Device.evDrop (d : Device) : Device :=
  let c := d.cycle
  let rest := d.ev.queue.drop 1
  if c.formed && !c.lost.isEmpty then
    let more := c.lost.drop 1
    let held := rest.dropLast ++ c.lost.take 1
    let d := d.onCycle fun c => { c with lost := more }
    match more with
    | y :: _ => d.onEv fun e => { e with queue := held ++ [y.overflow more.length] }
    | [] => (d.onEv fun e =>
        { e with queue := held, pending := if c.full then e.pending else clrBit e.pending 24, occ := e.occ.upd 0 24 fun n => n - 1 })
  else if rest.isEmpty then
    let d := (d.onCycle fun c => { c with lost := [] }).onEv fun e => { e with queue := [] }
    c.lost.foldl Device.evPush d
  else d.onEv fun e => { e with queue := rest }

/-- The 16 bytes of an entry (Table 17.1). -/
def EvEntry.bytes (x : EvEntry) : Bytes :=
  beBytes 8 x.time ++ beBytes 1 x.event ++ beBytes 1 x.kind ++ beBytes 2 x.count ++ beBytes 4 x.detail.toNat

/-- A counted Log request (R362); the first of a second fixes the second in hand, which ends with
LOG_SECOND_END. -/
def Device.logReq (d : Device) (kind : Nat) (data : Bytes) (fw : Bool) : Device :=
  let r : LogRec := ⟨d.logBytes kind data false, fw⟩
  d.onLog fun l => { l with sec := if l.reqs = 0 then d.rtcSec else l.sec }.request r

/-- An exempt Log request: not counted, committed ahead of every request not yet committed, after at
most the one commit in progress (R362). -/
def Device.logExempt (d : Device) (kind : Nat) (data : Bytes) (holdUp : Bool) : Device :=
  d.onLog fun l => Log.pump { l with exempt := l.exempt ++ [⟨d.logBytes kind data holdUp, false⟩] }

/-- An entry that the fabric forms: pushed, and recorded where its Log mask bit is set (Table 17.3). -/
def Device.evEntry (d : Device) (x : EvEntry) (logIt : Bool) : Device :=
  let d := d.evPush x
  if logIt && d.cb (Reg.KEEP_EV_LOG (x.event / 32)) (x.event % 32) then d.logReq 1 x.bytes false else d

/-- R354 in the fabric, or in the Lantern in Eclipse, where no Log unit runs. -/
def Device.evAccept (d : Device) (ev : Nat) (detail : Word) (logIt : Bool) : Device :=
  if bitOf d.ev.pending ev then d.evMark ev
  else (d.evMark ev).evEntry ⟨d.stampNs, ev, 0, 1, detail⟩ logIt

/-- Raises an event (R354, R358, R396): in the fabric while D1 is neither OFF nor in RESET; in Eclipse by
the Lantern for groups 0, 2 and 3; otherwise in Mooring for group 0, to be queued as DEFERRED; any other
raise is lost. -/
def Device.raise (d : Device) (ev : Nat) (detail : Word) : Device :=
  if !d.domDown 1 then d.evAccept ev detail true
  else if d.pwr.st = 2 && (evGroup ev = 0 || evGroup ev = 2 || evGroup ev = 3) then d.evAccept ev detail false
  else if evGroup ev = 0 then
    (d.evMark ev).onEv fun e => { e with defer := setBit e.defer ev }
  else d

/-- The end of an RTC second at the Log unit (R362) (log 94). -/
def Device.logSecond (d : Device) : Device :=
  let n := d.log.reqs - 31
  let d := d.logRoll
  if 0 < n then d.raise 27 (w32 n) else d

/-- Raises an event that belongs to a radio: Table 0.3 places radio x's events at 72, 96 and 120. -/
def Device.raiseRad (d : Device) (b : Band) (off : Nat) (detail : Word) : Device :=
  d.raise (24 * bandDom b + off) detail

/-! ## Register accesses (R11, R14) -/

/-- Why Keeper refuses an access, as the detail of EV026 (Table 17.10): wrong width or alignment, or a
block of a domain that is OFF or in RESET. A block that Table 1.3 does not assign is not refused (log 95). -/
def Device.refusal (d : Device) (req addr width : Nat) : Option Word :=
  let off := addr - 0x10000000
  let n := off / 0x01000000
  let blk := off / 0x00010000 % 256
  let det := req % 8 * 0x10000000 + off % 0x10000000
  if width ≠ 4 ∨ addr % 4 ≠ 0 then some (w32 det)
  else if blk ≠ 0 && blockAssigned n blk && d.domDown n then some (w32 (0x80000000 + det))
  else none

/-- An access that has the effect `f` unless Keeper refuses it, raising EV026 (R11, R14). -/
def Device.access (d : Device) (req addr width : Nat) (f : Device → Device) : Device :=
  match d.refusal req addr width with
  | some det => d.raise 26 det
  | none => f d

/-- An access of a Keeper core to a register that has a row of its own (log 95). -/
def Device.keeperAccess (d : Device) (addr : Nat) (f : Device → Device) : Device := d.access 0 addr 4 f

/-! ## Meanings -/

/-- The state with the device changed and the queue as it is. -/
def State.onDev (s : State) (f : Device → Device) : State := { s with dev := f s.dev }

/-- A command whose effect is `f`: the clocks move to its instant, then `f` acts, and the queue stays. -/
def State.act (s : State) (t : Time) (f : Device → Device) : Host.Outcome State Fault Refusal :=
  .next (s.onDev fun d => f (d.begin t))

end Sys2Proof.Machine
end

