-- ==== Sys2Proof/Machine/Crypto.lean ====
section
/-! DEFINITION. The algorithms the device computes: check values (R59, R214, R254, R272, chapter 12), and
AES-128, CMAC, CTR and the key derivation of chapter 6. -/

namespace Sys2Proof.Machine

/-! ## Check values -/

/-- One bit through a CRC state of `w` bits (R254, procedure cv_bit). -/
def cvBit (w poly s : Nat) (b : Bool) : Nat :=
  let s' := (s * 2) % 2 ^ w
  if s.testBit (w - 1) != b then s' ^^^ (poly % 2 ^ w) else s'

/-- The bits of a byte in feeding order. -/
def cvBits (refin : Bool) (b : Byte) : List Bool :=
  let l := (List.range 8).map fun i => bitOf b (7 - i)
  if refin then l.reverse else l

/-- Feeds bytes. -/
def cvFeed (w poly : Nat) (refin : Bool) (s : Nat) (data : Bytes) : Nat :=
  data.foldl (fun s b => (cvBits refin b).foldl (cvBit w poly) s) s

/-- `w` bits of a number reversed. -/
def revBits (w n : Nat) : Nat :=
  (List.range w).foldl (fun a i => a * 2 + b2n (n.testBit i)) 0

/-- CRC-32C from an initial value, which loads the state as a check-value unit's init does (R174, R254;
log 21). -/
def crc32cFrom (init : Nat) (data : Bytes) : Nat :=
  revBits 32 (cvFeed 32 0x1EDC6F41 true init data) ^^^ 0xFFFFFFFF

/-- CRC-32C (chapter 12). -/
def crc32c (data : Bytes) : Nat := crc32cFrom 0xFFFFFFFF data

/-- CRC-32, the FCS of IEEE 802.3 (R208, R209), and the four bytes it is appended as (log 100). -/
def crc32 (data : Bytes) : Nat := revBits 32 (cvFeed 32 0x04C11DB7 true 0xFFFFFFFF data) ^^^ 0xFFFFFFFF
def fcsBytes (data : Bytes) : Bytes := (beBytes 4 (crc32 data)).reverse

/-- The CRC-64 of R272, continued from `s`. -/
def crc64 (s : DWord) (data : Bytes) : DWord :=
  BitVec.ofNat 64 (cvFeed 64 0x42F0E1EBA9EA3693 false s.toNat data)

/-- The header check crc8 over bits 31 to 8 (R59). -/
def crc8 (hdr : Word) : Nat :=
  cvFeed 8 0x2F false 0xFF ((beBytes 4 hdr.toNat).take 3) ^^^ 0xFF

/-! ## AES-128 (FIPS 197) -/

/-- The S-box, row by row, byte 0 of a row most significant. -/
def sboxRows : List Nat :=
  [ 0x637C777BF26B6FC53001672BFED7AB76,
    0xCA82C97DFA5947F0ADD4A2AF9CA472C0,
    0xB7FD9326363FF7CC34A5E5F171D83115,
    0x04C723C31896059A071280E2EB27B275,
    0x09832C1A1B6E5AA0523BD6B329E32F84,
    0x53D100ED20FCB15B6ACBBE394A4C58CF,
    0xD0EFAAFB434D338545F9027F503C9FA8,
    0x51A3408F929D38F5BCB6DA2110FFF3D2,
    0xCD0C13EC5F974417C4A77E3D645D1973,
    0x60814FDC222A908846EEB814DE5E0BDB,
    0xE0323A0A4906245CC2D3AC629195E479,
    0xE7C8376D8DD54EA96C56F4EA657AAE08,
    0xBA78252E1CA6B4C6E8DD741F4BBD8B8A,
    0x703EB5664803F60E613557B986C11D9E,
    0xE1F8981169D98E949B1E87E9CE5528DF,
    0x8CA1890DBFE6426841992D0FB054BB16 ]

/-- One S-box lookup. -/
def sbox (x : Nat) : Nat := ((sboxRows[x / 16 % 16]?).getD 0 >>> (8 * (15 - x % 16))) % 256

/-- Multiplication by x in GF(2^8). -/
def xtime (a : Nat) : Nat := if a < 128 then a * 2 else (a * 2 % 256) ^^^ 0x1B

/-- One column of MixColumns. -/
def mixCol (a b c e : Nat) : List Nat :=
  [ xtime a ^^^ xtime b ^^^ b ^^^ c ^^^ e,
    a ^^^ xtime b ^^^ xtime c ^^^ c ^^^ e,
    a ^^^ b ^^^ xtime c ^^^ xtime e ^^^ e,
    xtime a ^^^ a ^^^ b ^^^ c ^^^ xtime e ]

/-- MixColumns over the columns of four bytes. -/
def mixColumns : List Nat → List Nat
  | a :: b :: c :: e :: r => mixCol a b c e ++ mixColumns r
  | _ => []

/-- ShiftRows over the 16 bytes, column by column. -/
def shiftRows (s : List Nat) : List Nat :=
  [0, 5, 10, 15, 4, 9, 14, 3, 8, 13, 2, 7, 12, 1, 6, 11].map fun i => (s[i]?).getD 0

/-- Exclusive or of two byte lists. -/
def xorList (a b : List Nat) : List Nat := List.zipWith (· ^^^ ·) a b

/-- The next round key. -/
def nextKey (rcon : Nat) (k : List Nat) : List Nat :=
  let g (i : Nat) : Nat := (k[i]?).getD 0
  let t := [sbox (g 13) ^^^ rcon, sbox (g 14), sbox (g 15), sbox (g 12)]
  let w0 := xorList (k.take 4) t
  let w1 := xorList ((k.drop 4).take 4) w0
  let w2 := xorList ((k.drop 8).take 4) w1
  let w3 := xorList ((k.drop 12).take 4) w2
  w0 ++ w1 ++ w2 ++ w3

/-- Rounds 1 to 10 with the round constants still to come. -/
def aesRounds (k s : List Nat) : List Nat → List Nat
  | [] => s
  | rc :: rest =>
    let k' := nextKey rc k
    let t := shiftRows (s.map sbox)
    let t := if rest.isEmpty then t else mixColumns t
    aesRounds k' (xorList t k') rest

/-- The bytes of a 128-bit block as numbers. -/
def blockList (x : Block) : List Nat := (beBytes 16 x.toNat).map BitVec.toNat

/-- A block from its bytes. -/
def listBlock (l : List Nat) : Block := BitVec.ofNat 128 (l.foldl (fun a b => a * 256 + b) 0)

/-- AES-128 encryption of one block. The dummy rounds of R164 do not change the result. -/
def aes (key x : Block) : Block :=
  let k := blockList key
  listBlock (aesRounds k (xorList (blockList x) k) [0x01, 0x02, 0x04, 0x08, 0x10, 0x20, 0x40, 0x80, 0x1B, 0x36])

/-! ## CMAC and CTR (SP 800-38B, SP 800-38A) -/

/-- Doubling of a subkey. -/
def cmacDouble (x : Block) : Block := if x.msb then (x <<< 1) ^^^ 0x87 else x <<< 1

/-- A block of up to 16 bytes, padded with zero bytes. -/
def toBlock (l : Bytes) : Block := BitVec.ofNat 128 (beNat (padTo 16 l))

/-- CBC over the message; the last block takes its subkey. `n` bounds the number of blocks. -/
def cmacLoop (key k1 k2 : Block) : Nat → Block → Bytes → Block
  | 0, acc, _ => acc
  | n + 1, acc, m =>
    if m.length ≤ 16 then
      if m.length = 16 then aes key (acc ^^^ toBlock m ^^^ k1)
      else aes key (acc ^^^ toBlock (m ++ [0x80]) ^^^ k2)
    else cmacLoop key k1 k2 n (aes key (acc ^^^ toBlock (m.take 16))) (m.drop 16)

/-- AES-CMAC. -/
def cmac (key : Block) (m : Bytes) : Block :=
  let k1 := cmacDouble (aes key 0)
  cmacLoop key k1 (cmacDouble k1) (m.length / 16 + 1) 0 m

/-- Blocks of a CMAC over `n` bytes, the block operations counted for it (R157). -/
def cmacBlocks (n : Nat) : Nat := max 1 (ceilDiv n 16)

/-- The bytes of a block. -/
def blockBytes (x : Block) : Bytes := beBytes 16 x.toNat

/-- The first 8 bytes of a CMAC, as the tag field carries them (R148). -/
def tag8 (key : Block) (m : Bytes) : Bytes := (blockBytes (cmac key m)).take 8

/-- CTR encryption, which is also decryption: the counter block is `ctr` followed by the 4-byte index
(Table 6.3). `n` bounds the number of blocks. -/
def ctrLoop (key : Block) (ctr : Bytes) : Nat → Nat → Bytes → Bytes
  | 0, _, _ => []
  | n + 1, j, m =>
    let ks := blockBytes (aes key (toBlock (ctr ++ beBytes 4 j)))
    List.zipWith (· ^^^ ·) (m.take 16) ks ++ ctrLoop key ctr n (j + 1) (m.drop 16)

/-- CTR over a whole body. -/
def ctrCrypt (key : Block) (ctr : Bytes) (m : Bytes) : Bytes := ctrLoop key ctr (ceilDiv m.length 16) 0 m

/-- Block i of the derivation of R144. -/
def kdfBlock (root : Block) (i : Nat) (label context : Bytes) (bits : Nat) : Block :=
  cmac root (beBytes 1 i ++ label ++ [0] ++ context ++ beBytes 2 bits)

/-- The labels of R144, R303, R347 and R372 in ASCII. -/
def labelLink : Bytes := [0x4C, 0x49, 0x4E, 0x4B]
def labelJoin : Bytes := [0x4A, 0x4F, 0x49, 0x4E]
def labelTwin : Bytes := [0x54, 0x57, 0x49, 0x4E]
def labelDebug : Bytes := [0x44, 0x45, 0x42, 0x55, 0x47]

/-- Link keys K_mac and K_enc (R144). -/
def linkKeys (root : Block) (serial : DWord) (gateway epoch : Nat) : Block × Block :=
  let ctx := beBytes 8 serial.toNat ++ beBytes 2 gateway ++ beBytes 2 epoch
  (kdfBlock root 1 labelLink ctx 256, kdfBlock root 2 labelLink ctx 256)

/-- The join key (R144). -/
def joinKey (root : Block) (serial : DWord) (gateway : Nat) : Block :=
  kdfBlock root 1 labelJoin (beBytes 8 serial.toNat ++ beBytes 2 gateway) 128

end Sys2Proof.Machine
end

