-- ==== Sys2Proof/Machine/Phy.lean ====
section
/-! DEFINITION. The Sesia PHY (chapter 3): channel classes, rates, durations, the header, and what a frame
is on the air: scrambled, coded, mapped and spread symbols. -/

namespace Sys2Proof.Machine

/-! ## Classes and rates (R52, R56) -/

/-- Units of 1/2520 ns in one chip or symbol of a class (Table 3.1); 0 for a class that is not listed. -/
def symQ (b : Band) (cls : Nat) : Nat :=
  match b, cls with
  | .l, 0 => 8203125
  | .l, 1 => 8203125
  | .l, 2 => 25200000
  | .l, 3 => 25200000
  | .l, 4 => 12600000
  | .l, 5 => 6300000
  | .m, 0 => 144000
  | .m, 1 => 72000
  | .h, 0 => 144000
  | .h, 1 => 72000
  | .h, 2 => 36000
  | .h, 3 => 18000
  | _, _ => 0

/-- Spread factor of a class. -/
def spreadF (b : Band) (cls : Nat) : Nat :=
  match b, cls with
  | .l, 0 => 256
  | .l, 1 => 32
  | .l, 2 => 4
  | _, _ => 1

/-- Roll-off of the root-raised-cosine pulses of a band's classes, in 1/1000 (Table 3.1, R53). -/
def rollOff (b : Band) : Nat := if b = .l then 250 else 125

/-- The class of a Radio L rate code (Table 3.3). -/
def rateClassL (rate : Nat) : Nat :=
  match rate with
  | 0 => 0
  | 1 => 1
  | 2 => 2
  | 3 => 3
  | 4 => 3
  | 5 => 4
  | _ => 5

/-- The rate code is listed for the class (Table 3.1). -/
def rateInClass (b : Band) (cls rate : Nat) : Bool :=
  match b with
  | .l => decide (rate ≤ 6) && rateClassL rate == cls
  | .m => decide (cls ≤ 1 ∧ rate ≤ 0x13)
  | .h => decide (cls ≤ 3 ∧ rate ≤ 0x17)

/-- Modulation index (Table 3.2) and code-rate index of a rate code. -/
def modIndex (b : Band) (rate : Nat) : Nat :=
  match b with
  | .l => if rate ≤ 3 then 0 else 1
  | _ => rate / 4
def codeIndex (b : Band) (rate : Nat) : Nat :=
  match b with
  | .l => 0
  | _ => rate % 4

/-- Bits of one symbol (Table 3.2). -/
def modBits (m : Nat) : Nat := if m = 0 then 1 else 2 * m

/-- Bandwidth of a class in kHz. -/
def classKHz (b : Band) (cls : Nat) : Nat :=
  match b, cls with
  | .l, 0 => 500
  | .l, 1 => 500
  | .l, 2 => 125
  | .l, 3 => 125
  | .l, 4 => 250
  | .l, 5 => 500
  | _, 0 => 20000
  | _, 1 => 40000
  | _, 2 => 80000
  | _, _ => 160000

/-- Greatest payload length a receiver takes on a band (R72). -/
def maxLength (b : Band) : Nat :=
  match b with
  | .l => 2047
  | .m => 8191
  | .h => 16383

/-- Length of a slot in half ns, and the number of slots (Table 4.1). -/
def slotLen (b : Band) : Nat :=
  match b with
  | .l => 2048 * usec
  | .m => 256 * usec
  | .h => 64 * usec
def slotCount (b : Band) : Nat :=
  match b with
  | .l => 512
  | .m => 4096
  | .h => 16384

/-- Tail of a band in half ns (Table 4.1). -/
def tailLen (b : Band) : Nat :=
  match b with
  | .l => 48 * usec
  | _ => 24 * usec

/-! ## The codeword plan (R61 to R63) -/

/-- mb of a code rate: parity rows of 24 columns (Table 3.9). -/
def codeMb (ri : Nat) : Nat :=
  match ri with
  | 0 => 12
  | 1 => 8
  | 2 => 6
  | _ => 4

/-- Permitted codeword lengths, longest first. -/
def cwLengths (b : Band) : List Nat :=
  match b with
  | .l => [2304, 576]
  | _ => [9216, 2304, 576]

/-- Information bits of a codeword of N bits. -/
def cwInfo (n ri : Nat) : Nat := n / 24 * (24 - codeMb ri)

/-- The codeword plan of a payload: N, K, and k[j], p[j] of each codeword (R61). -/
structure CwPlan where
  n : Nat
  k : Nat
  cws : List (Nat × Nat)
deriving DecidableEq, Repr

/-- Procedure plan of R61. -/
def cwPlan (b : Band) (length ri : Nat) : CwPlan :=
  let bits := 8 * length
  let n := ((cwLengths b).find? fun n => decide (cwInfo n ri ≤ bits)).getD 576
  let k := cwInfo n ri
  let c := ceilDiv bits k
  let s := c * k - bits
  { n := n, k := k
    cws := (List.range c).map fun j =>
      let kj := k - s / c - (if j < s % c then 1 else 0)
      (kj, ceilDiv (kj * (n - k)) k) }

/-- Coded bits of a payload. -/
def CwPlan.coded (p : CwPlan) : Nat := (p.cws.map fun x => x.1 + x.2).sum

/-- Payload symbols Np (R62). -/
def payloadSyms (b : Band) (length rate : Nat) : Nat :=
  ceilDiv (cwPlan b length (codeIndex b rate)).coded (modBits (modIndex b rate))

/-- Frame duration in 1/2520 ns, counted in symbols or chips only (R63). -/
def frameQ (b : Band) (cls rate length : Nat) : Nat :=
  let np := payloadSyms b length rate
  let pil := 16 * ((np - 1) / 512)
  let sf := spreadF b cls
  (if sf = 1 then 288 + np + pil else sf * (160 + np + pil) + 128) * symQ b cls

/-- From the first symbol to the sync word (R58), and from the first symbol to the start of the payload. -/
def syncQ (b : Band) (cls : Nat) : Nat := 64 * spreadF b cls * symQ b cls
def payloadQ (b : Band) (cls : Nat) : Nat := (160 * spreadF b cls + 128) * symQ b cls

/-- Instants in half ns from durations in 1/2520 ns, rounded up to the 0.5 ns grid (log 3). -/
def qToHn (q : Nat) : Nat := ceilDiv q qPerHn

/-! ## The header (Table 3.6, R59) -/

/-- The PHY header word. -/
def phyHeader (rate length : Nat) (beacon alarm : Bool) : Word :=
  let w := w32 (rate * 67108864 + length * 4096 + b2n beacon * 2048 + b2n alarm * 1024)
  w ||| w32 (crc8 w)

def hdrRate (w : Word) : Nat := fld w 31 26
def hdrLength (w : Word) : Nat := fld w 25 12
def hdrBeacon (w : Word) : Bool := bitOf w 11
def hdrAlarm (w : Word) : Bool := bitOf w 10

/-- The header passes its check (R59). -/
def hdrOk (w : Word) : Bool := decide (fld w 7 0 = crc8 w)

/-- A header that passed its check is invalid in a window of class `cls` (R72). -/
def hdrInvalid (b : Band) (cls : Nat) (w : Word) : Bool :=
  !rateInClass b cls (hdrRate w) || hdrLength w == 0 || decide (maxLength b < hdrLength w) ||
    decide ((sfLen - slotLen b) * qPerHn < frameQ b cls (hdrRate w) (hdrLength w))

/-! ## The frame on the air (R53, R54, R57, R58, R60, R62, R65) -/

/-- `n` outputs of P9 from the nine stages s[1] to s[9] held in bits 0 to 8 (R54). -/
def p9From : Nat → Nat → List Bool
  | 0, _ => []
  | n + 1, s =>
    s.testBit 8 :: p9From n (s * 2 % 512 + b2n (s.testBit 8 != s.testBit 4))

/-- The first `n` outputs of P9. -/
def p9 (n : Nat) : List Bool := p9From n 511

/-- The scrambler over bits; s[1] to s[15] in bits 0 to 14 (R60). -/
def scrambleFrom : Nat → List Bool → List Bool
  | _, [] => []
  | s, b :: r =>
    let o := s.testBit 14 != s.testBit 13
    (b != o) :: scrambleFrom (s * 2 % 32768 + b2n o) r

/-- A payload's bits, most significant first, scrambled. -/
def scrambled (data : Bytes) : List Bool := scrambleFrom 0x3AC5 (data.flatMap fun x => cvBits false x)

/-- Shift constant of R65. -/
def ldpcShift (z : Nat) : Nat := if z = 24 then 5 else if z = 96 then 29 else 113

/-- y[t] = x[(t + e) mod Z] (R65). -/
def rotl (z e : Nat) (x : List Bool) : List Bool := (x.drop (e % z)) ++ x.take (e % z)

/-- Exclusive or of bit lists. -/
def xorBits (a b : List Bool) : List Bool := List.zipWith (· != ·) a b

/-- The blocks of Z bits of an information word. -/
def chunksOf (z : Nat) : Nat → List Bool → List (List Bool)
  | 0, _ => []
  | n + 1, l => l.take z :: chunksOf z n (l.drop z)

/-- The sum over j of the shifted information blocks on row i (R65). -/
def ldpcRow (z mb i : Nat) (us : List (List Bool)) : List Bool :=
  ((List.range us.length).zip us).foldl (fun acc (j, u) =>
    if (i + mb * 24 - j) % mb ≤ 2 then xorBits acc (rotl z ((i + 1) * (j + 1) * ldpcShift z) u) else acc)
    (List.replicate z false)

/-- The parity blocks p_0 to p_(mb−1) as an accumulation (R65). -/
def ldpcParity (z mb : Nat) (us : List (List Bool)) : Nat → List Bool → List Bool
  | 0, _ => []
  | n + 1, prev =>
    let p := xorBits prev (ldpcRow z mb (mb - (n + 1)) us)
    p ++ ldpcParity z mb us n p

/-- The bits one codeword sends: its k information bits and the first p parity bits (R61, R65). -/
def codewordBits (n ri : Nat) (info : List Bool) (p : Nat) : List Bool :=
  let z := n / 24
  let mb := codeMb ri
  let us := chunksOf z (24 - mb) (info ++ List.replicate (cwInfo n ri - info.length) false)
  info ++ (ldpcParity z mb us mb (List.replicate z false)).take p

/-- The coded bits of scrambled bits under a plan. -/
def codedBits (n ri : Nat) : List (Nat × Nat) → List Bool → List Bool
  | [], _ => []
  | (k, p) :: r, bits => codewordBits n ri (bits.take k) p ++ codedBits n ri r (bits.drop k)

/-- BPSK: 0 to +1, 1 to −1. -/
def bpsk (b : Bool) : Sym := ⟨if b then -1 else 1, 0, 1⟩

/-- A number from bits, most significant first. -/
def bitsNat (l : List Bool) : Nat := l.foldl (fun a b => 2 * a + b2n b) 0

/-- The `n` bits of a number, most significant first. -/
def bitList (n v : Nat) : List Bool := (List.range n).map fun i => v.testBit (n - 1 - i)

/-- Binary number of a Gray label of n bits. -/
def grayBin (n g : Nat) : Nat := (List.range n).foldl (fun a i => a ^^^ (g >>> i)) 0

/-- The level of an axis label (R53). -/
def axisLevel (l : List Bool) : Int := (2 ^ l.length - 1 : Int) - 2 * (grayBin l.length (bitsNat l) : Int)

/-- A group of bits as one symbol (R53). -/
def mapSym (m : Nat) (g : List Bool) : Sym :=
  if m = 0 then bpsk (g.headD false)
  else ⟨axisLevel (g.take m), axisLevel (g.drop m), 2 * (4 ^ m - 1) / 3⟩

/-- Coded bits as symbols; zero bits pad the last one (R62). -/
def mapSyms (m : Nat) : Nat → List Bool → List Sym
  | 0, _ => []
  | n + 1, l =>
    let w := modBits m
    mapSym m (l.take w ++ List.replicate (w - (l.take w).length) false) :: mapSyms m n (l.drop w)

/-- A pilot block of 16 symbols after every 512 payload symbols that more payload follows (Table 3.5). -/
def withPilots : Nat → List Sym → List Sym
  | 0, l => l
  | n + 1, l =>
    if 512 < l.length then l.take 512 ++ (p9 16).map bpsk ++ withPilots n (l.drop 512) else l

/-- A symbol spread over SF chips (R53). -/
def spread (sf : Nat) (s : Sym) : List Sym :=
  if sf = 1 then [s]
  else (p9 sf).map fun c => if c then ⟨-s.i, -s.q, s.power⟩ else s

/-- The payload's symbols, pilots included, before spreading. -/
def payloadSymbols (b : Band) (rate : Nat) (data : Bytes) : List Sym :=
  let ri := codeIndex b rate
  let pl := cwPlan b data.length ri
  let np := payloadSyms b data.length rate
  withPilots (np / 512 + 1) (mapSyms (modIndex b rate) np (codedBits pl.n ri pl.cws (scrambled data)))

/-- The chips or symbols of the STF: its pattern eight times, spread (Table 3.5). -/
def stfSymbols (sf : Nat) : List Sym :=
  (((List.replicate 8 (bitList 8 0x1A)).flatten).map bpsk).flatMap (spread sf)

/-- Every chip or symbol of a frame from its first STF symbol to its last (R57, R58). -/
def frameSymbols (b : Band) (cls : Nat) (hdr : Word) (data : Bytes) : List Sym :=
  let sf := spreadF b cls
  let hd := (bitList 32 hdr.toNat).flatMap fun x => [x, !x]
  stfSymbols sf ++ ((bitList 32 0xB38F2A61 ++ hd).map bpsk).flatMap (spread sf)
    ++ (p9 128).map bpsk
    ++ (payloadSymbols b (hdrRate hdr) data).flatMap (spread sf)

/-- Chips or symbols in a time of `hn` half ns, rounded up. -/
def symsIn (b : Band) (cls hn : Nat) : Nat := ceilDiv (hn * qPerHn) (symQ b cls)

/-- The last `n` symbols before the frame: the STF pattern, extended cyclically backwards (R64). -/
def rampUpSymbols (b : Band) (cls n : Nat) : List Sym :=
  let one := (stfSymbols (spreadF b cls)).take (8 * spreadF b cls)
  let reps := n / one.length + 1
  ((List.replicate reps one).flatten).drop (reps * one.length - n)

/-- The zero-valued symbols of ramp-down (R64). -/
def rampDownSymbols (n : Nat) : List Sym := List.replicate n ⟨0, 0, 1⟩

/-- What a Sesia frame puts on the air, ramps of `ramp` half ns included, cut after `cut` half ns from its first
symbol where it does not run to its end (R53, R57, R64). -/
def sesiaWave (b : Band) (cls : Nat) (hdr : Word) (data : Bytes) (ramp : Nat) (cut : Option Nat) : Wave :=
  let n := symsIn b cls ramp
  let body := frameSymbols b cls hdr data
  .sesia (rollOff b) (symQ b cls) (rampUpSymbols b cls n)
    (match cut with
      | some t => body.take (symsIn b cls t)
      | none => body)
    (rampDownSymbols n)

/-! ## Receiving: the header and the codewords (R59, R60, R61, R66) -/

/-- A header bit from the soft values of the bit and of its complement, positive for 0: their difference decides.
`none` where they do not tell (log 28). -/
def combineBit (x : Int × Int) : Option Bool := if x.1 = x.2 then none else some (decide (x.1 < x.2))

/-- The header word of 32 pairs; `free` gives the bits that no pair decides (log 28). -/
def hdrWord (soft : List (Int × Int)) (free : Nat) : Word :=
  w32 (bitsNat ((List.range 32).map fun i => match soft[i]?.bind combineBit with
    | some v => v
    | none => free.testBit i))

/-- The columns of base row `i` with their shifts (R65). -/
def ldpcCols (z mb i : Nat) : List (Nat × Nat) :=
  let kb := 24 - mb
  ((List.range kb).filter fun j => decide ((i + mb * 24 - j) % mb ≤ 2)).map (fun j => (j, (i + 1) * (j + 1) * ldpcShift z % z))
    ++ (if 0 < i then [(kb + i - 1, 0)] else []) ++ [(kb + i, 0)]

/-- The variables of check `t` of base row `i`. -/
def checkVars (z mb i t : Nat) : List Nat := (ldpcCols z mb i).map fun x => x.1 * z + (t + x.2) % z

/-- A decoder's reliability of one bit: positive for 0; `none` for a bit known to be 0 (R66). -/
abbrev Soft := Option Rat

/-- Magnitude comparison, a known bit being beyond every other. -/
def softMin (a b : Soft) : Soft :=
  match a, b with
  | none, y => y
  | x, none => x
  | some x, some y => some (min x y)

/-- The normalised min-sum messages of one check from what its variables send. -/
def checkMessages (norm : Rat) (qs : List Soft) : List Soft :=
  (List.range qs.length).map fun e =>
    let others := (List.range qs.length).filterMap fun f => if f = e then none else qs[f]?
    let neg := (others.filter fun x => match x with
      | some v => decide (v < 0)
      | none => false).length % 2 == 1
    let mag := others.foldl (fun m x => softMin m (x.map fun v => if v < 0 then -v else v)) none
    mag.map fun v => if neg then -(norm * v) else norm * v

/-- The decoder over one codeword: the reliabilities, and the messages held for each check by its number. -/
structure LdpcRun where
  app : Array Soft
  msgs : Tab (List Soft)

/-- One check: the old messages are taken out, the new ones put in. -/
def LdpcRun.check (norm : Rat) (z mb i t : Nat) (s : LdpcRun) : LdpcRun :=
  let vs := checkVars z mb i t
  let key := i * z + t
  let old := s.msgs.get [] key
  let qs := (List.range vs.length).map fun e =>
    match s.app.getD ((vs[e]?).getD 0) (some 0) with
    | none => none
    | some v => some (v - ((old[e]?).getD (some 0)).getD 0)
  let new := checkMessages norm qs
  let app := (List.range vs.length).foldl (fun (a : Array Soft) e =>
    let v : Soft := match (qs[e]?).getD none, (new[e]?).getD none with
      | some q, some r => some (q + r)
      | _, _ => none
    a.setIfInBounds ((vs[e]?).getD 0) v) s.app
  ⟨app, s.msgs.put key new⟩

/-- One layer: the checks of one base row. -/
def LdpcRun.layer (norm : Rat) (z mb i : Nat) (s : LdpcRun) : LdpcRun :=
  (List.range z).foldl (fun s t => s.check norm z mb i t) s

/-- The bits decided. -/
def LdpcRun.hard (s : LdpcRun) : List Bool := s.app.toList.map fun x => match x with
  | some v => decide (v < 0)
  | none => false

/-- The syndrome of the bits decided is zero. -/
def LdpcRun.clean (z mb : Nat) (s : LdpcRun) : Bool :=
  let h := s.hard.toArray
  (List.range mb).all fun i => (List.range z).all fun t =>
    ((checkVars z mb i t).filter fun v => h.getD v false).length % 2 == 0

/-- Runs up to `layers` layers, an iteration being `mb` of them, and stops after an iteration whose syndrome is zero. -/
def LdpcRun.run (norm : Rat) (z mb : Nat) : Nat → Nat → LdpcRun → LdpcRun × Nat
  | 0, done, s => (s, done)
  | n + 1, done, s =>
    let s := s.layer norm z mb (done % mb)
    if (done + 1) % mb = 0 ∧ s.clean z mb then (s, done + 1) else s.run norm z mb n (done + 1)

/-- Min-sum scaling of RADx_LDPC_CTRL.norm (Table 3.14) (log 29). -/
def normOf (code : Nat) : Rat :=
  match code with
  | 0 => 1
  | 1 => 7 / 8
  | 2 => 3 / 4
  | _ => 5 / 8

/-- The reliabilities a codeword begins with: what was received, known zeros for the shortened bits, erasures for
the parity bits not sent (R66) (log 29). -/
def softStart (n kj pj k : Nat) (soft : List Int) : Array Soft :=
  ((List.range n).map fun v =>
    if v < kj then some (((soft[v]?).getD 0 : Int) : Rat)
    else if v < k then none
    else if v - k < pj then some (((soft[kj + (v - k)]?).getD 0 : Int) : Rat)
    else some 0).toArray

/-- Decodes codeword `j` of a plan in at most `layers` layers: its information bits, whether its syndrome is zero,
and the iterations it ran (log 29). -/
def decodeCw (p : CwPlan) (ri norm j layers : Nat) (soft : List Int) : List Bool × Bool × Nat :=
  let kp := (p.cws[j]?).getD (0, 0)
  let z := p.n / 24
  let mb := codeMb ri
  let r := (LdpcRun.mk (softStart p.n kp.1 kp.2 p.k soft) []).run (normOf norm) z mb layers 0
  (r.1.hard.take kp.1, r.1.clean z mb, r.2 / mb)

/-- Bytes of bits, most significant first. -/
def bitBytes : Nat → List Bool → Bytes
  | 0, _ => []
  | n + 1, l => BitVec.ofNat 8 (bitsNat (l.take 8)) :: bitBytes n (l.drop 8)

/-- A payload from its decoded bits: the scrambler's stream is taken off again (R60). -/
def descrambled (length : Nat) (bits : List Bool) : Bytes := bitBytes length (scrambleFrom 0x3AC5 bits)

/-! ## Waves that are no Sesia frames (R79, R130) -/

/-- One bell frame (Table 5.3): the preamble, the delimiter and the code, on and off in µs. -/
def bellFrame (code : Word) : List (Bool × Nat) :=
  let manchester (v : Bool) : List (Bool × Nat) := [(v, 250), (!v, 250)]
  (List.replicate 16 true).flatMap manchester ++ [true, true, false, false].flatMap manchester
    ++ (bitList 32 code.toNat).map fun v => (v, 500)

/-- A bell burst: frames with the carrier off for 1,000 µs between them (R130). -/
def bellWave (code : Word) : Nat → List (Bool × Nat)
  | 0 => []
  | 1 => bellFrame code
  | n + 2 => bellFrame code ++ (false, 1000) :: bellWave code (n + 1)

end Sys2Proof.Machine
end

