-- ==== Sys2Proof/Machine/Operands.lean ====
section
/-! DEFINITION. The operand forms that several commands read and write: MAC frames, grant records, client
capabilities, channels and regulatory spans (chapters 2, 4, 6). -/

namespace Sys2Proof.Machine

/-! ## MAC frames (R84, Table 4.3, Table 4.4) -/

/-- Frame type codes. -/
def tyBeacon : Nat := 0
def tyReport : Nat := 1
def tyReply : Nat := 2
def tyAssocReq : Nat := 3
def tyAssocResp : Nat := 4
def tyPoll : Nat := 5
def tyData : Nat := 6

/-- The broadcast or not-yet-assigned client_id (R2). -/
def noClient : Nat := 0x1FFF

/-- The MAC header word. -/
def macHeader (ty dir : Nat) (enc : Bool) (client : Nat) (more : Bool) (seq : Nat) : Word :=
  w32 (ty % 16 * 0x10000000 + dir % 2 * 0x08000000 + b2n enc * 0x04000000 + client % 8192 * 0x2000
    + b2n more * 0x1000 + seq % 4096)

/-- Fields of a received frame. -/
def mHdr (f : Bytes) : Word := w32 (fieldAt f 0 4)
def mType (f : Bytes) : Nat := fld (mHdr f) 31 28
def mDir (f : Bytes) : Bool := bitOf (mHdr f) 27
def mEnc (f : Bytes) : Bool := bitOf (mHdr f) 26
def mClient (f : Bytes) : Nat := fld (mHdr f) 25 13
def mMore (f : Bytes) : Bool := bitOf (mHdr f) 12
def mSeq (f : Bytes) : Nat := fld (mHdr f) 11 0
def mCounter (f : Bytes) : Nat := fieldAt f 4 4
def mBody (f : Bytes) : Bytes := (f.drop 8).take (f.length - 16)
def mTag (f : Bytes) : Bytes := f.drop (f.length - 8)

/-- The frame but for its tag: header, counter, body. -/
def macFrame (hdr : Word) (counter : Nat) (body : Bytes) : Bytes :=
  beBytes 4 hdr.toNat ++ beBytes 4 counter ++ body

/-- The CMAC input M: the prefix of Table 6.2 and everything before the tag (R148). -/
def cmacInput (b : Band) (gateway : Nat) (untagged : Bytes) : Bytes :=
  [BitVec.ofNat 8 (bandNum b), 0] ++ beBytes 2 gateway ++ untagged

/-- The first 12 bytes of a CTR counter block (Table 6.3). -/
def ctrPrefix (client : Nat) (b : Band) (dir : Bool) (counter : Nat) : Bytes :=
  beBytes 2 (client % 8192) ++ [BitVec.ofNat 8 (bandNum b), if dir then 0x80 else 0]
    ++ beBytes 4 counter ++ zeros 4

/-! ## Grant records (Table 4.10, R91) -/

def gBand (g : DWord) : Nat := fld g 63 62
def gFirst (g : DWord) : Nat := fld g 61 48
def gCount (g : DWord) : Nat := fld g 47 34
def gK (g : DWord) : Nat := fld g 33 30
def gPhase (g : DWord) : Nat := fld g 29 18
def gRate (g : DWord) : Nat := fld g 17 12
def gType (g : DWord) : Nat := fld g 11 8
def gOrder (g : DWord) : Nat := fld g 7 6
def gClassField (g : DWord) : Nat := fld g 5 4

/-- Grant types (Table 4.11). -/
def gtUplink : Nat := 0
def gtUp : Nat := 1
def gtDown : Nat := 2

/-- A rate code is defined for a band (R56). -/
def rateDefined (b : Band) (rate : Nat) : Bool :=
  match b with
  | .l => decide (rate ≤ 6)
  | .m => decide (rate ≤ 0x13)
  | .h => decide (rate ≤ 0x17)

/-- The class in which a grant's frames go (R91). -/
def gClass (g : DWord) : Nat := if gBand g = 0 then rateClassL (gRate g) else gClassField g

/-- A record that is ignored (R91). -/
def gIgnored (g : DWord) : Bool :=
  gBand g == 3 || decide (2 < gType g) || decide (12 < gK g) || decide (2 ^ gK g ≤ gPhase g)
    || gCount g == 0 || !rateDefined (bandOfNum (gBand g)) (gRate g)
    || (gBand g != 0 && !rateInClass (bandOfNum (gBand g)) (gClassField g) (gRate g))

/-- The grant is active in superframe `sf` (R91). -/
def gActive (g : DWord) (sf : Nat) : Bool := !gIgnored g && sf % 2 ^ gK g == gPhase g

/-- The last slot it covers, the reply slot of an UPLINK_REPLY grant included. -/
def gLast (g : DWord) : Nat := gFirst g + gCount g - 1 + (if gType g = gtUplink then 1 else 0)

/-- A grant covers slot `j` of its band. -/
def gCovers (g : DWord) (j : Nat) : Bool := decide (gFirst g ≤ j ∧ j ≤ gLast g)

/-- Builds a grant record. -/
def mkGrant (band first count k phase rate gtype order cls : Nat) : DWord :=
  BitVec.ofNat 64 (band % 4 * 2 ^ 62 + first % 2 ^ 14 * 2 ^ 48 + count % 2 ^ 14 * 2 ^ 34 + k % 16 * 2 ^ 30
    + phase % 4096 * 2 ^ 18 + rate % 64 * 2 ^ 12 + gtype % 16 * 2 ^ 8 + order % 4 * 64 + cls % 4 * 16)

/-! ## Client capabilities (R100) -/

def capBand (c : Word) (b : Band) : Bool := bitOf c (31 - bandNum b)
def capStation (c : Word) : Bool := bitOf c 28
def capBell (c : Word) : Bool := bitOf c 27
def capTol (c : Word) : Nat := fld c 26 19
def capRateL (c : Word) : Nat := fld c 18 13

/-! ## The open map (Table 4.8) -/

def omStart (w : Word) : Nat := fld w 31 18
def omCount (w : Word) : Nat := fld w 17 10
def omStride (w : Word) : Nat := max 1 (fld w 9 0)

/-! ## Frequencies, in units of 0.5 kHz (R24, R110, Table 18.11) -/

/-- Lower and upper edge of a band. -/
def bandLo (b : Band) : Nat :=
  match b with
  | .l => 2 * 863000
  | .m => 2 * 2400000
  | .h => 2 * 5150000
def bandHi (b : Band) : Nat :=
  match b with
  | .l => 2 * 928000
  | .m => 2 * 2483500
  | .h => 2 * 7125000

/-- Channel step. -/
def chanStep (b : Band) : Nat :=
  match b with
  | .l => 2 * 25
  | .m => 2 * 500
  | .h => 2 * 5000

/-- Channel centre (R110). -/
def chanCentre (b : Band) (i : Nat) : Nat := bandLo b + chanStep b * i

/-- A span of frequencies. -/
abbrev Span := Nat × Nat

/-- A channel of a class: its bandwidth centred on the channel centre. -/
def chanSpan (b : Band) (i kHz : Nat) : Span := (chanCentre b i - kHz, chanCentre b i + kHz)

/-- Two spans share a frequency inside both; edges that only meet do not overlap (R107). -/
def Span.overlaps (x y : Span) : Bool := decide (x.1 < y.2 ∧ y.1 < x.2)

/-- A span lies wholly inside another. -/
def Span.inside (x y : Span) : Bool := decide (y.1 ≤ x.1 ∧ x.2 ≤ y.2)

/-- The span of a sub-band. -/
def SubBand.span (s : SubBand) : Span := (2 * s.lo, 2 * s.hi)

/-- The span of a restricted range: half a step beyond the centres of its end channels (R110). -/
def restrSpan (b : Band) (r : Nat × Nat) : Span :=
  (chanCentre b r.1 - chanStep b / 2, chanCentre b r.2 + chanStep b / 2)

/-- Number of frequency groups and their width (R24). -/
def groupCount (b : Band) : Nat :=
  match b with
  | .l => 8
  | .m => 4
  | .h => 16
def groupWidth (b : Band) : Nat :=
  match b with
  | .l => 16250
  | .m => 41750
  | .h => 246875

/-- The frequency group of a channel, by its centre; the top group holds the band edge (R24). -/
def groupOf (b : Band) (i : Nat) : Nat :=
  min (groupCount b - 1) ((chanCentre b i - bandLo b) / groupWidth b)

/-- Classes of a band (Table 3.1). -/
def classCount (b : Band) : Nat :=
  match b with
  | .l => 6
  | .m => 2
  | .h => 4

/-- The widest bandwidth, kHz, among the beacon class and the permitted classes (R110). -/
def ProfBand.widest (p : ProfBand) (b : Band) : Nat :=
  ((p.beaconCls :: bitsOf p.classes 8).map (classKHz b)).foldl max 0

/-- A band of a profile is valid (R110). -/
def ProfBand.valid (p : ProfBand) (b : Band) : Bool :=
  let sp := chanSpan b p.chan (p.widest b)
  p.present && decide (p.beaconCls < classCount b) && (bitsOf p.classes 8).all (fun c => decide (c < classCount b))
    && decide (b ≠ .l ∨ p.chan ≤ 2600)
    && decide (bandLo b + p.widest b ≤ chanCentre b p.chan) && Span.inside sp (bandLo b, bandHi b)
    && p.restr.all (fun r => !Span.overlaps sp (restrSpan b r))

/-- A class is permitted by the band of a profile. -/
def ProfBand.permits (p : ProfBand) (cls : Nat) : Bool := bitOf p.classes cls

end Sys2Proof.Machine
end

