-- ==== Sys2Proof/Machine/Parse.lean ====
section
/-! DEFINITION. The packet parser, the four tables and their keys, probes and hash (R170 to R178). -/

namespace Sys2Proof.Machine

/-! ## Parse results (Table 7.2) -/

def prOk : Nat := 0x00
def prInc : Nat := 0x01
def prTrunc : Nat := 0x10
def prIpVer : Nat := 0x11
def prIhl : Nat := 0x12
def prTotLen : Nat := 0x13
def prIpLen : Nat := 0x14
def prExtLen : Nat := 0x15
def prUdpLen : Nat := 0x16
def prTcpOff : Nat := 0x17
def prVxFlags : Nat := 0x18

/-- The IP header of a pass: version, its byte offset, addresses, protocol after extensions. -/
structure IpInfo where
  v6 : Bool
  pos : Nat
  src : Bytes
  dst : Bytes
  proto : Nat
deriving DecidableEq, Repr

/-- What the parser found. `stop` is the byte from the parse start at which the parse stopped. -/
structure Parsed where
  code : Nat
  stop : Nat
  /-- headers parsed -/
  hdrs : Nat
  eth : Bool
  /-- TCIs, outermost first, the ethertype that ends L2, and where L2 ends -/
  vlans : List Nat
  ety : Nat
  l3 : Nat
  ip : Option IpInfo
  l4 : Option (Nat × Nat)
  /-- where the TCP or UDP header lies -/
  l4at : Nat
  /-- a VXLAN header ended the pass: its VNI; a tunnel code ended it: that code -/
  vni : Option Nat
  tun : Option Nat
  /-- first byte after the outer headers, and the end of the outer payload -/
  inner : Nat
  limit : Nat
deriving DecidableEq, Repr

/-- Nothing parsed yet of a pass whose bytes end at `limit`. -/
def Parsed.start (limit : Nat) : Parsed := ⟨prOk, 0, 0, false, [], 0, 0, none, none, 0, none, none, 0, limit⟩

/-- The parse stops with a code at a byte. -/
def Parsed.fail (p : Parsed) (code o : Nat) : Parsed := { p with code := code, stop := o }

/-- A header of `len` bytes at `o` that would be one too many, or does not lie in the window (R171), or
runs past the remaining bytes with reason `code` (R172) (log 22). -/
def Parsed.check (p : Parsed) (o len code : Nat) : Option Nat :=
  if 8 ≤ p.hdrs then some prInc
  else if 256 < o + len then some prInc
  else if p.limit < o + len then some code
  else none

/-- One more header. -/
def Parsed.count (p : Parsed) : Parsed := { p with hdrs := p.hdrs + 1 }

/-- VXLAN at `o` (RFC 7348): it ends the pass. -/
def parseVxlan (d : Bytes) (p : Parsed) (o : Nat) : Parsed :=
  match p.check o 8 prTrunc with
  | some c => p.fail c o
  | none =>
    if fieldAt d o 1 / 8 % 2 = 0 then p.fail prVxFlags o
    else { p.count with vni := some (fieldAt d (o + 4) 3), inner := o + 8 }

/-- TCP or UDP at `o`; any other protocol ends L3. -/
def parseL4 (vxPort : Nat) (d : Bytes) (p : Parsed) (proto o : Nat) : Parsed :=
  if proto = 6 then
    match p.check o 20 prTrunc with
    | some c => p.fail c o
    | none =>
      let len := fieldAt d (o + 12) 1 / 16 * 4
      if len < 20 then p.fail prTcpOff o
      else match p.check o len prTcpOff with
        | some c => p.fail c o
        | none => { p.count with l4 := some (fieldAt d o 2, fieldAt d (o + 2) 2), l4at := o }
  else if proto = 17 then
    match p.check o 8 prTrunc with
    | some c => p.fail c o
    | none =>
      let len := fieldAt d (o + 4) 2
      if len < 8 ∨ len ≠ p.limit - o then p.fail prUdpLen o
      else
        let q := { p.count with l4 := some (fieldAt d o 2, fieldAt d (o + 2) 2), l4at := o }
        if fieldAt d (o + 2) 2 = vxPort then parseVxlan d q (o + 8) else q
  else p

/-- A protocol or next header code after an IP header: a tunnel ends the pass while ipip_en is 1. -/
def parseNext (vxPort : Nat) (ipip : Bool) (d : Bytes) (p : Parsed) (proto o : Nat) : Parsed :=
  if ipip && (proto == 4 || proto == 41) then { p with tun := some proto, inner := o }
  else parseL4 vxPort d p proto o

/-- The protocol noted for the keys. -/
def Parsed.setProto (p : Parsed) (proto : Nat) : Parsed :=
  { p with ip := p.ip.map fun i => { i with proto := proto } }

/-- IPv6 extension headers from `o`, at most `fuel` of them. -/
def parseExt (vxPort : Nat) (ipip : Bool) (d : Bytes) : Nat → Parsed → Nat → Nat → Parsed
  | 0, p, _, o => p.fail prInc o
  | fuel + 1, p, nh, o =>
    let p := p.setProto nh
    if nh = 0 ∨ nh = 43 ∨ nh = 44 ∨ nh = 60 then
      match p.check o 8 prExtLen with
      | some c => p.fail c o
      | none =>
        let len := if nh = 44 then 8 else (fieldAt d (o + 1) 1 + 1) * 8
        match p.check o len prExtLen with
        | some c => p.fail c o
        | none =>
          let next := fieldAt d o 1
          if nh = 44 ∧ fieldAt d (o + 2) 2 / 8 ≠ 0 then p.count.setProto next
          else parseExt vxPort ipip d fuel p.count next (o + len)
    else parseNext vxPort ipip d p nh o

/-- IPv4 at `o`. -/
def parseIp4 (vxPort : Nat) (ipip : Bool) (d : Bytes) (p : Parsed) (o : Nat) : Parsed :=
  match p.check o 20 prTrunc with
  | some c => p.fail c o
  | none =>
    let ihl := fieldAt d o 1 % 16
    let tot := fieldAt d (o + 2) 2
    match p.check o (ihl * 4) prTrunc with
    | some c => p.fail c o
    | none =>
      if fieldAt d o 1 / 16 ≠ 4 then p.fail prIpVer o
      else if ihl < 5 then p.fail prIhl o
      else if tot < ihl * 4 then p.fail prTotLen o
      else if p.limit - o < tot then p.fail prIpLen o
      else
        let proto := fieldAt d (o + 9) 1
        let info : IpInfo := ⟨false, o, slice d (o + 12) 4, slice d (o + 16) 4, proto⟩
        let q := { p.count with limit := o + tot, ip := some info }
        if fieldAt d (o + 6) 2 % 8192 ≠ 0 then q
        else parseNext vxPort ipip d q proto (o + ihl * 4)

/-- IPv6 at `o`. -/
def parseIp6 (vxPort : Nat) (ipip : Bool) (d : Bytes) (p : Parsed) (o : Nat) : Parsed :=
  match p.check o 40 prTrunc with
  | some c => p.fail c o
  | none =>
    let len := 40 + fieldAt d (o + 4) 2
    if fieldAt d o 1 / 16 ≠ 6 then p.fail prIpVer o
    else if p.limit - o < len then p.fail prIpLen o
    else
      let nh := fieldAt d (o + 6) 1
      let info : IpInfo := ⟨true, o, slice d (o + 8) 16, slice d (o + 24) 16, nh⟩
      parseExt vxPort ipip d 9 { p.count with limit := o + len, ip := some info } nh (o + 40)

/-- L3 by the ethertype that ends L2. -/
def parseL3 (vxPort : Nat) (ipip : Bool) (d : Bytes) (p : Parsed) (ety o : Nat) : Parsed :=
  let p := { p with ety := ety, l3 := o }
  if ety = 0x0800 then parseIp4 vxPort ipip d p o
  else if ety = 0x86DD then parseIp6 vxPort ipip d p o
  else p

/-- A VLAN tag's ethertype (Table 7.1). -/
def isTpid (ety : Nat) : Bool := ety == 0x8100 || ety == 0x88A8

/-- VLAN tags from `o`, at most two; a third ends the parse (R170). -/
def parseVlans (vxPort : Nat) (ipip : Bool) (d : Bytes) : Nat → Parsed → Nat → Nat → Parsed
  | 0, p, ety, o => if isTpid ety then { p with ety := ety, l3 := o } else parseL3 vxPort ipip d p ety o
  | fuel + 1, p, ety, o =>
    if isTpid ety then
      match p.check o 4 prTrunc with
      | some c => p.fail c o
      | none =>
        parseVlans vxPort ipip d fuel { p.count with vlans := p.vlans ++ [fieldAt d o 2] } (fieldAt d (o + 2) 2) (o + 4)
    else parseL3 vxPort ipip d p ety o

/-- A pass: from the Ethernet header, or from the inner IP header when the outer protocol was 4 or 41 (log 22). -/
def parse (vxPort : Nat) (ipip : Bool) (d : Bytes) (limit : Nat) (outer : Option Nat) : Parsed :=
  let p := Parsed.start limit
  match outer with
  | some 4 => parseIp4 vxPort ipip d p 0
  | some _ => parseIp6 vxPort ipip d p 0
  | none =>
    match p.check 0 14 prTrunc with
    | some c => p.fail c 0
    | none => parseVlans vxPort ipip d 2 { p.count with eth := true } (fieldAt d 12 2) 14

/-! ## Table entries (Tables 7.3, 7.4) -/

/-- Buckets of table `t`. -/
def tblBuckets (t : Nat) : Nat := if t = 0 then 4096 else if t = 1 then 8192 else 2048

/-- Entries of table `t`. -/
def tblSize (t : Nat) : Nat := 4 * tblBuckets t

/-- Key of an entry in `Packet.tables`. -/
def tblKey (t i : Nat) : Nat := 65536 * t + i

abbrev Entry := BitVec 512

def Entry.genFirst (e : Entry) : Nat := fld e 511 496
def Entry.genLast (e : Entry) : Nat := fld e 495 480
def Entry.valid (e : Entry) : Bool := bitOf e 479
def Entry.keyType (e : Entry) : Nat := fld e 478 475
def Entry.openEnd (e : Entry) : Bool := bitOf e 474
def Entry.hit (e : Entry) : Bool := bitOf e 473
def Entry.key (e : Entry) : Nat := fld e 447 128
def Entry.action (e : Entry) : DWord := BitVec.ofNat 64 (fld e 127 64)
def Entry.dmac (e : Entry) : Nat := fld e 63 16
def Entry.ext (e : Entry) : Nat := fld e 15 8

/-- An entry is live for generation `p` (R175). -/
def Entry.live (e : Entry) (p : Nat) : Bool :=
  e.valid && decide ((p + 65536 - e.genFirst) % 65536 < 32768)
    && (e.openEnd || decide ((e.genLast + 65536 - p) % 65536 < 32768))

/-- The entry with its hit bit put at a value (R178). -/
def Entry.setHit (e : Entry) (v : Bool) : Entry := putBit e 473 v

/-- The entry with valid := 0 (R188). -/
def Entry.cleared (e : Entry) : Entry := clrBit e 479

/-- The two candidate buckets of a key of 40 bytes under a seed (R174). -/
def buckets (t : Nat) (seed : Word) (key : Bytes) : Nat × Nat :=
  let c := crc32cFrom seed.toNat key
  let b0 := c % tblBuckets t
  let b1 := (c / 65536) % tblBuckets t
  (b0, if b1 = b0 then b0 ^^^ 1 else b1)

/-- The places a lookup probes, in order (log 21). -/
def probePlaces (b : Nat × Nat) : List Nat :=
  (List.range 4).map (fun w => 4 * b.1 + w) ++ (List.range 4).map (fun w => 4 * b.2 + w)

/-- An entry of table `t`. -/
def Packet.entry (p : Packet) (t i : Nat) : Entry := p.tables.get 0 (tblKey t i)

/-- Changes an entry of table `t`. -/
def Packet.setEntry (p : Packet) (t i : Nat) (e : Entry) : Packet :=
  { p with tables := p.tables.set 0 (tblKey t i) e }

/-- The first live entry of the places whose type and key match (R174). -/
def probe (entry : Nat → Entry) (gen ty key : Nat) : List Nat → Option (Nat × Entry)
  | [] => none
  | i :: r =>
    let e := entry i
    if e.live gen && decide (e.keyType = ty ∧ e.key = key) then some (i, e) else probe entry gen ty key r

/-- An entry as a lookup sees it: whole as it was before a write of the same cycle (R178, R190). -/
def Device.entrySeen (d : Device) (t i : Nat) : Entry := d.cycle.tables.get (d.pkt.entry t i) (tblKey t i)

/-- One lookup: the hit, whose hit bit is then set. -/
def Device.lookup (d : Device) (t gen ty : Nat) (key : Bytes) : Option Entry × Device :=
  let k := padTo 40 key
  match probe (d.entrySeen t) gen ty (beNat k) (probePlaces (buckets t (d.cfg (Reg.PKT_TBL_SEED t)) k)) with
  | some (i, e) =>
    (some e, (d.onPkt fun p => p.setEntry t i ((p.entry t i).setHit true)).onCycle fun c => { c with hits := tblKey t i :: c.hits })
  | none => (none, d)

/-- Software changes an entry; its hit bit is cleared, but one that hardware sets in the same cycle stays at 1 (R20, R178). -/
def Device.tblStore (d : Device) (t i : Nat) (e : Entry) : Device :=
  let old := d.entrySeen t i
  (d.onPkt fun p => p.setEntry t i (e.setHit (d.cycle.hits.contains (tblKey t i)))).onCycle fun c => { c with tables := c.tables.put (tblKey t i) old }

/-- Valid entries of table `t` (PKT_TBL_OCC_t). -/
def Packet.occ (p : Packet) (t : Nat) : Nat :=
  (p.tables.filter fun x => decide (x.1 / 65536 = t) && Entry.valid x.2).length

/-! ## Keys (Table 7.5) -/

def keyMac (bdType : Bool) (bd mac : Nat) : Bytes := beBytes 1 (b2n bdType) ++ beBytes 3 bd ++ beBytes 6 mac
def keyClient (c : Nat) : Bytes := beBytes 2 c
def keyFlow (i : IpInfo) (l4 : Option (Nat × Nat)) (inner : Bool) : Bytes :=
  i.src ++ i.dst ++ beBytes 1 i.proto ++ beBytes 2 ((l4.map Prod.fst).getD 0)
    ++ beBytes 2 ((l4.map Prod.snd).getD 0) ++ beBytes 1 (b2n inner)
def keyHost (i : IpInfo) (inner : Bool) : Bytes := i.dst ++ beBytes 1 (b2n inner)
def keyAclMac (port : Nat) (bdType : Bool) (bd : Nat) (mac : Bytes) : Bytes :=
  beBytes 1 port ++ beBytes 1 (b2n bdType) ++ beBytes 3 bd ++ mac
def keyAclIp (port : Nat) (i : IpInfo) (addr : Bytes) : Bytes :=
  beBytes 1 port ++ beBytes 1 (if i.v6 then 6 else 4) ++ addr
def keyAclL4 (port proto dport : Nat) : Bytes := beBytes 1 port ++ beBytes 1 proto ++ beBytes 2 dport

/-! ## The action word (Table 7.6) -/

def aDisp (a : DWord) : Nat := fld a 63 61
def aPort (a : DWord) : Nat := fld a 60 57
def aQueue (a : DWord) : Nat := fld a 56 54
def aLink (a : DWord) : Nat := fld a 53 41
def aCopy (a : DWord) : Bool := bitOf a 40
def aMirror (a : DWord) : Bool := bitOf a 39
def aMirrorPort (a : DWord) : Nat := fld a 38 35
def aMeterEn (a : DWord) : Bool := bitOf a 34
def aMeter (a : DWord) : Nat := fld a 33 22
def aDecap (a : DWord) : Nat := fld a 21 20
def aVlanOp (a : DWord) : Nat := fld a 19 18
def aVlan (a : DWord) : Nat := fld a 17 6

/-- Port codes. -/
def portRng : Nat := 9
def portKpr : Nat := 10
def portSpl : Nat := 11

end Sys2Proof.Machine
end

