-- ==== Sys2Proof/Machine/Queues.lean ====
section
/-! DEFINITION. Queues, the packet buffer, credit shapers, gate lists, port schedulers and meters
(chapter 8), and the frames that leave a port. -/

namespace Sys2Proof.Machine

/-! ## Queues and cells (R192, R193) -/

/-- Key of port queue `n` of port code `p` (R192). -/
def pqKey (p n : Nat) : Nat := 8 * (p - 3) + n

/-- Key of link queue `2 × h + q` (R16). -/
def lqKey (h q : Nat) : Nat := 72 + 2 * h + q

/-- The link of a link queue's key, and its q. -/
def lqLink (k : Nat) : Nat := (k - 72) / 2
def lqQ (k : Nat) : Nat := (k - 72) % 2

/-- The j of PKT_LQ_CFG_j and PKT_LQ_SHP_j. -/
def Device.lqJ (d : Device) (k : Nat) : Nat := 2 * bandNum (d.linkOf (lqLink k)).band + lqQ k

/-- Cells of a packet. -/
def QPkt.cells (x : QPkt) : Nat := ceilDiv x.data.length 256

/-- The descriptors of a link queue that stand in its link's hot context, and those in DRAM (R193). -/
def Queue.hotDescs (q : Queue) : List QPkt := q.pkts.take 4
def Queue.dramDescs (q : Queue) : List QPkt := q.pkts.drop 4

/-- Occupied cells of a queue. -/
def Queue.fill (q : Queue) : Nat := (q.pkts.map QPkt.cells).sum

/-- A queue's limit_cells, and a link queue's limit_frames. -/
def Device.limitCells (d : Device) (k : Nat) : Nat :=
  if 72 ≤ k then d.cf (Reg.PKT_LQ_CFG (d.lqJ k)) 31 16 else d.cf (Reg.PKT_Q_CFG k) 31 16
def Device.limitFrames (d : Device) (k : Nat) : Nat := d.cf (Reg.PKT_LQ_CFG (d.lqJ k)) 7 0

/-- Cells of the packet buffer, and of the packet-overflow region of DRAM. -/
def onChipCells : Nat := 49152
def overflowCells : Nat := 4194304

/-- On-chip occupancy at or above spill_level is spilling; its start raises EV151. -/
def Device.spillUpdate (d : Device) : Device :=
  let now := decide (d.cf Reg.PKT_BUF_CTRL 15 0 ≤ d.pkt.cells)
  let was := d.pkt.spilling
  let d := d.onPkt fun p => { p with spilling := now }
  if now && !was then d.raise 151 0 else d

/-- Gives back the cells of a packet that has left (log 25). -/
def Device.freeCells (d : Device) (x : QPkt) : Device :=
  Device.spillUpdate (d.onPkt fun p =>
    if x.dram then { p with dramCells := p.dramCells - x.cells } else { p with cells := p.cells - x.cells })

/-- The three colours of R201. -/
inductive Colour where
  | green | yellow | red
deriving DecidableEq, Repr

/-- A packet newly put in this queue goes to DRAM (R193). -/
def Device.spills (d : Device) (k : Nat) : Bool :=
  decide (72 ≤ k ∧ d.cf Reg.PKT_BUF_CTRL 15 0 ≤ d.pkt.cells)

/-- The first reason of Table 8.1 for which a queue refuses a packet (R194). `dp` is the meter's
yellow_dp. -/
def Device.qRefusal (d : Device) (k : Nat) (x : QPkt) (col : Colour) (dp : Nat) : Option Nat :=
  let q := d.queue k
  let lim := d.limitCells k
  let c := x.cells
  if col = .red then some 2
  else if col = .green ∧ (lim < q.fill + c ∨ (72 ≤ k ∧ d.limitFrames k ≤ q.pkts.length)) then some 0
  else if col = .yellow ∧ lim * (4 - dp) < 4 * (q.fill + c) then some 1
  else if d.spills k then
    if d.domSt 8 ≠ 3 ∨ overflowCells < d.pkt.dramCells + c then some 3 else none
  else if onChipCells < d.pkt.cells + c then some 3 else none

/-- Places a packet at the tail of a queue. -/
def Device.qPush (d : Device) (k : Nat) (x : QPkt) : Device :=
  let dr := d.spills k
  let c := x.cells
  let x := { x with dram := dr, at_ := d.clk.now }
  let d := d.onQueue k fun q => { q with pkts := q.pkts ++ [x] }
  Device.spillUpdate (d.onPkt fun p =>
    if dr then { p with dramCells := p.dramCells + c } else { p with cells := p.cells + c })

/-- A packet arrives at a queue (R194). One that the queue's limit refuses may still be served by a dequeue of the same cycle. -/
def Device.enqueue (d : Device) (k : Nat) (x : QPkt) (col : Colour) (dp : Nat) : Device :=
  match d.qRefusal k x col dp with
  | none => d.qPush k x
  | some r =>
    let d := d.inc (Reg.PKT_QDROP_CNT r)
    if r = 3 then d.raise 152 0
    else if r = 2 then d
    else d.onCycle fun c => { c with tails := c.tails ++ [(k, x, col == .yellow, dp, r)] }

/-- A packet has left a queue: those that its limit refused in the same cycle are tested by the fill after that (R195). -/
def Device.tailRetry (d : Device) (k : Nat) : Device :=
  let mine := d.cycle.tails.filter fun y => y.1 == k
  let d := d.onCycle fun c => { c with tails := c.tails.filter fun y => y.1 != k }
  mine.foldl (fun d y =>
    (d.uncount (Reg.PKT_QDROP_CNT y.2.2.2.2)).enqueue k y.2.1 (if y.2.2.1 then .yellow else .green) y.2.2.2.1) d

/-- A copy or mirror arrives at a queue: refused, it is only counted (R181). -/
def Device.enqueueCopy (d : Device) (k : Nat) (x : QPkt) : Device :=
  match d.qRefusal k x .green 0 with
  | none => d.qPush k x
  | some _ => d.inc Reg.PKT_COPY_LOST_CNT

/-- A frame's packets go back to the heads of their queues and keep their cells (R195). -/
def Device.requeue (d : Device) : List (Nat × QPkt) → Device
  | [] => d
  | (k, x) :: r => (d.requeue r).onQueue k fun q => { q with pkts := x :: q.pkts }

/-- The packet of a station sequence number leaves its queue (R204). -/
def Device.dupDrop (d : Device) (k seq : Nat) : Device :=
  let gone := (d.queue k).pkts.filter fun x => x.seq == some seq
  let d := d.onQueue k fun q => { q with pkts := q.pkts.filter fun x => x.seq != some seq }
  (gone.foldl (fun d x => d.freeCells x) d).tailRetry k

/-- Empties a queue, counting its packets under reason `r`. -/
def Device.emptyQueue (d : Device) (k r : Nat) : Device :=
  let l := (d.queue k).pkts
  let d := d.onQueue k fun q => { q with pkts := [] }
  l.foldl (fun d x => (d.inc (Reg.PKT_QDROP_CNT r)).freeCells x) d

/-- Both queues of each link are emptied on release of a client (R195). -/
def Device.flushLinks (d : Device) (links : List Nat) : Device :=
  links.foldl (fun d h => (d.emptyQueue (lqKey h 0) 5).emptyQueue (lqKey h 1) 5) d

/-! ## Ports (Table 8.2) -/

/-- 1/33 Mb/s, in which every port rate is whole. -/
def laneRate33 (code : Nat) : Nat :=
  match code with
  | 1 => 40000
  | 2 => 165000
  | 3 => 330000
  | 4 => 825000
  | _ => 0

/-- port_rate of port code `p`. -/
def Device.portRate33 (d : Device) (p : Nat) : Nat :=
  if p < 9 then (if d.cb (Reg.LANE_ETH_CFG (p - 3)) 30 then 825000 else 330000)
  else if p = portRng then
    let r := d.lanes.rng
    laneRate33 r.rate * (b2n r.lane6 + b2n r.lane7)
  else 330000

/-- Wire length in bytes of a packet of `b` bytes; an Ethernet frame is padded to 60 bytes (R210). -/
def wireLen (p b : Nat) : Nat :=
  if p < 9 then max 60 b + 24 else if p = portRng then b + 16 else b

/-- An Ethernet port's state. -/
def Device.ethPort (d : Device) (e : Nat) : Eth := d.lanes.eth.get Eth.reset e

/-- The port can send: an Ethernet port while link_up is 1 (R211), the Range link while it is UP, KPR and
SPL while Keeper is in service; SPL hands Keeper one packet at a time. -/
def Device.portUp (d : Device) (p : Nat) : Bool :=
  if p < 9 then (d.ethPort (p - 3)).linkUp
  else if p = portRng then decide (d.lanes.rng.st = 2)
  else !d.domDown 1 && (p != portSpl || d.keep.splIn.isEmpty)

/-- What a port is sending. -/
def Device.egressOf (d : Device) (p : Nat) : Egress := d.pkt.egress.get Egress.idle p
def Device.onEgress (d : Device) (p : Nat) (f : Egress → Egress) : Device :=
  d.onPkt fun k => { k with egress := k.egress.upd Egress.idle p f }

/-! ## Gate lists (R198 to R200) -/

/-- Length of a bank of port `e`. -/
def Device.gateLen (d : Device) (e : Nat) (bankB : Bool) : Nat :=
  min 256 (if bankB then d.cf (Reg.PKT_GATE_CTRL e) 8 0 else d.cf (Reg.PKT_GATE_CTRL e) 24 16)

/-- Word of an entry. -/
def Packet.gateWord (p : Packet) (e : Nat) (bankB : Bool) (k : Nat) : Word :=
  p.gateMem.get 0 (512 * e + 256 * b2n bankB + k)

/-- The entries of a bank that are not skipped: index, gate states, interval in half ns. -/
def Device.gateList (d : Device) (e : Nat) (bankB : Bool) : List (Nat × Nat × Nat) :=
  ((List.range (d.gateLen e bankB)).map fun k =>
    let w := d.pkt.gateWord e bankB k
    (k, fld w 31 24, 128 * fld w 23 0)).filter fun x => x.2.2 != 0

/-- A port's gate state. -/
def Device.gate (d : Device) (e : Nat) : Gate := d.pkt.gates.get Gate.reset e
def Device.onGate (d : Device) (e : Nat) (f : Gate → Gate) : Device :=
  d.onPkt fun p => { p with gates := p.gates.upd Gate.reset e f }

/-- The list's cycle. -/
def gateCycle (l : List (Nat × Nat × Nat)) : Nat := (l.map fun x => x.2.2).sum

/-- The entry in force at `off` half ns after the cycle's start, and where in it that is. -/
def entryAt : List (Nat × Nat × Nat) → Nat → Option (Nat × Nat)
  | [], _ => none
  | (k, _, iv) :: r, off => if off < iv then some (k, off) else entryAt r (off - iv)

/-- The entry in force at a lamp instant, and the lamp instant at which it started (R198). -/
def Device.gateEntryAt (d : Device) (e lamp : Nat) : Nat × Nat :=
  let l := d.gateList e (d.gate e).bankB
  let cyc := gateCycle l
  match entryAt l (if cyc = 0 then 0 else lamp % sfLen % cyc) with
  | some (k, into) => (k, lamp - into)
  | none => (0, lamp)

/-- Port `p` has its gate list in force: gate_en, which takes effect while D6 is READY (R198, R263). -/
def Device.gateEn (d : Device) (p : Nat) : Bool := decide (p < 9) && d.domSt 6 == 3 && d.cb (Reg.PKT_GATE_CTRL (p - 3)) 31

/-- The gate of queue `n` of port `p` is open in the entry now in force. -/
def Device.gateOpen (d : Device) (p n : Nat) : Bool :=
  if d.gateEn p then
    let g := d.gate (p - 3)
    bitOf (d.pkt.gateWord (p - 3) g.bankB g.entry) (24 + n)
  else true

/-- Length of the run of entries with gate `n` open at the head of a list; none: all are open. -/
def openRun (n : Nat) : List (Nat × Nat × Nat) → Nat → Option Nat
  | [], _ => none
  | (_, st, iv) :: r, acc => if st / 2 ^ n % 2 = 1 then openRun n r (acc + iv) else some acc

/-- The lamp instant at which gate `n` of port `e` next closes, from an entry that is open; none: it stays
open (R199). Across a superframe boundary the close is found in the list in force from that boundary. -/
def Device.windowEnd (d : Device) (e n : Nat) : Option Nat :=
  let g := d.gate e
  let l := d.gateList e g.bankB
  let bound := (g.since / sfLen + 1) * sfLen
  let fromHere := l.dropWhile (fun x => decide (x.1 < g.entry)) ++ l.takeWhile (fun x => decide (x.1 < g.entry))
  let next := if g.swapAt = some (bound / sfLen) then d.gateList e (!g.bankB) else l
  match openRun n fromHere 0 with
  | some len => if g.since + len < bound then some (g.since + len) else
      (match openRun n next 0 with
       | some m => if m < sfLen then some (bound + m) else none
       | none => none)
  | none =>
    match openRun n next 0 with
    | some m => if m < sfLen then some (bound + m) else none
    | none => none

/-- The longest run of entries with gate `n` open in a list taken twice over. -/
def longestRun (n : Nat) : List (Nat × Nat × Nat) → Nat → Nat → Nat
  | [], cur, best => max cur best
  | (_, st, iv) :: r, cur, best =>
    if st / 2 ^ n % 2 = 1 then longestRun n r (cur + iv) best else longestRun n r 0 (max cur best)

/-- The longest window of gate `n` anywhere in the list in force; none: it never closes. -/
def Device.longestWindow (d : Device) (e n : Nat) : Option Nat :=
  let l := d.gateList e (d.gate e).bankB
  if l.all (fun x => x.2.1 / 2 ^ n % 2 == 1) && !l.isEmpty then none else some (longestRun n (l ++ l) 0 0)

/-! ## Credit shapers (R196) -/

/-- Shaper words of a queue. -/
def Device.shpLo (d : Device) (k : Nat) : Word :=
  d.cfg (if 72 ≤ k then Reg.PKT_LQ_SHP_LO (d.lqJ k) else Reg.PKT_SHP_CFG_LO k)
def Device.shpHi (d : Device) (k : Nat) : Word :=
  d.cfg (if 72 ≤ k then Reg.PKT_LQ_SHP_HI (d.lqJ k) else Reg.PKT_SHP_CFG_HI k)

/-- shaper_en, idle_slope in 1/33 Mb/s, burst in 1/16 bit. -/
def Device.shaperEn (d : Device) (k : Nat) : Bool := bitOf (d.shpLo k) 31
def Device.slope33 (d : Device) (k : Nat) : Nat :=
  let s := 33 * max 1 (fld (d.shpLo k) 14 0)
  if 72 ≤ k then s else min s (d.portRate33 (k / 8 + 3))
def Device.burst16 (d : Device) (k : Nat) : Int := 16 * fld (d.shpHi k) 23 0

/-- The queue of a port queue's key is transmitting. -/
def Device.sending (d : Device) (k : Nat) : Bool :=
  decide (k < 72) && match (d.egressOf (k / 8 + 3)).busy with
    | some (n, _) => n == k % 8
    | none => false

/-- The change of credit per half ns, in units of 1/(16 × 4125) bit. -/
def Device.creditRate (d : Device) (k : Nat) : Int :=
  if d.sending k then (d.slope33 k : Int) - d.portRate33 (k / 8 + 3)
  else if decide (k < 72) && !d.gateOpen (k / 8 + 3) (k % 8) then 0
  else d.slope33 k

/-- Credit, relative to the burst, moved on by `dt` half ns: up to the burst. -/
def creditMove (used rate : Int) (dt : Nat) : Int :=
  min 0 (used + rdiv (rate * dt) 4125)

/-- Moves the credit from `stamp` to `now`, charging each frame whose first symbol has come. -/
def creditRun (rate : Int) (now : Time) : List (Time × Time × Nat) → Int → Time → Int × List (Time × Time × Nat)
  | [], used, st => (creditMove used rate (now - st), [])
  | (t, f, bits) :: r, used, st =>
    if t ≤ now then creditRun rate now r (creditMove used rate (t - st) - 16 * bits) (max t st)
    else (creditMove used rate (now - st), (t, f, bits) :: r)

/-- Brings a queue's credit up to the present (log 25). -/
def Device.settle (d : Device) (k : Nat) : Device :=
  let q := d.queue k
  let r := creditRun (d.creditRate k) d.clk.now q.due q.used q.stamp
  d.onQueue k fun q => { q with used := r.1, due := r.2, stamp := d.clk.now }

/-- A queue's credit now, in 1/16 bit. -/
def Device.credit16 (d : Device) (k : Nat) : Int :=
  let q := d.queue k
  d.burst16 k + (creditRun (d.creditRate k) d.clk.now q.due q.used q.stamp).1

/-- A queue is credit-eligible. -/
def Device.creditOk (d : Device) (k : Nat) : Bool := !d.shaperEn k || decide (0 ≤ d.credit16 k)

/-- Inserts a cost by the instant of its first symbol. -/
def insertDue (x : Time × Time × Nat) : List (Time × Time × Nat) → List (Time × Time × Nat)
  | [] => [x]
  | y :: r => if y.1 ≤ x.1 then y :: insertDue x r else x :: y :: r

/-- A frame drawn from a link queue, with its planned start, will cost 8 × PHY length at its first symbol; a frame that is scheduled
anew costs it at its new first symbol. -/
def Device.chargeLink (d : Device) (k : Nat) (planned first : Time) (phyLen : Nat) : Device :=
  (d.settle k).onQueue k fun q => { q with due := insertDue (first, planned, 8 * phyLen) (q.due.filter fun x => x.2.1 != planned) }

/-- A frame that never started costs nothing. -/
def Device.unchargeLink (d : Device) (k : Nat) (planned : Time) (phyLen : Nat) : Device :=
  if (d.queue k).due.any fun x => x.2.1 == planned then
    (d.onQueue k fun q => { q with due := q.due.filter fun x => x.2.1 != planned }).settle k
  else (d.settle k).onQueue k fun q => { q with used := min 0 (q.used + 16 * (8 * phyLen : Nat)) }

/-- The queues of the Range link are brought up to the present, before its rate changes. -/
def Device.settleRng (d : Device) : Device := (List.range 8).foldl (fun d n => d.settle (pqKey portRng n)) d

/-! ## Timestamps of Ethernet frames (R224, R225) -/

/-- messageType and sequenceId of an IEEE 1588 event message. -/
def ptpEvent (data : Bytes) : Option (Nat × Nat) :=
  let p := parse 0x10000 false data data.length none
  let body := if p.ety = 0x88F7 then some p.l3
    else match p.ip, p.l4 with
      | some i, some (_, dp) => if i.proto = 17 ∧ dp = 319 then some (p.l4at + 8) else none
      | _, _ => none
  match body with
  | some o => if fieldAt data o 1 % 16 ≤ 3 then some (fieldAt data o 1 % 16, fieldAt data (o + 30) 2) else none
  | none => none

/-- Rate code of an Ethernet port. -/
def Device.ethRate (d : Device) (e : Nat) : Nat := if d.cb (Reg.LANE_ETH_CFG e) 30 then 4 else 3

/-- A timestamp with the lane's latency and adjustment (Table 10.1); `e` = 6 is lane 6 of the Range link (log 13). -/
def Device.laneStamp (d : Device) (e rate : Nat) (sent : Bool) (lamp : Nat) : Nat :=
  let lat : Int := Config.laneLatency rate sent
  let adj := if sent then sfld (d.cfg (Reg.LANE_TS_ADJ e)) 31 16 else sfld (d.cfg (Reg.LANE_TS_ADJ e)) 15 0
  ((lamp : Int) + (if sent then lat else -lat) + adj).toNat

/-- Pushes a timestamp, or counts it lost when the FIFO is full. -/
def Device.tsPush (d : Device) (x : TsEntry) : Device :=
  if d.lanes.ts.length < 64 then d.onLanes fun l => { l with ts := l.ts ++ [x] }
  else (d.inc Reg.LANE_TS_LOST_CNT).raise 220 0

/-- A sent event message that Keeper injected with ts_req: the first bit after the SFD leaves 64 bit times
after the frame's start. -/
def Device.stampSent (d : Device) (e : Nat) (x : QPkt) : Device :=
  match x.tsTag, ptpEvent x.data with
  | some tag, some (mt, _) =>
    let sfd := (rdiv (64 * 2000 * 33) (d.portRate33 (e + 3))).toNat
    d.tsPush ⟨true, e, d.laneStamp e (d.ethRate e) true (d.lampHn + sfd), mt, tag⟩
  | _, _ => d

/-! ## Frames of the Range link (R214, Table 9.3) -/

/-- Types of Range link frames. -/
def rtTrain : Nat := 1
def rtData : Nat := 2
def rtMirror : Nat := 3
def rtTime : Nat := 4
def rtKeep : Nat := 5

/-- A MIRROR channel's state. -/
def Device.mirror (d : Device) (ch : Nat) : MirChan := d.lanes.rng.mirror.get MirChan.reset ch

/-- ack_seq: the highest in-order sequence number received on the MIRROR channel of this channel byte; while
none has been received its value is open (log 2) (log 27). -/
def Device.ackSeq (d : Device) (ch : Nat) : Nat :=
  if (d.mirror ch).rxNext = 0 then d.freeVal % 4294967296 else (d.mirror ch).rxNext - 1

/-- The bytes of a frame. -/
def rngBytes (ty ch seq ack : Nat) (payload : Bytes) : Bytes :=
  let b := beBytes 1 ty ++ beBytes 1 ch ++ beBytes 2 payload.length ++ beBytes 4 seq ++ payload ++ beBytes 4 ack
  b ++ beBytes 4 (crc32c b)

/-- A frame striped across lanes 6 and 7 in blocks of 64 bits, lane 6 first (R213) (log 73). -/
def stripe (lane6 lane7 : Bool) (data : Bytes) : List Bytes × List Bytes :=
  let l := (List.range (ceilDiv data.length 8)).map fun i => ((data.drop (8 * i)).take 8, i)
  if lane6 && lane7 then ((l.filter fun x => x.2 % 2 == 0).map (·.1), (l.filter fun x => x.2 % 2 == 1).map (·.1))
  else if lane7 then ([], l.map (·.1)) else (l.map (·.1), [])

/-- A frame's bytes go out: a transmitter in electrical idle first sends the training burst (R219) (log 73). -/
def Device.rngOut (d : Device) (data : Bytes) : Device :=
  let r := d.lanes.rng
  let d := if r.txIdle then d.emit (.burst 128) else d
  let x := stripe r.lane6 r.lane7 data
  (d.emit (.rng data x.1 x.2)).onRng fun r => { r with txIdle := false, lastTx := d.clk.now }

/-- Sends a frame of a type that is not retransmitted, with the next sequence number of its type and
channel; the transmitter leaves idle to do so (R219). -/
def Device.rngSend (d : Device) (ty ch : Nat) (payload : Bytes) : Device :=
  let i := 16 * ty + ch
  let seq := d.lanes.rng.seqs.get 0 i
  let d := d.rngOut (rngBytes ty ch seq (d.ackSeq ch) payload)
  (d.onRng fun r => { r with seqs := r.seqs.set 0 i ((seq + 1) % 4294967296) }).freeNext

/-! ## The port scheduler (R197) -/

/-- Wire time of `bytes` fits before the lamp instant `until_`. -/
def fitsWindow (rate33 lamp until_ bytes : Nat) : Bool :=
  decide (8 * bytes * 2000 * 33 ≤ (until_ - lamp) * rate33) && decide (lamp ≤ until_)

/-- The head of queue `n` of port `p` may go now. -/
def Device.mayGo (d : Device) (p n : Nat) : Bool :=
  match (d.queue (pqKey p n)).pkts.head? with
  | none => false
  | some x =>
    d.creditOk (pqKey p n) && d.gateOpen p n &&
      (if d.gateEn p then
        match d.windowEnd (p - 3) n with
        | some w => fitsWindow (d.portRate33 p) d.lampHn w (wireLen p x.data.length)
        | none => true
       else true)

/-- Drops heads longer than any window of their queue (R199). -/
def Device.dropOversize (d : Device) (p n : Nat) : List QPkt → Device
  | [] => d
  | x :: r =>
    match d.longestWindow (p - 3) n with
    | none => d
    | some w =>
      if fitsWindow (d.portRate33 p) 0 w (wireLen p x.data.length) then d
      else
        let d := d.onQueue (pqKey p n) fun q => { q with pkts := r }
        Device.dropOversize (((d.inc (Reg.PKT_QDROP_CNT 4)).raise 153 0).freeCells x) p n r

/-- The eight queues of a port with a gate list lose their oversize heads. -/
def Device.sweepOversize (d : Device) (p : Nat) : Device :=
  if d.gateEn p then
    (List.range 8).foldl (fun d n => d.dropOversize p n (d.queue (pqKey p n)).pkts) d
  else d

/-- A queue of an Ethernet port loses the oversize frames at its head: a frame has reached it, or the list has changed. -/
def Device.headCheck (d : Device) (k : Nat) : Device :=
  if k < 48 ∧ d.gateEn (k / 8 + 3) then d.dropOversize (k / 8 + 3) (k % 8) (d.queue k).pkts else d

/-- A packet, or a copy or mirror, is put to a queue. -/
def Device.arrive (d : Device) (k : Nat) (x : QPkt) (col : Colour) (dp : Nat) : Device := (d.enqueue k x col dp).headCheck k
def Device.arriveCopy (d : Device) (k : Nat) (x : QPkt) : Device := (d.enqueueCopy k x).headCheck k

/-- What a frame's start does on the wire side: an Ethernet event message is timestamped, and the Range link's
transmitter leaves idle (R219) (log 25). -/
def Device.frameStart (d : Device) (p : Nat) (x : QPkt) : Device :=
  if p < 9 then d.stampSent (p - 3) x
  else if p = portRng ∧ d.lanes.rng.txIdle then (d.emit (.burst 128)).onRng fun r => { r with txIdle := false }
  else d

/-- PORT_SELECT: an idle port takes the highest queue whose head may go (R197). -/
def portSelect (p : Fin 9) (d : Device) : Device :=
  let c := p.val + 3
  let d := d.sweepOversize c
  if (d.egressOf c).busy.isSome || !d.portUp c then d
  else
    match [7, 6, 5, 4, 3, 2, 1, 0].find? (d.mayGo c) with
    | none => d
    | some n =>
      let k := pqKey c n
      match (d.queue k).pkts with
      | [] => d
      | x :: r =>
        let d := (d.settle k).onQueue k fun q => { q with pkts := r }
        (((d.onEgress c fun _ => ⟨some (n, x), d.clk.now⟩).frameStart c x).headCheck k).tailRetry k

/-- Where a frame goes when its last byte has left the port. -/
def Device.deliver (d : Device) (c n : Nat) (x : QPkt) : Device :=
  if c < 9 then
    let b := x.data ++ zeros (60 - x.data.length)
    (d.emit (.eth (c - 3) (b ++ fcsBytes b))).inc (Reg.LANE_ETH_TX_OK_CNT (c - 3))
  else if c = portRng then d.rngSend rtData n x.data
  else if c = portKpr then d.emit (.keeper n x.data x.copy)
  else d.onKeep fun k => { k with splIn := k.splIn ++ [x] }

/-- Time on the wire of a packet of `b` bytes, the gap to the next frame included (Table 8.2, R210). -/
def Device.wireTime (d : Device) (c b : Nat) : Nat := ceilDiv (8 * wireLen c b * 2000 * 33) (d.portRate33 c)

/-- PORT_FRAME_END: the frame has left at the end of its time on the wire, and its queue's credit changes back to idle_slope (R196)
(log 25). -/
def portFrameEnd (p : Fin 9) (d : Device) : Device :=
  let c := p.val + 3
  match (d.egressOf c).busy with
  | none => d
  | some (n, x) =>
    if d.clk.now < (d.egressOf c).started + d.wireTime c x.data.length then d
    else
    let d := d.settle (pqKey c n)
    ((d.onEgress c fun _ => Egress.idle).deliver c n x).freeCells x

/-! ## Gate list commands -/

/-- The eight queues of an Ethernet port are brought up to the present before its gates change. -/
def Device.settlePort (d : Device) (e : Nat) : Device :=
  (List.range 8).foldl (fun d n => d.settle (pqKey (e + 3) n)) d

/-- GATE_ENTRY_CHANGE: the entry now in force (R198). -/
def Device.gateAdvance (d : Device) (e : Nat) : Device :=
  let d := d.settlePort e
  let x := d.gateEntryAt e d.lampHn
  (d.onGate e fun g => { g with entry := x.1, since := x.2 }).sweepOversize (e + 3)

/-- GATE_ENTRY_CHANGE on port `e`. -/
def gateEntryChange (e : Fin 6) (d : Device) : Device := d.gateAdvance e.val

/-- A write of PKT_GATE_DATA: to the active bank it is refused, but while D6 applies its sections (R200, R263). -/
def Device.gateDataPut (d : Device) (v : Word) : Device :=
  let d := d.setCfg Reg.PKT_GATE_DATA v
  let a := d.cfg Reg.PKT_GATE_ADDR
  let e := fld a 11 9
  let bankB := bitOf a 8
  if 6 ≤ e then d
  else if (d.gate e).bankB = bankB ∧ d.domSt 6 ≠ 2 ∧ d.domSt 6 ≠ 4 then d.raise 155 0
  else d.onPkt fun p => { p with gateMem := p.gateMem.set 0 (512 * e + 256 * b2n bankB + fld a 7 0) v }

/-- GATE_DATA_WRITE. -/
def gateDataWrite (v : Word) (d : Device) : Device := d.keeperAccess Reg.PKT_GATE_DATA fun d => d.gateDataPut v

/-- A write of swap = 1 on port `e` (R200). -/
def Device.gateSwapReq (d : Device) (e : Nat) : Device :=
  let g := d.gate e
  if g.swapAt.isSome || gateCycle (d.gateList e (!g.bankB)) == 0 then d.raise 155 0
  else d.onGate e fun g => { g with swapAt := some (ceilDiv (d.lampHn + msec) sfLen) }

/-- GATE_SWAP. -/
def gateSwap (e : Fin 6) (d : Device) : Device :=
  d.keeperAccess (Reg.PKT_GATE_CTRL e.val) fun d => d.gateSwapReq e.val

/-- A superframe boundary of lamp time: due swaps take effect and every list restarts at entry 0 (R198). -/
def Device.gateBoundary (d : Device) (sf : Nat) : Device :=
  (List.range 6).foldl (fun d e =>
    let d := d.settlePort e
    let due := match (d.gate e).swapAt with
      | some n => decide (n ≤ sf)
      | none => false
    let d := if due then (d.onGate e fun g => { g with bankB := !g.bankB, swapAt := none }).raise 154 0 else d
    let x := d.gateEntryAt e (sf * sfLen)
    (d.onGate e fun g => { g with entry := x.1, since := x.2 }).sweepOversize (e + 3)) d

/-! ## Meters (R201, R202) -/

/-- One decision: colour, and the meter after it. Tokens are in 1/125000 byte, so that one unit of cir or
pir gives one token a nanosecond. -/
def Meter.decide (m : Meter) (ns : Nat) (now : Time) (bytes : Nat) (inYellow : Bool) : Colour × Meter :=
  let cbs := m.cbs * 125000
  let pbs := max m.pbs m.cbs * 125000
  let tc := if m.fresh then cbs else min cbs (m.tc + m.cir * ns)
  let tp := if m.fresh then pbs else min pbs (m.tp + max m.pir m.cir * ns)
  let b := bytes * 125000
  let m := { m with tc := tc, tp := tp, last := now, fresh := false }
  if tp < b then (.red, m)
  else if (m.aware && inYellow) || Decidable.decide (tc < b) then (.yellow, { m with tp := tp - b })
  else (.green, { m with tp := tp - b, tc := tc - b })

/-- The counter of a colour of meter `i`: the registers of Table 8.5 show that of the meter in PKT_MTR_SEL (R205) (log 25). -/
def mtrCnt (a i : Nat) : Nat := a + 4294967296 * i

/-- Meters a packet with meter `i`, and counts its colour. A meter written in this cycle still decides by what it was (R202). -/
def Device.meterPkt (d : Device) (i bytes : Nat) (inYellow : Bool) : Colour × Nat × Device :=
  let old := d.cycle.meters.find? fun x => x.1 == i
  let m := (old.map Prod.snd).getD (d.pkt.meters.get Meter.zero i)
  let r := m.decide (d.clk.now / 2 - m.last / 2) d.clk.now bytes inYellow
  let d := if old.isSome then d.onCycle fun c => { c with meters := c.meters.put i r.2 }
    else d.onPkt fun p => { p with meters := p.meters.set Meter.zero i r.2 }
  (r.1, m.dp, d.inc (mtrCnt (match r.1 with
    | .green => Reg.PKT_MTR_GREEN_CNT
    | .yellow => Reg.PKT_MTR_YELLOW_CNT
    | .red => Reg.PKT_MTR_RED_CNT) i))

/-- The selected meter. -/
def Device.mtrSel (d : Device) : Nat := d.cf Reg.PKT_MTR_SEL 11 0

/-- The settings in the RATE and BS registers go to the selected meter. -/
def Device.meterStore (d : Device) (aware : Bool) (dp : Nat) : Device :=
  let m : Meter := { cir := d.cf Reg.PKT_MTR_RATE_C 23 0, pir := d.cf Reg.PKT_MTR_RATE_P 23 0, cbs := d.cf Reg.PKT_MTR_CBS 23 0, pbs := d.cf Reg.PKT_MTR_PBS 23 0, aware := aware, dp := dp, tc := 0, tp := 0, last := d.clk.now, fresh := true }
  let i := d.mtrSel
  let was := (d.cycle.meters.find? fun x => x.1 == i).isSome
  let d := if was then d else d.onCycle fun c => { c with meters := c.meters.put i (d.pkt.meters.get Meter.zero i) }
  d.onPkt fun p => { p with meters := p.meters.set Meter.zero i m }

/-- The selected meter's settings go to the RATE and BS registers. -/
def Device.meterLoad (d : Device) : Device :=
  let m := d.pkt.meters.get Meter.zero d.mtrSel
  (((d.setCfg Reg.PKT_MTR_RATE_C (w32 m.cir)).setCfg Reg.PKT_MTR_RATE_P (w32 m.pir)).setCfg Reg.PKT_MTR_CBS
    (w32 (b2n m.aware * 0x80000000 + m.dp * 0x20000000 + m.cbs))).setCfg Reg.PKT_MTR_PBS (w32 m.pbs)

/-- METER_WRITE (R202). -/
def meterWrite (aware : Bool) (dp : BitVec 2) (d : Device) : Device :=
  d.keeperAccess Reg.PKT_MTR_CMD fun d => d.meterStore aware dp.toNat

/-- METER_READ (R202, Table 8.7). -/
def meterRead (d : Device) : Device := d.keeperAccess Reg.PKT_MTR_CMD fun d => d.meterLoad

/-! ## Meanings -/

/-- PORT_SELECT (R197). -/
def execPortSelect (t : Time) (p : Fin 9) (s : State) : Host.Outcome State Fault Refusal := s.act t (portSelect p)

/-- PORT_FRAME_END (R196). -/
def execPortFrameEnd (t : Time) (p : Fin 9) (s : State) : Host.Outcome State Fault Refusal := s.act t (portFrameEnd p)

/-- GATE_ENTRY_CHANGE (R198). -/
def execGateEntryChange (t : Time) (e : Fin 6) (s : State) : Host.Outcome State Fault Refusal := s.act t (gateEntryChange e)

/-- GATE_DATA_WRITE (R200). -/
def execGateDataWrite (t : Time) (v : Word) (s : State) : Host.Outcome State Fault Refusal := s.act t (gateDataWrite v)

/-- GATE_SWAP (R200). -/
def execGateSwap (t : Time) (e : Fin 6) (s : State) : Host.Outcome State Fault Refusal := s.act t (gateSwap e)

/-- METER_WRITE (R202). -/
def execMeterWrite (t : Time) (colourAware : Bool) (yellowDp : BitVec 2) (s : State) : Host.Outcome State Fault Refusal :=
  s.act t (meterWrite colourAware yellowDp)

/-- METER_READ (R202). -/
def execMeterRead (t : Time) (s : State) : Host.Outcome State Fault Refusal := s.act t meterRead

end Sys2Proof.Machine
end

