-- ==== Sys2Proof/Machine/Packet.lean ====
section
/-! DEFINITION. The packet pipeline: entry, passes, action resolution, recirculation, table commands, the
learn FIFO and rule-set generations (chapter 7). -/

namespace Sys2Proof.Machine

/-! ## Entry (R166, R168, R17) -/

/-- Puts a packet among those that wait at an ingress port, while D6 is in service (log 26). -/
def Device.ingressPush (d : Device) (x : Pkt) : Device :=
  if d.domDown 6 then d
  else d.onPkt fun p => { p with ingress := p.ingress.upd [] x.port fun l => l ++ [x] }

/-- A packet that waits at a port, before its first pass. -/
def Pkt.fresh (port : Nat) (data : Bytes) : Pkt where
  port := port
  pass := 1
  gen := 0
  data := data
  link := none
  client := none
  ftype := tyData
  rep := none
  action := none
  tsTag := none
  bound := none
  vni := none
  outer := none

/-- An injection as it waits at KPR (R169) (log 26). -/
def injPkt (i : Injection) : Pkt :=
  let x := Pkt.fresh portKpr i.data
  { x with action := if i.directed then some i.action else none, tsTag := if i.tsReq then some i.tag else none }

/-- The ingress ports in round-robin order from the pointer. -/
def rrOrder (ptr : Nat) : List Nat := (List.range 12).map fun i => (ptr + i) % 12

/-- One entry opportunity for new ingress: the first port from the pointer with a packet enters it, stamped
with the current generation, unless a recirculated packet waits (R168, R185). -/
def Device.enterNext (d : Device) : Device :=
  if !d.pkt.recirc.isEmpty || d.domSt 6 != 3 then d
  else match (rrOrder d.pkt.rrPtr).find? fun p => !(d.pkt.ingress.get [] p).isEmpty with
    | none => d
    | some p =>
      match d.pkt.ingress.get [] p with
      | [] => d
      | x :: r => (d.onCycle fun c => { c with entered := true }).onPkt fun k =>
          { k with ingress := k.ingress.set [] p r, rrPtr := (p + 1) % 12, inPipe := k.inPipe ++ [{ x with gen := k.gen }] }

/-- PACKET_ENTRY: a packet that Keeper injects joins those that wait at KPR, and the opportunity is used. -/
def packetEntry (inj : Option Injection) (d : Device) : Device :=
  if d.domDown 6 then d
  else
    let d := match inj with
      | some i => d.ingressPush (injPkt i)
      | none => d
    d.enterNext

/-- RECIRC_ENTRY: the packet on the recirculation path enters pass 2 with its own generation (R183, R185). -/
def recircEntry (d : Device) : Device :=
  match d.pkt.recirc with
  | [] => d
  | x :: r => if d.domSt 6 ≠ 3 then d else (d.onPkt fun k => { k with recirc := r, inPipe := k.inPipe ++ [x] }).inc Reg.PKT_RECIRC_CNT

/-! ## A pass: parse and probes -/

/-- PKT_PORT_CFG of a port. -/
def Device.portCfg (d : Device) (p : Nat) : Word := d.cfg (Reg.PKT_PORT_CFG p)

/-- The parse of a packet's pass. A REPORT body and a directed packet are not parsed (R167, R169). -/
def Device.parsePkt (d : Device) (x : Pkt) : Option Parsed :=
  if x.rep.isSome || x.action.isSome then none
  else some (parse (d.cf Reg.PKT_PARSE_CTRL 31 16) (d.cb Reg.PKT_PARSE_CTRL 15) x.data (x.bound.getD x.data.length) x.outer)

/-- Counters, event and PKT_PARSE_LAST of a parse (R173). -/
def Device.parseDone (d : Device) (x : Pkt) (p : Parsed) : Device :=
  if p.code = prOk then d.inc Reg.PKT_PARSE_OK_CNT
  else
    let last := w32 (x.port * 0x10000000 + (x.pass - 1) * 0x08000000 + p.code * 0x10000 + p.stop % 512)
    let d := d.onPkt fun k => { k with parseLast := last }
    if p.code = prInc then (d.inc Reg.PKT_PARSE_INC_CNT).raise 145 0
    else (d.inc (Reg.PKT_PARSE_FAIL_CNT (p.code - 0x10))).raise 144 0

/-- A hit with its precedence index: 0 ACL, 1 flow, 2 host, 3 client, 4 MAC, 5 default (R179). -/
structure Hit where
  prec : Nat
  action : DWord
  dmac : Nat
  ext : Nat
deriving DecidableEq, Repr

/-- A table entry as a hit. -/
def Entry.asHit (e : Entry) (prec : Nat) : Hit := ⟨prec, e.action, e.dmac, e.ext⟩

/-- The default action of a port in a generation: the current one's, or the one's before it (R185). -/
def Device.defaultHit (d : Device) (x : Pkt) : Hit :=
  let a := if x.gen = d.pkt.gen then d.pkt.defs.get actionDrop x.port else d.pkt.defsOld.get actionDrop x.port
  ⟨5, a, 0, 0⟩

/-- One probe, adding its hit. -/
def Device.probeHit (d : Device) (x : Pkt) (t ty prec : Nat) (key : Option Bytes) : List Hit × Device :=
  match key with
  | none => ([], d)
  | some k =>
    match d.lookup t x.gen ty k with
    | (some e, d) => ([e.asHit prec], d)
    | (none, d) => ([], d)

/-- The bridge domain of a packet: bd_type and bd (R176). -/
def Device.bridge (d : Device) (x : Pkt) (p : Parsed) : Bool × Nat :=
  match x.vni with
  | some v => (true, v)
  | none => (false, match p.vlans with
    | tci :: _ => tci % 4096
    | [] => fld (d.portCfg x.port) 11 0)

/-- The key of the ACL probe, with its key type (R167, R176). -/
def Device.aclKey (d : Device) (x : Pkt) (p : Option Parsed) : Option (Nat × Bytes) :=
  let cfg := d.portCfg x.port
  if !bitOf cfg 31 then none
  else match p with
    | none =>
      if fld cfg 30 29 = 0 then
        some (6, keyAclMac x.port false (fld cfg 11 0)
          ([0xFF, 0xFF, 0x00, BitVec.ofNat 8 x.port] ++ beBytes 2 (x.client.getD 0)))
      else none
    | some p =>
      match fld cfg 30 29, p.ip with
      | 0, _ => if p.eth then some (6, keyAclMac x.port (d.bridge x p).1 (d.bridge x p).2 (slice x.data 6 6)) else none
      | 1, some i => some (7, keyAclIp x.port i i.dst)
      | 2, some i => some (8, keyAclIp x.port i i.src)
      | 3, some i => some (9, keyAclL4 x.port i.proto ((p.l4.map Prod.snd).getD 0))
      | _, _ => none

/-- A learn post (R177). A pop of the same cycle makes no room for it (R190). -/
def Device.learnPost (d : Device) (x : Learn) : Device :=
  if d.pkt.learn.length + d.cycle.pops < 256 then d.onPkt fun p => { p with learn := p.learn ++ [x] }
  else (d.inc Reg.PKT_LEARN_LOST_CNT).raise 148 0

/-- The source MAC probe, and the post on a miss (R176, R177). -/
def Device.learnProbe (d : Device) (x : Pkt) (p : Parsed) : Device :=
  if p.eth && bitOf (d.portCfg x.port) 28 then
    let bd := d.bridge x p
    let mac := fieldAt x.data 6 6
    match d.lookup 0 x.gen 0 (keyMac bd.1 bd.2 mac) with
    | (some _, d) => d
    | (none, d) => d.learnPost ⟨x.port, bd.1, bd.2, mac, x.link⟩
  else d

/-- The probes of a pass (R176), and its hits in precedence order, without the default. -/
def Device.probes (d : Device) (x : Pkt) (p : Option Parsed) : List Hit × Device :=
  let ok := match p with
    | some q => decide (q.code = prOk)
    | none => true
  if !ok || x.action.isSome then ([], d)
  else
    let inner := decide (x.pass = 2)
    let macKey := match p with
      | some q => if q.eth then some (keyMac (d.bridge x q).1 (d.bridge x q).2 (fieldAt x.data 0 6)) else none
      | none => none
    let ip := match p with
      | some q => q.ip.map fun i => (i, q.l4)
      | none => none
    let v6 := match ip with
      | some (i, _) => i.v6
      | none => false
    let acl := d.aclKey x p
    let a := d.probeHit x 3 ((acl.map Prod.fst).getD 6) 0 (acl.map Prod.snd)
    let f := a.2.probeHit x 1 (if v6 then 2 else 1) 1 (ip.map fun y => keyFlow y.1 y.2 inner)
    let h := f.2.probeHit x 1 (if v6 then 4 else 3) 2 (ip.map fun y => keyHost y.1 inner)
    let c := h.2.probeHit x 2 5 3 (if x.port ≤ 2 then x.client.map keyClient else none)
    let m := c.2.probeHit x 0 0 4 macKey
    let d := match p with
      | some q => m.2.learnProbe x q
      | none => m.2
    (a.1 ++ f.1 ++ h.1 ++ c.1 ++ m.1, d)

/-! ## Action resolution (R179 to R182) -/

/-- The hits up to and including the first whose disposition is not NONE. -/
def upToDisp : List Hit → List Hit
  | [] => []
  | h :: r => if aDisp h.action = 0 then h :: upToDisp r else [h]

/-- The queued form of a packet. -/
def Pkt.queued (x : Pkt) (data : Bytes) (policy : Nat) : QPkt :=
  ⟨data, 0, false, policy, x.rep, x.tsTag, [], 0, none, none⟩

/-- A copy to Keeper of the packet as it stands at the end of the pass (R181) (log 23). -/
def Device.copyToKeeper (d : Device) (x : Pkt) (data : Bytes) (code prec : Nat) : Device :=
  let q := x.queued data 0
  d.arriveCopy (pqKey portKpr (d.cf Reg.PKT_COPY_CFG 10 8)) { q with tsTag := none, copy := some (x.pass, x.gen, code, prec) }

/-- A mirror (R181): to a radio port, or to a port code not used, none is made (log 23). -/
def Device.mirrorTo (d : Device) (x : Pkt) (data : Bytes) (port : Nat) : Device :=
  if port < 3 ∨ 11 < port then d
  else
    let q := x.queued data 0
    d.arriveCopy (pqKey port (d.cf Reg.PKT_COPY_CFG 2 0)) { q with tsTag := none }

/-- A drop with a reason of Table 7.7. -/
def Device.pktDrop (d : Device) (r : Nat) : Device :=
  let d := d.inc (Reg.PKT_DROP_CNT r)
  if r = 1 then d.raise 149 0 else if r = 5 then d.raise 150 0 else d

/-- The IPv4 header checksum of a header whose checksum bytes are 0. -/
def ipChecksum (hdr : Bytes) : Nat :=
  let s := ((List.range (hdr.length / 2)).map fun i => fieldAt hdr (2 * i) 2).sum
  let f := s % 65536 + s / 65536
  65535 - (f % 65536 + f / 65536)

/-- TTL or hop limit less 1, the IPv4 checksum recomputed (R180). -/
def ttlDec (data : Bytes) (i : IpInfo) : Bytes :=
  if i.v6 then splice data (i.pos + 7) (beBytes 1 (fieldAt data (i.pos + 7) 1 - 1))
  else
    let len := fieldAt data i.pos 1 % 16 * 4
    let y := splice data (i.pos + 8) (beBytes 1 (fieldAt data (i.pos + 8) 1 - 1))
    let y := splice y (i.pos + 10) (zeros 2)
    splice y (i.pos + 10) (beBytes 2 (ipChecksum (slice y i.pos len)))

/-- TTL or hop limit of a header. -/
def ttlOf (data : Bytes) (i : IpInfo) : Nat := fieldAt data (i.pos + (if i.v6 then 7 else 8)) 1

/-- Source MAC of an egress port. -/
def Device.portMac (d : Device) (p : Nat) : Nat :=
  d.cf (Reg.PKT_PORT_MAC_HI p) 15 0 * 4294967296 + (d.cfg (Reg.PKT_PORT_MAC_LO p)).toNat

/-- VLAN edit of an Ethernet frame with `n` tags. `pri` is the priority and DEI of a pushed tag, which the
specification does not give (log 2) (log 27). -/
def vlanEdit (data : Bytes) (n op vid tpid pri : Nat) : Bytes :=
  if op = 1 then data.take 12 ++ beBytes 2 tpid ++ beBytes 2 (pri % 16 * 4096 + vid) ++ data.drop 12
  else if op = 2 ∧ 0 < n then data.take 12 ++ data.drop 16
  else if op = 3 ∧ 0 < n then splice data 14 (beBytes 2 (fieldAt data 14 2 / 4096 * 4096 + vid))
  else data

/-- VLAN tags of a frame, at most two, by its ethertypes alone. -/
def rawTags (data : Bytes) : Nat :=
  let tag (o : Nat) : Bool := fieldAt data o 2 == 0x8100 || fieldAt data o 2 == 0x88A8
  if !tag 12 then 0 else if tag 16 then 2 else 1

/-- TPID of a tag pushed toward an egress port. -/
def Device.pushTpid (d : Device) (port : Nat) : Nat := if bitOf (d.portCfg port) 26 then 0x88A8 else 0x8100

/-- The packet as FORWARD queues it (R180); of a directed packet, which is not parsed, the VLAN edit of its own action (R169)
(log 23). -/
def Device.rewrite (d : Device) (x : Pkt) (p : Option Parsed) (h : Hit) : Bytes :=
  match p with
  | none =>
    if x.action.isSome then vlanEdit x.data (rawTags x.data) (aVlanOp h.action) (aVlan h.action) (d.pushTpid (aPort h.action)) d.freeVal
    else x.data
  | some q =>
    let y := match q.ip with
      | some i => if bitOf (w32 h.ext) 6 then ttlDec x.data i else x.data
      | none => x.data
    if q.eth then
      let y := if bitOf (w32 h.ext) 7 then splice y 0 (beBytes 6 h.dmac ++ beBytes 6 (d.portMac (aPort h.action))) else y
      vlanEdit y q.vlans.length (aVlanOp h.action) (aVlan h.action) (d.pushTpid (aPort h.action)) d.freeVal
    else y

/-- A twin in STANDBY, STARTING or ISOLATED redirects a FORWARD to a radio port to RNG (R299). -/
def Device.redirects (d : Device) : Bool := d.twin.role == 1 || d.twin.role == 3 || d.twin.role == 4

/-- The first reason of Table 7.7 for which FORWARD drops a packet (R180). -/
def Device.forwardDrop (d : Device) (x : Pkt) (p : Option Parsed) (h : Hit) : Option Nat :=
  let a := h.action
  let port := aPort a
  let l := d.linkOf (aLink a)
  if 11 < port then some 1
  else if port < 3 ∧ d.redirects then (if d.lanes.rng.st = 2 then none else some 1)
  else if port < 3 ∧ (!l.used ∨ bandNum l.band ≠ port) then some 1
  else if port = x.port ∧ 3 ≤ port ∧ port < 9 ∧ !bitOf (d.portCfg port) 27 then some 2
  else match p with
    | none => if x.action.isSome ∧ aVlanOp a = 1 ∧ rawTags x.data = 2 then some 3 else none
    | some q =>
      if aVlanOp a = 1 ∧ q.eth ∧ q.vlans.length = 2 then some 3
      else match q.ip with
        | some i => if bitOf (w32 h.ext) 6 ∧ ttlOf x.data i ≤ 1 then some 4 else none
        | none => none

/-- The queue FORWARD names. -/
def Device.fwdKey (d : Device) (a : DWord) : Nat :=
  if aPort a < 3 && d.redirects then pqKey portRng (aQueue a)
  else if aPort a < 3 then lqKey (aLink a) (aQueue a % 2) else pqKey (aPort a) (aQueue a)

/-- FORWARD: edits, metering and the queue (R180, R182). -/
def Device.forward (d : Device) (x : Pkt) (p : Option Parsed) (y : Bytes) (h : Hit) (meter : Option Nat) : Device :=
  let d := if aVlanOp h.action = 1 then d.freeNext else d
  let q := x.queued y (h.ext / 16 % 4)
  let k := d.fwdKey h.action
  match meter with
  | none => d.arrive k q .green 0
  | some i =>
    let yellow := match p with
      | some q => match q.vlans with
        | tci :: _ => decide (tci / 4096 % 2 = 1)
        | [] => false
      | none => false
    let r := d.meterPkt i y.length yellow
    r.2.2.arrive k q r.1 r.2.1

/-- RECIRC of pass 1 (R183): the packet without its outer headers waits for pass 2. -/
def Device.recircPush (d : Device) (x : Pkt) (q : Parsed) : Device :=
  let y : Pkt := { x with pass := 2, data := x.data.drop q.inner, bound := some (q.limit - q.inner), vni := q.vni, outer := q.tun }
  d.onPkt fun k => { k with recirc := k.recirc ++ [y] }

/-- The decap of a RECIRC names what ended pass 1. -/
def decapOk (a : DWord) (q : Parsed) : Bool :=
  (aDecap a == 1 && q.vni.isSome) || (aDecap a == 2 && q.tun.isSome)

/-- The packet as it stands at the end of the pass: edited where FORWARD takes it (R181) (log 23). -/
def Device.endData (d : Device) (x : Pkt) (p : Option Parsed) (h : Hit) : Bytes :=
  if aDisp h.action = 2 ∧ d.forwardDrop x p h = none then d.rewrite x p h else x.data

/-- Applies the disposition of the deciding hit; `y` is the packet at the end of the pass. -/
def Device.dispose (d : Device) (x : Pkt) (p : Option Parsed) (y : Bytes) (h : Hit) (meter : Option Nat) (copied : Bool) : Device :=
  match aDisp h.action with
  | 2 =>
    match d.forwardDrop x p h with
    | some r =>
      let d := d.pktDrop r
      if r = 4 ∧ !copied then d.copyToKeeper x y prOk h.prec else d
    | none => d.forward x p y h meter
  | 3 =>
    if x.pass = 2 then d.pktDrop 5
    else match p with
      | some q => if q.code = prOk ∧ decapOk h.action q then d.recircPush x q else d.pktDrop 6
      | none => d.pktDrop 6
  | 0 => d.pktDrop 0
  | 1 => d.pktDrop 0
  | _ => d.pktDrop 1

/-- Resolution of one pass (R179) (log 23). -/
def Device.resolve (d : Device) (x : Pkt) : Device :=
  let p := d.parsePkt x
  let d := match p with
    | some q => d.parseDone x q
    | none => d
  let code := match p with
    | some q => q.code
    | none => prOk
  let r := d.probes x p
  let d := r.2
  let hits := match x.action with
    | some a => [⟨5, a, 0, 0⟩]
    | none => r.1 ++ [d.defaultHit x]
  let used := upToDisp hits
  let h := (used.getLast?).getD (d.defaultHit x)
  let copyBy := used.find? fun h => aCopy h.action
  let y := d.endData x p h
  let d := match copyBy with
    | some c => d.copyToKeeper x y code c.prec
    | none => d
  let d := match used.find? fun h => aMirror h.action with
    | some m => d.mirrorTo x y (aMirrorPort m.action)
    | none => d
  d.dispose x p y h ((used.find? fun h => aMeterEn h.action).map fun h => aMeter h.action) copyBy.isSome

/-- PASS_RESOLVE: the packet that entered first resolves. -/
def passResolve (d : Device) : Device :=
  match d.pkt.inPipe with
  | [] => d
  | x :: r => (d.onPkt fun k => { k with inPipe := r }).resolve x

/-! ## The learn FIFO (R177) -/

/-- Loads the popped entry's words and returns the word that the read gives. -/
def learnPop (d : Device) : Device :=
  d.keeperAccess Reg.PKT_LEARN_POP fun d =>
    match d.pkt.learn with
    | [] => d.emit (.data 0)
    | x :: r =>
      let link := match x.link with
        | some h => 0x80000000 + h
        | none => 0
      let d := (d.onCycle fun c => { c with pops := c.pops + 1 }).onPkt fun p =>
        { p with learn := r, popMac := w32 (x.mac % 4294967296), popBd := w32 x.bd, popLink := w32 link }
      d.emit (.data (w32 (0x80000000 + x.port * 0x08000000 + b2n x.bdType * 0x04000000 + x.mac / 4294967296)))

/-! ## Table commands (R178, R188, R191) -/

/-- The 64 bytes in PKT_TBL_DATA. -/
def Device.tblData (d : Device) : Bytes :=
  (List.range 16).flatMap fun i => beBytes 4 (d.cfg (Reg.PKT_TBL_DATA i)).toNat

/-- Puts 64 bytes into PKT_TBL_DATA. -/
def Device.setTblData (d : Device) (e : Entry) : Device :=
  (List.range 16).foldl (fun d i => d.setCfg (Reg.PKT_TBL_DATA i) (w32 (fld e (511 - 32 * i) (480 - 32 * i)))) d

/-- A table command: ignored with the error bit while one is in progress, or beyond the table's size (log 93). -/
def Device.tblCmd (d : Device) (t : Nat) (index : Nat) (f : Device → Device) : Device :=
  d.keeperAccess Reg.PKT_TBL_CMD fun d =>
    if d.pkt.tblBusy || decide (tblSize t ≤ index) then (d.onPkt fun p => { p with tblError := true }).hwSet Reg.PKT_TBL_STATUS 30 else f d

/-- TBL_READ (log 93). -/
def tblRead (t : Fin 4) (index : BitVec 15) (d : Device) : Device :=
  d.tblCmd t.val index.toNat fun d => d.setTblData (d.pkt.entry t.val index.toNat)

/-- TBL_WRITE: the 64 staged bytes at once; a hit of the same cycle leaves the hit bit at 1, and a lookup of the same cycle finds
the old entry (R178) (log 93). -/
def tblWrite (t : Fin 4) (index : BitVec 15) (d : Device) : Device :=
  d.tblCmd t.val index.toNat fun d =>
    d.tblStore t.val index.toNat (BitVec.ofNat 512 (beNat d.tblData))

/-- TBL_CLEAR: valid := 0. -/
def tblClear (t : Fin 4) (index : BitVec 15) (d : Device) : Device :=
  d.tblCmd t.val index.toNat fun d =>
    let e := d.pkt.entry t.val index.toNat
    (d.onCycle fun c => { c with tables := c.tables.put (tblKey t.val index.toNat) (d.entrySeen t.val index.toNat) }).onPkt fun p =>
      p.setEntry t.val index.toNat e.cleared

/-- TBL_HASH: the bucket pair of the staged key. -/
def tblHash (t : Fin 4) (d : Device) : Device :=
  d.tblCmd t.val 0 fun d =>
    let b := buckets t.val (d.cfg (Reg.PKT_TBL_SEED t.val)) (slice d.tblData 8 40)
    d.onPkt fun p => { p with tblB0 := b.1, tblB1 := b.2 }

/-! ## Generations (R185 to R187) -/

/-- A packet in the pipeline or on the recirculation path references generation `g`. -/
def Packet.refs (p : Packet) (g : Nat) : Bool := (p.inPipe ++ p.recirc).any fun x => x.gen == g

/-- The generation before the current one. -/
def Packet.genPrev (p : Packet) : Nat := (p.gen + 65535) % 65536

/-- The pending default action of a port. -/
def Device.defPend (d : Device) (p : Nat) : DWord :=
  BitVec.ofNat 64 ((d.cfg (Reg.PKT_DEF_PEND_HI p)).toNat * 4294967296 + (d.cfg (Reg.PKT_DEF_PEND_LO p)).toNat)

/-- Stamps the packet that entered last with a generation. -/
def restamp (gen : Nat) : List Pkt → List Pkt
  | [] => []
  | x :: r => if x.pass = 1 ∧ r.all (fun y => y.pass != 1) then { x with gen := gen } :: r else x :: restamp gen r

/-- The commit itself (R186); a packet that enters in the same opportunity takes the new generation (R190). -/
def Device.genAdvance (d : Device) : Device :=
  let defs := (List.range 12).foldl (fun t p => Tab.set t actionDrop p (d.defPend p)) []
  let gen := (d.pkt.gen + 1) % 65536
  let entered := d.cycle.entered
  d.onPkt fun p =>
    { p with gen := gen, commitWait := none, defsOld := p.defs, defs := defs, inPipe := if entered then restamp gen p.inPipe else p.inPipe }

/-- A write of commit = 1 (R186, R187) (log 24). -/
def Device.genCommitReq (d : Device) : Device :=
  if d.pkt.commitWait.isSome then (d.onPkt fun p => { p with refused := true }).hwSet Reg.PKT_GEN_STATUS 14
  else if d.pkt.refs d.pkt.genPrev then (d.onPkt fun p => { p with commitWait := some d.clk.now }).raise 147 0
  else d.genAdvance

/-- GEN_COMMIT. -/
def genCommit (d : Device) : Device := d.keeperAccess Reg.PKT_GEN_CMD fun d => d.genCommitReq

/-- GEN_COMMIT_PROCEED: the last reference has ended (log 24). -/
def genCommitProceed (d : Device) : Device :=
  if d.pkt.commitWait.isSome && !d.pkt.refs d.pkt.genPrev then d.genAdvance else d

/-- GEN_DRAIN_TIMEOUT: 1 ms after the write, packets still stamped with that generation are dropped. -/
def genDrainTimeout (d : Device) : Device :=
  match d.pkt.commitWait with
  | none => d
  | some w =>
    if d.clk.now < w + msec then d
    else
      let g := d.pkt.genPrev
      let n := ((d.pkt.inPipe ++ d.pkt.recirc).filter fun x => x.gen == g).length
      let d := d.onPkt fun p =>
        { p with inPipe := p.inPipe.filter fun x => x.gen != g, recirc := p.recirc.filter fun x => x.gen != g }
      let d := if n = 0 then d
        else ((d.addCnt (Reg.PKT_DROP_CNT 7) n 0xFFFFFFFF).addCnt Reg.PKT_GEN_DROP_CNT n 0xFFFFFFFF).raise 146 0
      d.genAdvance

/-! ## Meanings -/

/-- PACKET_ENTRY (R166). -/
def execPacketEntry (t : Time) (inj : Option Injection) (s : State) : Host.Outcome State Fault Refusal := s.act t (packetEntry inj)

/-- RECIRC_ENTRY (R183). -/
def execRecircEntry (t : Time) (s : State) : Host.Outcome State Fault Refusal := s.act t recircEntry

/-- PASS_RESOLVE (R179). -/
def execPassResolve (t : Time) (s : State) : Host.Outcome State Fault Refusal := s.act t passResolve

/-- LEARN_POP (R177). -/
def execLearnPop (t : Time) (s : State) : Host.Outcome State Fault Refusal := s.act t learnPop

/-- TBL_READ (R178). -/
def execTblRead (t : Time) (tbl : Fin 4) (index : BitVec 15) (s : State) : Host.Outcome State Fault Refusal := s.act t (tblRead tbl index)

/-- TBL_WRITE (R178). -/
def execTblWrite (t : Time) (tbl : Fin 4) (index : BitVec 15) (s : State) : Host.Outcome State Fault Refusal := s.act t (tblWrite tbl index)

/-- TBL_CLEAR (R188). -/
def execTblClear (t : Time) (tbl : Fin 4) (index : BitVec 15) (s : State) : Host.Outcome State Fault Refusal := s.act t (tblClear tbl index)

/-- TBL_HASH (R174). -/
def execTblHash (t : Time) (tbl : Fin 4) (s : State) : Host.Outcome State Fault Refusal := s.act t (tblHash tbl)

/-- GEN_COMMIT (R186). -/
def execGenCommit (t : Time) (s : State) : Host.Outcome State Fault Refusal := s.act t genCommit

/-- GEN_COMMIT_PROCEED (R187). -/
def execGenCommitProceed (t : Time) (s : State) : Host.Outcome State Fault Refusal := s.act t genCommitProceed

/-- GEN_DRAIN_TIMEOUT (R187). -/
def execGenDrainTimeout (t : Time) (s : State) : Host.Outcome State Fault Refusal := s.act t genDrainTimeout

end Sys2Proof.Machine
end

