-- ==== Sys2Proof/Machine/Dpd.lean ====
section
/-! DEFINITION. The predistortion fit of R44: indirect learning over one feedback capture, in exact
rational arithmetic. -/

namespace Sys2Proof.Machine

/-- A complex number. -/
structure Cplx where
  re : Rat
  im : Rat
deriving DecidableEq, Repr

def Cplx.zero : Cplx := ⟨0, 0⟩
def Cplx.add (a b : Cplx) : Cplx := ⟨a.re + b.re, a.im + b.im⟩
def Cplx.sub (a b : Cplx) : Cplx := ⟨a.re - b.re, a.im - b.im⟩
def Cplx.mul (a b : Cplx) : Cplx := ⟨a.re * b.re - a.im * b.im, a.re * b.im + a.im * b.re⟩
def Cplx.conj (a : Cplx) : Cplx := ⟨a.re, -a.im⟩
def Cplx.scale (a : Cplx) (r : Rat) : Cplx := ⟨a.re * r, a.im * r⟩
def Cplx.norm2 (a : Cplx) : Rat := a.re * a.re + a.im * a.im
def Cplx.div (a b : Cplx) : Cplx := (a.mul b.conj).scale (1 / b.norm2)
def Cplx.sum (l : List Cplx) : Cplx := l.foldl Cplx.add Cplx.zero

/-- A sample value: integers with 14 fraction bits (log 4). -/
def sampleVal (re im : Int) : Cplx := ⟨(re : Rat) / 16384, (im : Rat) / 16384⟩

/-- The 12 regressors at a sample from z(n), z(n−1), z(n−2), in the order j = 3 × (k − 1)/2 + m. -/
def regressors (z0 z1 z2 : Cplx) : List Cplx :=
  [0, 1, 2, 3].flatMap fun (p : Nat) => [z0, z1, z2].map fun z => z.scale (z.norm2 ^ p)

/-- The regressor rows and targets of a capture; `z1` and `z2` are the feedback samples before its first, which the
specification does not give (log 18). -/
def fitRows (z1 z2 : Cplx) : List Cplx → List Cplx → List (List Cplx × Cplx)
  | z0 :: zs, y0 :: ys => (regressors z0 z1 z2, y0) :: fitRows z0 z1 zs ys
  | _, _ => []

/-- One row of the normal equations: Σ conj(row i) × row, with its right side. -/
def normalRow (rows : List (List Cplx × Cplx)) (n i : Nat) : List Cplx :=
  (List.range (n + 1)).map fun j =>
    Cplx.sum (rows.map fun r =>
      ((r.1[i]?).getD Cplx.zero).conj.mul (if j = n then r.2 else (r.1[j]?).getD Cplx.zero))

/-- The normal equations with the term λ Σ |b − a|² added. -/
def normalEqs (rows : List (List Cplx × Cplx)) (a : List Cplx) (lam : Rat) : List (List Cplx) :=
  (List.range 12).map fun i =>
    (normalRow rows 12 i).mapIdx fun j v =>
      if j = i then v.add ⟨lam, 0⟩
      else if j = 12 then v.add (((a[i]?).getD Cplx.zero).scale lam) else v

/-- Subtracts from a row its first element times a pivot row whose first element is 1, and drops it. -/
def reduceRow (pivot row : List Cplx) : List Cplx :=
  match row with
  | [] => []
  | h :: t => List.zipWith (fun x p => x.sub (h.mul p)) t (pivot.drop 1)

/-- Solves rows of an equation system, with the right sides last, by elimination: the matrix of R44 is
positive definite, so that no pivot is zero. -/
def solve : Nat → List (List Cplx) → List Cplx
  | 0, _ => []
  | n + 1, rows =>
    match rows with
    | [] => []
    | r :: rest =>
      match r with
      | [] => []
      | h :: _ =>
        let p := r.map fun x => x.div h
        let xs := solve n (rest.map (reduceRow p))
        let tail := p.drop 1
        let rhs := (tail.getLast?).getD Cplx.zero
        rhs.sub (Cplx.sum (List.zipWith Cplx.mul tail xs)) :: xs

/-- A coefficient part rounded to 14 fraction bits and clamped to 16 bits (Table 2.18; log 3). -/
def coefPart (r : Rat) : BitVec 16 :=
  BitVec.ofInt 16 (clampInt (-32768) 32767 (rdiv (r.num * 16384) r.den))

/-- The value of a coefficient in use. -/
def Coef.val (c : Coef) : Cplx := ⟨(c.i.toInt : Rat) / 16384, (c.q.toInt : Rat) / 16384⟩

/-- The new coefficients from a kept capture (R44); none where the gain G cannot be formed (log 18). -/
def dpdFit (a : List Coef) (cap : List FbSample) (p1 p2 : Cplx) : Option (List Coef) :=
  let y := cap.map fun s => sampleVal s.yRe s.yIm
  let fb := cap.map fun s => sampleVal s.zRe s.zIm
  let my := Cplx.sum y
  let mz := Cplx.sum fb
  if my = Cplx.zero ∨ mz = Cplx.zero then none
  else
    let g := mz.div my
    let z := fb.map fun v => v.div g
    let lam := (y.map Cplx.norm2).foldl (· + ·) 0 / 1024
    let av := a.map Coef.val
    let b := solve 12 (normalEqs (fitRows (p1.div g) (p2.div g) z y) av lam)
    some (List.zipWith (fun x (v : Cplx) =>
      let n := x.add ((v.sub x).scale (1 / 4))
      (⟨coefPart n.re, coefPart n.im⟩ : Coef)) av b)

end Sys2Proof.Machine
end

