-- ==== Sys2Proof/Machine/Slots.lean ====
section
/-! DEFINITION. The times of a radio, the regulatory profile in force, the beacon's rate and slots, and the slots of
a superframe with what occupies them (chapters 2, 4, 5). -/

namespace Sys2Proof.Machine

/-! ## Times (Tables 2.2, 2.14) -/

/-- IDLE → LOCKED. -/
def lockTime (b : Band) : Nat :=
  match b with
  | .l => 80 * usec
  | .m => 60 * usec
  | .h => 45 * usec

/-- RX → LOCKED. -/
def rxExit (b : Band) : Nat := if b = .l then 22 * usec else 2 * usec

/-- Receiver recovery after TX → LOCKED → RX. -/
def rxRecovery (b : Band) : Nat := if b = .l then 20 * usec else 0

/-- LOCKED → RX and LOCKED → TX. -/
def toRxTime : Nat := 8 * usec
def toTxTime : Nat := 6 * usec

/-- The longest synthesiser calibration, and the shortest gap for one. -/
def calTime : Nat := 250 * usec
def calGap : Nat := 300 * usec

/-- Spans and guards of RADx_TIMING in half ns. -/
def Device.lateGuard (d : Device) (b : Band) : Nat := 500 * min 120 (d.cf (Reg.RAD_TIMING b) 31 24)
def Device.paSeq (d : Device) (b : Band) : Nat := 500 * min 64 (d.cf (Reg.RAD_TIMING b) 23 16)
def Device.paOff (d : Device) (b : Band) : Nat := 500 * min 32 (d.cf (Reg.RAD_TIMING b) 15 8)
def Device.rampTime (d : Device) (b : Band) : Nat := 1000 * max 4 (min 16 (d.cf (Reg.RAD_TIMING b) 4 0))

/-- One step of a way from state to state (Table 2.2): where it leads, its time, and whether the synthesiser
locks in it. -/
structure Step where
  dest : RState
  dur : Nat
  locks : Bool
deriving DecidableEq, Repr

/-- The steps that lead from a state to LOCKED (Table 2.2). -/
def upSteps (b : Band) (from_ : RState) : List Step :=
  match from_ with
  | .off => [⟨.sleep, 20 * usec, false⟩, ⟨.idle, 40 * usec, false⟩, ⟨.locked, lockTime b, true⟩]
  | .sleep => [⟨.idle, 40 * usec, false⟩, ⟨.locked, lockTime b, true⟩]
  | .idle => [⟨.locked, lockTime b, true⟩]
  | .rx => [⟨.locked, rxExit b, false⟩]
  | .tx => [⟨.locked, 2 * usec, false⟩]
  | .locked => []
  | .cal => []

/-- Total time of steps. -/
def stepsTime (l : List Step) : Nat := (l.map Step.dur).sum

/-- The steps to LOCKED on a channel: from a state in which another channel is held, a channel change follows
(R23). -/
def upSteps' (b : Band) (from_ : RState) (change : Bool) : List Step :=
  upSteps b from_ ++
    (if change && (from_ == .locked || from_ == .rx || from_ == .tx) then [⟨.locked, lockTime b, true⟩] else [])

/-! ## The profile in force (R110) -/

/-- A band of a profile. -/
def Device.profBandOf (d : Device) (p : Nat) (b : Band) : ProfBand := d.lant.profiles.get ProfBand.none_ (4 * p + bandNum b)

/-- A band of the profile in force. -/
def Device.prof (d : Device) (b : Band) : ProfBand :=
  match d.lant.profile with
  | some p => d.profBandOf p b
  | none => ProfBand.none_

/-- A relay's parent-link band (R136). -/
def Device.parentBand (d : Device) (b : Band) : Bool :=
  d.cb Reg.LANT_RELAY_CTRL 31 && (b == .h || (b == .m && d.cb Reg.LANT_RELAY_CTRL 30))

/-- The channel of a band: the profile's, or the parent's on a parent-link band (R136, R140). -/
def Device.chanOf (d : Device) (b : Band) : Nat :=
  if d.parentBand b then (if b = .h then d.lant.relay.chan else d.lant.relay.chanM) else (d.prof b).chan

/-! ## Beacon rate and slots (R86, R90) -/

/-- The rate field of a band in LANT_BEACON_CTRL and its reset value. -/
def Device.beaconField (d : Device) (b : Band) : Nat :=
  match b with
  | .l => d.cf Reg.LANT_BEACON_CTRL 13 8
  | .m => d.cf Reg.LANT_BEACON_CTRL 21 16
  | .h => d.cf Reg.LANT_BEACON_CTRL 29 24
def beaconDefault (b : Band) : Nat :=
  match b with
  | .l => 6
  | .m => 0
  | .h => 4

/-- The highest rate code a class allows. -/
def topRate (b : Band) (cls : Nat) : Nat :=
  match b with
  | .l => if cls = 3 then 4 else if cls < 3 then cls else cls + 1
  | .m => 0x13
  | .h => 0x17

/-- Beacon class and rate of a band (R86). -/
def Device.beaconCls (d : Device) (b : Band) : Nat := (d.prof b).beaconCls
def Device.beaconRate (d : Device) (b : Band) : Nat :=
  let c := d.beaconCls b
  if rateInClass b c (d.beaconField b) then d.beaconField b
  else if rateInClass b c (beaconDefault b) then beaconDefault b
  else topRate b c

/-- Slots that a frame of a duration occupies with the tail behind it. -/
def slotsOf (b : Band) (q : Nat) : Nat := ceilDiv (q + tailLen b * qPerHn) (slotLen b * qPerHn)

/-- Duration of the band's regular beacon, of PHY length 64. -/
def Device.beaconQ (d : Device) (b : Band) : Nat := frameQ b (d.beaconCls b) (d.beaconRate b) 64

/-- Rate code of the long-range beacon, which on Radio L is its class too (Table 3.3). -/
def Device.lrRate (d : Device) : Nat := if d.cb Reg.LANT_BEACON_CTRL 1 then 1 else 0

/-- lr_exp, and whether superframe `sf` has a long-range beacon. -/
def Device.lrExp (d : Device) : Nat := min 12 (d.cf Reg.LANT_BEACON_CTRL 7 4)
def Device.lrActive (d : Device) (sf : Nat) : Bool := d.cb Reg.LANT_BEACON_CTRL 0 && sf % 2 ^ d.lrExp == 0
def Device.lrQ (d : Device) : Nat := frameQ .l d.lrRate d.lrRate 64

/-- Slots of the regular beacon, and of every beacon of a superframe: a parent-link band has none (R136). A long-range beacon whose
slots would pass the end of the superframe is counted, and sent, as it is (log 80). -/
def Device.nb (d : Device) (b : Band) : Nat := if d.parentBand b || !(d.prof b).present then 0 else slotsOf b (d.beaconQ b)
def Device.beaconSlots (d : Device) (b : Band) (sf : Nat) : Nat :=
  d.nb b + (if b = .l ∧ d.lrActive sf ∧ 0 < d.nb b then slotsOf .l d.lrQ else 0)

/-! ## The slots of a superframe (R83, R88, R91, R92, R124) -/

/-- From the entry boundary to the wake the plan, the open maps and the profile do not change (R321) (log 43). -/
def Device.planFrozen (d : Device) : Bool := d.lant.eclipseFlag && d.pwr.st != 0

/-- The plan in force in a superframe: a pending commit's from its boundary on (R93) (log 43). -/
def Device.planFor (d : Device) (sf : Nat) : List PlanRec :=
  match d.lant.commit with
  | some c => if c.at_ ≤ sf && !d.planFrozen then c.plan else d.lant.plan
  | none => d.lant.plan

/-- The grants of a band active in a superframe, skipped and void ones too, with their plan index. -/
def Device.activeOn (d : Device) (b : Band) (sf : Nat) : List (Nat × PlanRec) :=
  if d.parentBand b then []
  else ((List.range (d.planFor sf).length).zip (d.planFor sf)).filter fun x => gBand x.2.bits == bandNum b && gActive x.2.bits sf

/-- A slot is covered by an active grant. -/
def Device.granted (d : Device) (b : Band) (sf j : Nat) : Bool := (d.activeOn b sf).any fun x => gCovers x.2.bits j

/-- The open map in force; none is offered in Eclipse or on a parent-link band (R321, R136). -/
def Device.openMapOf (d : Device) (b : Band) : Word :=
  if d.lant.eclipseFlag || d.parentBand b then 0 else d.lant.openMap.get b

/-- The slot of open-map entry `i`, where it is open in superframe `sf` (R88) (log 81). -/
def Device.openSlotAt (d : Device) (b : Band) (sf i : Nat) : Option Nat :=
  let w := d.openMapOf b
  let s := omStart w + i * omStride w
  if i < omCount w ∧ s + 1 < slotCount b ∧ d.beaconSlots b sf ≤ s ∧ !d.granted b sf s ∧ !d.granted b sf (s + 1) then some s
  else none

/-- A slot is an open slot or a reply position. -/
def Device.openOrReply (d : Device) (b : Band) (sf j : Nat) : Bool :=
  (List.range (omCount (d.openMapOf b))).any fun i =>
    match d.openSlotAt b sf i with
    | some s => s == j || s + 1 == j
    | none => false

/-- A free slot (R124). -/
def Device.slotFree (d : Device) (b : Band) (sf j : Nat) : Bool :=
  decide (d.beaconSlots b sf ≤ j ∧ j < slotCount b) && !d.granted b sf j && !d.openOrReply b sf j

/-- Two grants cover one slot. -/
def gMeet (x y : DWord) : Bool := decide (gFirst x ≤ gLast y ∧ gFirst y ≤ gLast x)

/-- The grants of a band in one superframe that are skipped, by plan index: those on a beacon slot, past the
last slot, or meeting a grant that comes first and is not itself skipped (R83, R92) (log 80). -/
def skipGrants (beacon slots : Nat) : List (Nat × PlanRec) → List DWord → List Nat
  | [], _ => []
  | (i, p) :: r, won =>
    if gFirst p.bits < beacon ∨ slots ≤ gLast p.bits ∨ won.any (gMeet p.bits) then i :: skipGrants beacon slots r won
    else skipGrants beacon slots r (p.bits :: won)

/-- The skipped grants of a band in a superframe (log 80). -/
def Device.skipped (d : Device) (b : Band) (sf : Nat) : List Nat :=
  skipGrants (d.beaconSlots b sf) (slotCount b) (d.activeOn b sf) []

/-- A grant is void: its class is not permitted (R91), it is a station's in Eclipse on Radio L, or on another
band in Eclipse (R321) (log 80). -/
def Device.grantVoid (d : Device) (g : DWord) : Bool :=
  let b := bandOfNum (gBand g)
  !(d.prof b).permits (gClass g) || (d.lant.eclipseFlag && (b != .l || gType g != gtUplink))

/-- Start of slot `j` of superframe `sf`: a lamp time (R82). -/
def slotLamp (b : Band) (sf j : Nat) : Nat := sf * sfLen + j * slotLen b

/-! ## Bell bursts (R130, R132) -/

/-- bell_reps and the duration of a burst in µs. -/
def Device.bellReps (d : Device) : Nat := max 1 (d.cf Reg.LANT_BELL_CTRL 3 0)
def Device.bellUs (d : Device) : Nat := 26000 * d.bellReps + 1000 * (d.bellReps - 1)

/-- The bell channel, and the frequencies a burst occupies: 200 kHz about its centre (Table 5.4). -/
def Device.bellChan (d : Device) : Nat := min 2600 (d.cf Reg.LANT_BELL_CTRL 27 16)
def Device.bellSpan (d : Device) : Nat × Nat := chanSpan .l d.bellChan 200

/-- Inserts a frame by its planned start. -/
def insertPlanned (f : TxFrame) : List TxFrame → List TxFrame
  | [] => [f]
  | x :: r => if x.planned ≤ f.planned then x :: insertPlanned f r else f :: x :: r

/-- A skipped ring (R132). -/
def Device.bellSkip (d : Device) : Device := (d.inc Reg.LANT_BELL_SKIP_CNT).raise 63 0

/-! ## The next free slot of a radio (R19, R29) -/

/-- From the planned start of a frame to the end of the tail behind it. -/
def frameTime (b : Band) (f : TxFrame) : Time × Time := (f.planned, f.planned + qToHn f.durQ + tailLen b)

/-- The frames that have been given a time on a radio: those scheduled, and Keeper's that wait for theirs. -/
def Radio.placed (r : Radio) : List TxFrame := (r.tx.toList ++ r.txNext).map TxRun.frame ++ r.keeper

/-- A slot is covered by a bell burst placed in the superframe (R132). -/
def Device.bellCovers (d : Device) (b : Band) (sf j : Nat) : Bool :=
  b == .l && sf == d.lant.sf && d.lant.bells.any fun p => decide (p.slot ≤ j ∧ j < p.slot + slotsOf .l (d.bellUs * qPerUs))

/-- A slot is still free for a frame of Keeper: free in the plan, and given to no bell burst and no other frame. -/
def Device.slotOpen (d : Device) (b : Band) (sf j : Nat) : Bool :=
  let from_ := d.devAt (slotLamp b sf j)
  let till := from_ + slotLen b
  d.slotFree b sf j && !d.bellCovers b sf j
    && (d.radio b).placed.all fun f => decide ((frameTime b f).2 ≤ from_ ∨ till ≤ (frameTime b f).1)

/-- The first slot of the band, from `j` of superframe `n` on, that begins a run of `k` free slots. `fuel` bounds the search. -/
def Device.freeRun (d : Device) (b : Band) (n k : Nat) : Nat → Nat → Nat → Option Nat
  | 0, _, _ => none
  | fuel + 1, j, run =>
    if slotCount b ≤ j then none
    else if d.slotOpen b n j then (if k ≤ run + 1 then some (j - run) else d.freeRun b n k fuel (j + 1) (run + 1))
    else d.freeRun b n k fuel (j + 1) 0

/-- The planned start of an immediate transmission: the radio's next free slots (R29). -/
def Device.nextFree (d : Device) (b : Band) (q : Nat) : Option Nat :=
  let lead := d.lampHn + usec + stepsTime (upSteps b (d.radio b).st) + toTxTime + d.paSeq b + d.rampTime b
  let k := slotsOf b q
  let n := lead / sfLen
  match d.freeRun b n k (slotCount b) (ceilDiv (lead % sfLen) (slotLen b)) 0 with
  | some j => some (slotLamp b n j)
  | none => (d.freeRun b (n + 1) k (slotCount b) 0 0).map fun j => slotLamp b (n + 1) j

/-- A Keeper frame is given its planned start, and joins those that wait. Where two superframes have no free slots it
keeps the start it has (log 78). -/
def Device.keeperPlanTx (d : Device) (b : Band) (f : TxFrame) : Device :=
  let f := match d.nextFree b f.durQ with
    | some lamp => { f with planned := d.devAt lamp, sf := lamp / sfLen }
    | none => f
  d.onRad b fun r => { r with keeper := insertPlanned f r.keeper }

end Sys2Proof.Machine
end

