-- ==== Sys2Proof/Machine/Radio.lean ====
section
/-! DEFINITION. Radio front-end control: states, transitions, commands, calibrations, pin sequences and
transmit power (chapter 2). -/

namespace Sys2Proof.Machine

/-! ## State as it stands -/

/-- The state now: CAL from the start of a calibration (Table 2.1). -/
def Radio.now (r : Radio) (t : Time) : RState :=
  match r.cal with
  | some c => if c.start ≤ t then .cal else r.st
  | none => r.st

/-- A transition is in progress: the next one has begun. -/
def Radio.moving (r : Radio) (t : Time) : Option Trans :=
  match r.trans with
  | x :: _ => if x.start ≤ t then some x else none
  | [] => none

/-- A receive window is open. -/
def Radio.winOpen (r : Radio) : Bool := r.wins.any fun w => w.isOpen

/-- A frame is in the air, or the radio is on its way into TX for it: its time is fixed. -/
def Radio.txBegun (r : Radio) (t : Time) : Bool :=
  r.tx.isSome && (r.st == .tx || (match r.moving t with
    | some x => x.dest == .tx
    | none => false))

/-- Busy under R35: transmitting up to the end of TX → LOCKED, a window open, a transition or a calibration in
progress. What is scheduled and has not begun is no activity. -/
def Radio.busy (r : Radio) (t : Time) : Bool :=
  r.st == .tx || r.winOpen || (r.moving t).isSome || r.cal.isSome

/-- The instant at which a scheduled frame has ended and the radio is LOCKED (Table 2.3). -/
def Device.txFree (d : Device) (b : Band) (x : TxRun) : Time :=
  x.firstSym + qToHn x.frame.durQ + d.rampTime b + d.paOff b + 2 * usec

/-- The transitions that stay in force when a command changes the plan: the one in progress, TX → LOCKED after a
frame, and those that lead to a calibration. -/
def Radio.kept (r : Radio) (t : Time) : List Trans :=
  match r.cal with
  | some c => r.trans.filter fun x => decide (x.start < c.start)
  | none =>
    match r.trans with
    | x :: _ => if x.start ≤ t ∨ r.st = .tx then [x] else []
    | [] => []

/-- Where a radio stands at an instant: its state, the channel it holds, and the instant at which it was LOCKED after
its last transmission. -/
structure Stand where
  t : Time
  st : RState
  chan : Option Nat
  off : Option Time
deriving DecidableEq, Repr

/-- Where the radio stands when what has begun is over: a frame in the air, a calibration at its longest (R36), the
transitions in progress, a background calibration's abort (R39). -/
def Device.firmEnd (d : Device) (b : Band) : Stand :=
  let r := d.radio b
  let tc := d.clk.now
  match r.tx with
  | some x =>
    if r.txBegun tc then ⟨d.txFree b x, .locked, some x.frame.chan, some (d.txFree b x)⟩
    else go r tc
  | none => go r tc
where
  go (r : Radio) (tc : Time) : Stand :=
    match r.cal with
    | some c => ⟨c.start + calTime, if c.hadChannel then .locked else .idle, r.chan, r.txOffAt⟩
    | none =>
      match (r.kept tc).getLast? with
      | some x => ⟨max tc x.ends, x.dest, (x.tune.map Prod.fst).orElse fun _ => r.chan, if r.st = .tx then some x.ends else r.txOffAt⟩
      | none => ⟨if r.bg.isSome then tc + usec else tc, r.st, r.chan, r.txOffAt⟩

/-- The end of the open windows: the latest close, or the end of a headed frame that runs on (R35, R73). -/
def Device.winsEnd (d : Device) (b : Band) : Time :=
  let r := d.radio b
  let w := ((r.wins.filter fun w => w.isOpen).map Win.closesAt).foldl max 0
  match r.cur with
  | some c => if c.hdrOk then max w (c.start + qToHn (frameQ b c.cls (hdrRate c.hdr) (hdrLength c.hdr))) else w
  | none => w

/-- Where the radio stands after the calibrations that are forced and wait: they go ahead of everything that has not
begun (R35). -/
def Device.freeFirst (d : Device) (b : Band) : Stand :=
  let e := d.firmEnd b
  let n := (d.radio b).forced.length
  if n = 0 then e
  else
    let way := match e.st with
      | .off => 60 * usec
      | .sleep => 40 * usec
      | .rx => rxExit b
      | _ => 0
    let had := e.chan.isSome
    ⟨max e.t (d.winsEnd b) + way + n * (usec + calTime), if had then .locked else .idle, e.chan, e.off⟩

/-- The instant t of R39 and where the radio stands then: after what has begun, the forced calibrations, and the
frames already scheduled. -/
def Device.freeAt (d : Device) (b : Band) : Stand :=
  let r := d.radio b
  match (r.txNext.getLast?).orElse (fun _ => r.tx) with
  | some x => ⟨d.txFree b x, .locked, some x.frame.chan, some (d.txFree b x)⟩
  | none => d.freeFirst b

/-- The channel held is not `c`. -/
def Stand.changes (s : Stand) (c : Nat) : Bool :=
  match s.chan with
  | some x => x != c
  | none => false

/-- Receiver recovery still to come for a radio that is LOCKED at `t` (Table 2.3). -/
def Stand.recovery (s : Stand) (b : Band) (t : Time) : Nat :=
  match s.off with
  | some o => (o + rxRecovery b) - t
  | none => 0

/-- The steps from where the radio stands to RX on a channel: none where it is in RX on it. -/
def Stand.toRx (s : Stand) (b : Band) (chan : Nat) : List Step :=
  if s.st = .rx ∧ !s.changes chan then []
  else
    let up := upSteps' b s.st (s.changes chan)
    up ++ [⟨.rx, toRxTime + s.recovery b (s.t + stepsTime up), false⟩]

/-- The steps from where the radio stands to TX on a channel. -/
def Stand.toTx (s : Stand) (b : Band) (chan : Nat) : List Step :=
  upSteps' b s.st (s.changes chan) ++ [⟨.tx, toTxTime, false⟩]

/-! ## Pin sequences (R45 to R48) -/

/-- Step word i of a sequence. -/
def Device.seqWord (d : Device) (b : Band) (sq : SeqId) (i : Nat) : Word :=
  d.cfg (match sq with
    | .txOn => Reg.RAD_SEQ_TXON b i
    | .txOff => Reg.RAD_SEQ_TXOFF b i
    | .rxOn => Reg.RAD_SEQ_RXON b i
    | .rxOff => Reg.RAD_SEQ_RXOFF b i)

/-- Span of a sequence (R46). -/
def Device.seqSpan (d : Device) (b : Band) (sq : SeqId) : Nat :=
  match sq with
  | .txOn => d.paSeq b
  | .txOff => d.paOff b
  | .rxOn => toRxTime
  | .rxOff => rxExit b

/-- Offset at which a step executes: at the latest at the span's end. -/
def Device.seqOff (d : Device) (b : Band) (sq : SeqId) (i : Nat) : Nat :=
  min (d.seqSpan b sq) (500 * fld (d.seqWord b sq i) 23 16)

/-- Inserts a step by offset, ties in step order. -/
def insertStep (off : Nat → Nat) (i : Nat) : List Nat → List Nat
  | [] => [i]
  | j :: r => if off j ≤ off i then j :: insertStep off i r else i :: j :: r

/-- The enabled steps of a sequence in the order in which they execute. -/
def Device.seqOrder (d : Device) (b : Band) (sq : SeqId) : List Nat :=
  ((List.range 8).filter fun i => bitOf (d.seqWord b sq i) 31).foldl (fun l i => insertStep (d.seqOff b sq) i l) []

/-- Pins after one step: mask and pattern, with the automatic gain and antenna pins of R47 where the step drives
both pins of the pair. -/
def stepPins (pins : BitVec 8) (w : Word) (autoGain autoAnt : Bool) (gain ant : Nat) : BitVec 8 :=
  let mask : BitVec 8 := BitVec.ofNat 8 (fld w 15 8)
  let pat : BitVec 8 := BitVec.ofNat 8 (fld w 7 0)
  let pat := if autoGain && bitOf mask 1 && bitOf mask 2 then (pat &&& 0xF9) ||| BitVec.ofNat 8 (gain % 4 * 2) else pat
  let pat := if autoAnt && bitOf mask 6 && bitOf mask 7 then (pat &&& 0x3F) ||| BitVec.ofNat 8 (ant % 4 * 64) else pat
  (pins &&& ~~~ mask) ||| (pat &&& mask)

/-- A role in which PA_EN is never asserted (R48, Table 14.1). -/
def Device.paMuted (d : Device) : Bool := d.twin.role == 1 || d.twin.role == 3 || d.twin.role == 4 || d.twin.yielding

/-- The end of pa_off has come: the radio is in TX, its frame is over, and TX → LOCKED has begun. -/
def Radio.paOffOver (r : Radio) (t : Time) : Bool :=
  r.st == .tx && r.tx.isNone && (r.moving t).isSome

/-- Logical pin levels now: PA_EN is at 0 from the end of pa_off on (R46, Table 2.12). -/
def Radio.pinsAt (r : Radio) (t : Time) : BitVec 8 := if r.paOffOver t then clrBit r.pins 0 else r.pins

/-- The electrical levels of a radio's pins: the logical levels XOR RADx_PIN_POL, and what is latched while its pads are
held (R48, R329). -/
def Device.pinLevels (d : Device) (b : Band) : BitVec 8 :=
  if bitOf d.pwr.padHold (bandNum b) then d.pwr.padLevels.get 0 (bandNum b)
  else (d.radio b).pinsAt d.clk.now ^^^ BitVec.ofNat 8 (d.cf (Reg.RAD_PIN_POL b) 7 0)

/-- Shows the pins' levels. -/
def Device.pinsShow (d : Device) (b : Band) : Device := d.emit (.pins b (d.pinLevels b))

/-- Applies step i of the sequence in hand. -/
def Device.seqApply (d : Device) (b : Band) (sq : SeqId) (i : Nat) : Device :=
  let w := d.seqWord b sq i
  let ctrl := d.cfg (Reg.RAD_PWR_CTRL b)
  let muted := d.paMuted
  d.onRad b fun r =>
    let p := stepPins r.pins w (sq == .txOn && bitOf ctrl 30) ((sq == .txOn || sq == .rxOn) && bitOf ctrl 29) r.seqGain r.seqAnt
    { r with pins := if muted then clrBit p 0 else p, seqLeft := r.seqLeft.filter fun j => j != i }

/-- Applies every step still to come whose offset `upTo` half ns has been reached. -/
def Device.seqFlush (d : Device) (b : Band) (upTo : Time) : Device :=
  match (d.radio b).seqRun with
  | none => d
  | some (sq, z0) =>
    (d.radio b).seqLeft.foldl (fun d i => if z0 + d.seqOff b sq i ≤ upTo then d.seqApply b sq i else d) d

/-- A sequence begins at its zero point; what the one before has left is applied first. -/
def Device.seqBegin (d : Device) (b : Band) (sq : SeqId) (z0 : Time) (gain ant : Nat) : Device :=
  let d := match (d.radio b).seqRun with
    | some (s, z) => d.seqFlush b (z + d.seqSpan b s)
    | none => d
  let order := d.seqOrder b sq
  d.onRad b fun r => { r with seqRun := some (sq, z0), seqLeft := order, seqGain := gain, seqAnt := ant }

/-- def_ant of a band. -/
def Device.defAnt (d : Device) (b : Band) : Nat := d.cf (Reg.RAD_PWR_CTRL b) 25 24

/-- The antenna of the window that RX is entered for (R395). -/
def Device.rxAnt (d : Device) (b : Band) : Nat :=
  match (d.radio b).wins with
  | w :: _ => w.ant
  | [] => d.defAnt b

/-- PA_EN is driven to 0 at the end of pa_off where no step has done it (R46). -/
def Device.paForce (d : Device) (b : Band) : Device :=
  d.onRad b fun r => { r with pins := r.pinsAt d.clk.now }

/-- RX-on begins with LOCKED → RX, and RX-off with RX exit, once that transition has begun (R46). -/
def Device.seqSync (d : Device) (b : Band) : Device :=
  let d := d.paForce b
  let r := d.radio b
  match r.moving d.clk.now with
  | none => d
  | some x =>
    if x.dest = .rx ∧ r.st ≠ .rx ∧ r.seqRun ≠ some (.rxOn, x.start) then d.seqBegin b .rxOn x.start 0 (d.rxAnt b)
    else if r.st = .rx ∧ x.dest ≠ .rx ∧ r.seqRun ≠ some (.rxOff, x.start) then d.seqBegin b .rxOff x.start 0 0
    else d

/-- SEQUENCE_STEP: step i of the sequence in hand executes when its offset has come, in its turn. -/
def sequenceStep (b : Band) (sq : SeqId) (i : Fin 8) (d : Device) : Device :=
  let d := d.seqSync b
  let r := d.radio b
  match r.seqRun with
  | none => d
  | some (s, z0) =>
    if s = sq ∧ r.seqLeft.head? = some i.val ∧ z0 + d.seqOff b sq i.val ≤ d.clk.now then (d.seqApply b sq i.val).pinsShow b
    else d

/-- Instant, from the zero point, at which PA_EN first becomes 1 in TX-on; none if it never does. -/
def Device.paOnOffset (d : Device) (b : Band) : Option Nat :=
  ((d.seqOrder b .txOn).find? fun i =>
    let w := d.seqWord b .txOn i
    bitOf w 8 && bitOf w 0).map (d.seqOff b .txOn)

/-- Instant, from the end of ramp-down, at which PA_EN is at 0 for good: by TX-off, or at the end of pa_off. -/
def Device.paOffOffset (d : Device) (b : Band) : Nat :=
  let drv := (d.seqOrder b .txOff).filter fun i => bitOf (d.seqWord b .txOff i) 8
  match drv.reverse.takeWhile (fun i => !bitOf (d.seqWord b .txOff i) 0) with
  | [] => d.paOff b
  | l => match l.getLast? with
    | some i => d.seqOff b .txOff i
    | none => d.paOff b

/-- The spans by which a frame's airtime exceeds its symbols: before the first and after the last (R107). -/
def Device.paBefore (d : Device) (b : Band) : Nat :=
  match d.paOnOffset b with
  | some off => d.rampTime b + (d.paSeq b - off)
  | none => d.rampTime b
def Device.paAfter (d : Device) (b : Band) : Nat :=
  d.rampTime b + (if (d.paOnOffset b).isSome then d.paOffOffset b else 0)

/-! ## Scheduling of transitions (R25: the radio holds its state until the transition must begin) -/

/-- Steps that end at `end_`, each begun as late as it can be. -/
def backSteps (end_ : Time) (tune : Nat × Nat) : List Step → List Trans
  | [] => []
  | x :: r =>
    let mine := end_ - stepsTime r
    ⟨x.dest, mine - x.dur, mine, if x.locks then some tune else none⟩ :: backSteps end_ tune r

/-- Steps that begin at `start`, one after the other. -/
def foreSteps (start : Time) : List Step → List Trans
  | [] => []
  | x :: r => ⟨x.dest, start, start + x.dur, none⟩ :: foreSteps (start + x.dur) r

/-- Return-state steps from where the radio stands (R30, R31, Table 2.4). -/
def Stand.toReturn (s : Stand) (b : Band) (code : Nat) : List Step :=
  let down := if s.st = .rx ∧ code ≠ 2 then [(⟨.locked, rxExit b, false⟩ : Step)] else []
  if s.st ≠ .locked ∧ s.st ≠ .rx then []
  else down ++ (match code with
    | 2 => if s.st = .rx then [] else [⟨.rx, toRxTime + s.recovery b s.t, false⟩]
    | 3 => [⟨.idle, usec, false⟩]
    | 4 => [⟨.idle, usec, false⟩, ⟨.sleep, usec, false⟩]
    | _ => [])

/-- The first frame scheduled moves up when none is in hand. -/
def Radio.promote (r : Radio) : Radio :=
  match r.tx, r.txNext with
  | none, x :: rest => { r with tx := some x, txNext := rest }
  | _, _ => r

/-- Plans the transitions anew from where the radio stands: toward the first frame scheduled, else the first window to
come, else the return state of `code` where one is due. What follows a frame in the air is planned at its end. -/
def Device.replan (d : Device) (b : Band) (code : Option Nat) : Device :=
  let d := d.onRad b Radio.promote
  let r := d.radio b
  let kept := r.kept d.clk.now
  let s := d.freeFirst b
  match r.tx with
  | some x =>
    if r.txBegun d.clk.now then d
    else
      let t := backSteps (x.firstSym - d.rampTime b - d.paSeq b) (x.frame.chan, x.frame.cls) (s.toTx b x.frame.chan)
      d.onRad b fun r => { r with trans := kept ++ t }
  | none =>
    match r.wins.find? fun w => !w.isOpen && decide (s.t + stepsTime (s.toRx b w.chan) < w.closesAt) with
    | some w =>
      let steps := s.toRx b w.chan
      let t := backSteps (max (s.t + stepsTime steps) w.opensAt) (w.chan, w.cls) steps
      d.onRad b fun r => { r with trans := kept ++ t }
    | none =>
      let t := match code with
        | some c => foreSteps s.t (s.toReturn b c)
        | none => if s.st = .tx then foreSteps s.t (upSteps b .tx) else []
      d.onRad b fun r => { r with trans := kept ++ t }

/-! ## Calibration (R32 to R37) -/

/-- The calibration word of a group. -/
def Radio.group (r : Radio) (g : Nat) : GroupCal := r.groups.get GroupCal.reset g

/-- Aborts a running background calibration (R42) (log 96). -/
def Device.bgAbort (d : Device) (b : Band) : Device :=
  if (d.radio b).bg.isSome then
    (d.onRad b fun r => { r with bg := none }).inc16 (Reg.RAD_BGCAL_ABORT_CNT b)
  else d

/-- Adds a group to those that await calibration, lowest first. -/
def addPend (g : Nat) : List CalPend → List CalPend
  | [] => [⟨g, 0⟩]
  | x :: r => if g < x.group then ⟨g, 0⟩ :: x :: r else if g = x.group then x :: r else x :: addPend g r

/-- defer_sf and temp_threshold (Table 2.15), the latter in 1/16 °C. -/
def Device.deferSf (d : Device) (b : Band) : Nat := max 1 (d.cf (Reg.RAD_CAL_CTRL b) 7 4)
def Device.tempThresh (d : Device) (b : Band) : Int := 16 * max 2 (min 30 (d.cf (Reg.RAD_CAL_CTRL b) 12 8))

/-- CAL_DEFER_EXPIRY: a group has found no gap for defer_sf superframes; the count begins again (R34). -/
def calDeferExpiry (b : Band) (g : Fin 16) (d : Device) : Device :=
  if (d.radio b).pend.any (fun p => decide (p.group = g.val ∧ d.deferSf b ≤ p.waited)) then
    (d.onRad b fun r => { r with pend := r.pend.map fun p => if p.group = g.val then { p with waited := 0 } else p }).raiseRad b 1 0
  else d

/-- A superframe has passed for the groups that wait (R34). -/
def Device.calWait (d : Device) (b : Band) : Device :=
  d.onRad b fun r => { r with pend := r.pend.map fun p => { p with waited := p.waited + 1 } }

/-- A temperature sample at a radio: groups that differ from it by temp_threshold become pending (R32). -/
def Device.radTemp (d : Device) (b : Band) (temp : BitVec 16) : Device :=
  let th := d.tempThresh b
  d.onRad b fun r => { r with pend := r.groups.foldl (fun l x =>
    let df := x.2.temp.toInt - temp.toInt
    if x.2.valid && decide (th ≤ df ∨ th ≤ -df) then addPend x.1 l else l) r.pend }

/-! ## set_power (R49) -/

/-- g[s] and fe_loss, fb_coupling, pmin. -/
def Device.extGain (d : Device) (b : Band) (s : Nat) : Int := d.cf (Reg.RAD_EXT_GAIN b) (8 * s + 7) (8 * s)
def Device.feLoss (d : Device) (b : Band) : Int := d.cf (Reg.RAD_PWR_CTRL b) 23 16
def Device.fbCoupling (d : Device) (b : Band) : Int := d.cf (Reg.RAD_PWR_CTRL b) 15 8
def Device.pMin (d : Device) (b : Band) : Int := clampInt (-40) 6 (sfld (d.cfg (Reg.RAD_PWR_CTRL b)) 7 0)
def Device.loopEn (d : Device) (b : Band) : Bool := d.cb (Reg.RAD_PWR_CTRL b) 31

/-- off[s]; held at 0 while loop_en = 0 (R51). -/
def Device.pwrOff (d : Device) (b : Band) (s : Nat) : Int := if d.loopEn b then (d.radio b).off.get 0 s else 0

/-- p − g[s] + fe_loss − off[s]. -/
def Device.pinPower (d : Device) (b : Band) (p : Int) (s : Nat) : Int :=
  p - d.extGain b s + d.feLoss b - d.pwrOff b s

/-- The limited target, gain step and pin power of a target power. -/
def Device.setPower (d : Device) (b : Band) (target : Int) : Int × Nat × Int :=
  let p := min target (d.radio b).limit.toInt
  let hot (s : Nat) : Bool := decide (24 < d.pinPower b p s)
  let s := if !hot 0 then 0 else if !hot 1 then 1 else if !hot 2 then 2 else 3
  (p, s, max (4 * d.pMin b) (min (d.pinPower b p s) 24))

/-! ## Frames go back to their queues (R39, R41, R195) -/

/-- A frame is a REPLY. -/
def TxFrame.isReply (f : TxFrame) : Bool :=
  match f.kind with
  | .reply _ => true
  | .pollReply => true
  | _ => false

/-- A DUPLICATE frame that is not sent: its packet may be drawn again for the link. -/
def Device.unDup (d : Device) (f : TxFrame) : Device :=
  match f.dup with
  | none => d
  | some k =>
    let h := f.link.getD 0
    d.onQueue k fun q => { q with pkts := q.pkts.map fun x => if x.seq = some f.seq then { x with sent := x.sent.erase h } else x }

/-- What a frame carries goes back to where it came from, with a reason: packets to the heads of their queues, an
control records to the head of their client's, an ASSOC_RESP to the head of those waiting, a relay's frame to those held for its parent, a Keeper transmission to the
radio's, with a new planned start; a bell burst is a skipped ring (R132). A REPLY keeps its sequence number. A frame that had been charged against a link queue's
credit without starting is not. Packets of a client that has been released meanwhile are flushed (R195) (log 78). -/
def Device.frameBack (d : Device) (b : Band) (f : TxFrame) (started : Bool) (why : Requeue) : Device :=
  let d := d.onRad b fun r => { r with back := some why }
  let d := match f.queue with
    | some k => if started || !f.charged then d else d.unchargeLink k f.planned (f.data.length + if f.sealJob.isSome then 8 else 0)
    | none => d
  let f := { f with charged := false }
  let gone := match f.client with
    | some c => !(d.client c).assoc || (d.client c).released
    | none => false
  let d := if gone then f.pkts.foldl (fun d x => (d.inc (Reg.PKT_QDROP_CNT 5)).freeCells x.2) d else (d.requeue f.pkts).unDup f
  let d := match f.client with
    | some c => d.onClient c fun k => if k.released then k else { k with ctrl := f.recs ++ k.ctrl, downBack := if f.isReply then k.downBack ++ [f.seq] else k.downBack }
    | none => d
  let d := match f.resp with
    | some a => d.onLant fun l => { l with assocResps := a :: l.assocResps }
    | none => d
  match f.kind with
  | .keeper => d.keeperPlanTx b f
  | .parentUp _ _ _ _ => d.onRad b fun r => { r with parentHeld := f :: r.parentHeld }
  | .bell => d.bellSkip
  | _ => d

/-- The job of a frame that is not sent is given up. -/
def Device.dropSeal (d : Device) (f : TxFrame) : Device :=
  match f.sealJob with
  | some id => d.onCiph fun c => { c with jobs := c.jobs.filter fun j => j.id != id, waiting := c.waiting.filter fun j => j.id != id }
  | none => d

/-- LATE_LOCK (R39). -/
def Device.lateLock (d : Device) (b : Band) (f : TxFrame) : Device :=
  (((d.dropSeal f).frameBack b f false .lateLock).inc16 (Reg.RAD_LATE_LOCK_CNT b)).raiseRad b 0 0

/-! ## A frame on a radio's schedule (R26, R39) -/

/-- Latest start of a frame after its planned start (R26). -/
def Device.guardOf (d : Device) (b : Band) (f : TxFrame) : Nat := if f.beacon then usec else d.lateGuard b

/-- The earliest first symbol of a frame (R39). -/
def Device.earliest (d : Device) (b : Band) (f : TxFrame) : Time :=
  let s := d.freeAt b
  max (s.t + stepsTime (s.toTx b f.chan) + d.paSeq b + d.rampTime b) f.planned

/-- The power settings of a frame with its first symbol and the instant of its command. -/
def Device.runOf (d : Device) (b : Band) (f : TxFrame) (e at_ : Time) : TxRun :=
  let p := d.setPower b f.target
  ⟨f, e, p.2.1, p.1, p.2.2, at_⟩

/-- Puts a frame on the schedule at its earliest first symbol, not before `e0`, or refuses it as late lock. -/
def Device.putRun (d : Device) (b : Band) (f : TxFrame) (e0 at_ : Time) : Device :=
  let e := max (d.earliest b f) e0
  if f.planned + d.guardOf b f < e then d.lateLock b f
  else
    let x := d.runOf b f e at_
    let d := match f.queue with
      | some k => if f.charged then d.chargeLink k f.planned e (f.data.length + if f.sealJob.isSome then 8 else 0) else d
      | none => d
    d.onRad b fun r => if r.tx.isNone then { r with tx := some x } else { r with txNext := r.txNext ++ [x] }

/-- The frames on the schedule that have not begun. -/
def Radio.waiting (r : Radio) (t : Time) : List TxRun := if r.txBegun t then r.txNext else r.tx.toList ++ r.txNext

/-- The schedule without the frames that have not begun. -/
def Radio.begunOnly (r : Radio) (t : Time) : Radio := { r with tx := if r.txBegun t then r.tx else none, txNext := [] }

/-- Where the radio stands has changed: each frame that has not begun is put on the schedule anew, and the transitions
are planned. -/
def Device.retime (d : Device) (b : Band) : Device :=
  let l := (d.radio b).waiting d.clk.now
  let d := d.onRad b fun r => r.begunOnly d.clk.now
  Device.replan (l.foldl (fun d x => d.putRun b x.frame x.firstSym x.at_) d) b none

/-! ## Calibrations that start (R35, R37) -/

/-- Steps from a resting state to where a calibration starts: up to IDLE, or out of RX. -/
def calSteps (b : Band) (from_ : RState) : List Step :=
  match from_ with
  | .off => [⟨.sleep, 20 * usec, false⟩, ⟨.idle, 40 * usec, false⟩]
  | .sleep => [⟨.idle, 40 * usec, false⟩]
  | .rx => [⟨.locked, rxExit b, false⟩]
  | _ => []

/-- Starts the calibration of a group at a resting radio, after `delay`; what was scheduled and has not begun is served
after it. From RX rest the radio goes back to RX when the calibration ends, a forced one too (log 79). -/
def Device.calStart (d : Device) (b : Band) (g : Nat) (forced : Bool) (delay : Nat) : Device :=
  let d := d.bgAbort b
  let r := d.radio b
  let steps := calSteps b r.st
  let run : CalRun := ⟨g, d.clk.now + stepsTime steps + delay, forced, r.st == .rx, r.chan.isSome⟩
  Device.retime (d.onRad b fun r =>
    { r with cal := some run, trans := foreSteps d.clk.now steps, forced := r.forced.filter fun x => x != g, pend := addPend g r.pend }) b

/-- A calibration forced now: it starts within 1 µs of the instant where the radio rests, and otherwise waits
for the end of the activity in hand (R35) (log 19). -/
def Device.calForce (d : Device) (b : Band) (g : Nat) : Device :=
  if (d.radio b).busy d.clk.now then
    Device.retime (d.onRad b fun r => { r with forced := if r.forced.contains g then r.forced else r.forced ++ [g], pend := addPend g r.pend }) b
  else (d.calStart b g true (d.freeVal % (usec + 1))).freeNext

/-- FORCED_CAL_START: the activity in hand has ended, and a forced calibration that waited starts within 1 µs
(log 19). -/
def forcedCalStart (b : Band) (d : Device) : Device :=
  let r := d.radio b
  match r.forced with
  | [] => d
  | g :: _ => if r.busy d.clk.now then d else (d.calStart b g true (d.freeVal % (usec + 1))).freeNext

/-- CAL_CMD_PENDING: a write with force = 0 (R35). -/
def calCmdPending (b : Band) (g : Fin 16) (d : Device) : Device :=
  d.keeperAccess (Reg.RAD_CAL_CMD b) fun d =>
    if groupCount b ≤ g.val then d else d.onRad b fun r => { r with pend := addPend g.val r.pend }

/-- CAL_CMD_FORCE: a write with force = 1 (R35). -/
def calCmdForce (b : Band) (g : Fin 16) (d : Device) : Device :=
  d.keeperAccess (Reg.RAD_CAL_CMD b) fun d =>
    if groupCount b ≤ g.val then d else d.calForce b g.val

/-- A calibration of the group runs, or is forced and waits. -/
def Radio.calComing (r : Radio) (g : Nat) : Bool :=
  (match r.cal with
    | some c => c.group == g
    | none => false) || r.forced.contains g

/-- A command on a group without valid calibration starts that group's calibration (R37). -/
def Device.needCal (d : Device) (b : Band) (chan : Nat) : Device :=
  let g := groupOf b chan
  if ((d.radio b).group g).valid || (d.radio b).calComing g then d else d.calForce b g

/-- A channel has come into use: its group is calibrated in the first gap where it holds no calibration (R37). -/
def Device.useGroup (d : Device) (b : Band) (chan : Nat) : Device :=
  let g := groupOf b chan
  if d.domSt (bandDom b) ≠ 3 ∨ ((d.radio b).group g).valid ∨ (d.radio b).calComing g then d
  else d.onRad b fun r => { r with pend := addPend g r.pend }

/-! ## Transmit and receive commands (R19, R29, R37 to R40) -/

/-- A run was commanded in the present Lantern tick. -/
def Device.sameTick (d : Device) (x : TxRun) : Bool := d.lampAt x.at_ / usec == d.lampHn / usec

/-- Keeper frames that were commanded in this tick and have not begun yield to a scheduled one: each takes the radio's
next free slots (R19). -/
def Device.yieldKeeper (d : Device) (b : Band) : Device :=
  let clash (x : TxRun) : Bool := x.frame.kind == .keeper && d.sameTick x
  let l := ((d.radio b).waiting d.clk.now).filter clash
  if l.isEmpty then d
  else
    let keep (x : TxRun) : Bool := !l.contains x
    let d := d.onRad b fun r => { r with tx := r.tx.filter keep, txNext := r.txNext.filter keep }
    l.foldl (fun d x => d.keeperPlanTx b x.frame) (d.onRad b Radio.promote)

/-- A scheduled transmission of the Lantern was commanded in this tick. -/
def Device.tickTaken (d : Device) (b : Band) : Bool :=
  ((d.radio b).tx.toList ++ (d.radio b).txNext).any fun x => x.frame.kind != .keeper && d.sameTick x

/-- A transmit command: scheduled at its earliest first symbol, or refused as late lock. -/
def Device.radTx (d : Device) (b : Band) (f : TxFrame) : Device :=
  let d := d.needCal b f.chan
  if f.kind = .keeper ∧ d.tickTaken b then (d.bgAbort b).keeperPlanTx b f
  else
    let d := if f.kind = .keeper then d else d.yieldKeeper b
    Device.replan ((d.putRun b f 0 d.clk.now).bgAbort b) b none

/-- Inserts a window by its opening. -/
def insertWin (w : Win) : List Win → List Win
  | [] => [w]
  | x :: r => if x.opensAt ≤ w.opensAt then x :: insertWin w r else w :: x :: r

/-- A window that cannot open is lost (R40). -/
def Device.winLost (d : Device) (b : Band) : Device :=
  (d.inc16 (Reg.RAD_WIN_LOST_CNT b)).raiseRad b 0 0

/-- Windows that have come while the radio is in RX are open. -/
def Device.openWins (d : Device) (b : Band) : Device :=
  let t := d.clk.now
  let come (w : Win) : Win := if w.opensAt ≤ t ∧ t < w.closesAt then { w with isOpen := true, opened := true } else w
  d.onRad b fun r => if r.st = .rx ∧ (r.moving t).isNone then { r with wins := r.wins.map come } else r

/-- The instant at which RX is reached for a window commanded now (R39, R40). -/
def Device.rxReach (d : Device) (b : Band) (w : Win) : Time :=
  let s := d.freeAt b
  s.t + stepsTime (s.toRx b w.chan)

/-- A receive command. `false` where the window cannot open before its planned end. -/
def Device.radRx (d : Device) (b : Band) (w : Win) : Device × Bool :=
  let d := d.needCal b w.chan
  let at_ := d.rxReach b w
  let d := d.bgAbort b
  if w.closesAt ≤ at_ then (d, false)
  else (((d.onRad b fun r => { r with wins := insertWin w r.wins }).replan b none).openWins b, true)

/-- The radio reaches the destination of the transition in progress (R22). The gain step and power of a frame are set as
TX is reached, by the offsets of that instant (R49, R50). -/
def Device.transEnd (d : Device) (b : Band) : Device :=
  let d := (d.seqSync b).seqFlush b d.clk.now
  let r := d.radio b
  match r.trans with
  | [] => d
  | x :: rest =>
    if d.clk.now < x.ends then d
    else
      let d := d.onRad b fun r =>
        { r with st := x.dest, trans := rest, chan := match x.tune with | some c => some c.1 | none => r.chan, cls := match x.tune with | some c => c.2 | none => r.cls, txOffAt := if r.st = .tx then some x.ends else r.txOffAt }
      match x.dest, r.tx with
      | .tx, some run =>
        let run := d.runOf b run.frame run.firstSym run.at_
        (d.onRad b fun r => { r with tx := some run }).seqBegin b .txOn x.ends run.gain run.frame.ant
      | .rx, _ => d.openWins b
      | _, _ => d

/-- rx_end_state (R31). -/
def Device.rxEndState (d : Device) (b : Band) : Nat := d.cf (Reg.RAD_RETURN b) 10 8

/-- The return state of a descriptor (R30). -/
def Device.txReturn (d : Device) (b : Band) (ret : BitVec 3) : Nat :=
  if ret = 0 then d.cf (Reg.RAD_RETURN b) 2 0 else ret.toNat

/-! ## What a transmission puts on the air (R53, R57, R64, R79, R130) -/

/-- The first `t` µs of on and off periods. -/
def cutParts : List (Bool × Nat) → Nat → List (Bool × Nat)
  | [], _ => []
  | (v, n) :: r, t => if t = 0 then [] else if t < n then [(v, t)] else (v, n) :: cutParts r (t - n)

/-- The wave of a frame, whole or cut after `cut` half ns from its first symbol. -/
def Device.waveOf (d : Device) (b : Band) (f : TxFrame) (cut : Option Nat) : Wave :=
  if f.sesia then sesiaWave b f.cls (phyHeader f.rate f.data.length f.beacon false) f.data (d.rampTime b) cut
  else match f.kind, cut with
    | .bell, none => .ook (bellWave (w32 (beNat f.data)) d.bellReps)
    | .bell, some t => .ook (cutParts (bellWave (w32 (beNat f.data)) d.bellReps) (t / usec))
    | _, none => .oqpsk f.data
    | _, some t => .oqpsk (f.data.take (t / (32 * usec) - 5))

/-- Shows what has left the radio. -/
def Device.airShow (d : Device) (b : Band) (x : TxRun) (cut : Option Nat) : Device :=
  d.emit (.air b (d.waveOf b x.frame cut) x.firstSym x.frame.data)

/-- A radio in TX ramps down from the instant `from_` and runs TX-off, to a state that it reaches `after` later. -/
def Device.txOff (d : Device) (b : Band) (from_ : Time) (dest : RState) (after : Nat) : Device :=
  let z0 := from_ + d.rampTime b
  (d.seqBegin b .txOff z0 0 0).onRad b fun r =>
    { r with tx := none, trans := [⟨dest, z0 + d.paOff b, z0 + d.paOff b + after, none⟩] }

/-- A frame that is cut off in TX: what has gone out is shown, and it goes back to its queue. -/
def Device.cutTx (d : Device) (b : Band) (x : TxRun) (why : Requeue) : Device :=
  let on := decide (x.firstSym ≤ d.clk.now)
  let d := if on then d.airShow b x (some (d.clk.now - x.firstSym)) else d
  (d.dropSeal x.frame).frameBack b x.frame on why

/-- LOCK_LOSS (R41), but for a reception's result: a transmission ramps down within 1 µs, runs TX-off and goes
back to its queue; the radio enters IDLE, and what is scheduled is served from there. An open window ends with the lock
(log 19, 79). -/
def Device.lockLossRadio (d : Device) (b : Band) : Device :=
  let r := d.radio b
  let t := d.clk.now
  let d := if r.st = .tx ∨ r.st = .rx then (d.inc16 (Reg.RAD_LOCK_LOSS_CNT b)).raiseRad b 3 0 else d
  match r.st, r.tx with
  | .tx, some x =>
    let ramp := t + d.freeVal % (usec + 1)
    Device.retime ((d.cutTx b x .lockLost).freeNext.txOff b ramp .idle 0) b
  | .tx, none =>
    let idle (x : Trans) : Trans := { x with dest := .idle, ends := x.start }
    Device.retime (d.onRad b fun r => { r with trans := (r.trans.take 1).map idle }) b
  | .rx, _ =>
    let shut (w : Win) : Win := if w.isOpen then { w with isOpen := false, closesAt := min w.closesAt t } else w
    Device.retime ((d.seqBegin b .rxOff t 0 0).onRad b fun r => { r with st := .idle, trans := [], wins := r.wins.map shut }) b
  | _, _ => d

/-! ## After a packet: power loop and predistortion (R44, R50, R51) -/

/-- The feedback measurement after a packet. -/
def Device.powerLoop (d : Device) (b : Band) (x : TxRun) (p : FbPower) : Device :=
  match p with
  | .measured q =>
    let meas := q + d.fbCoupling b
    let s := x.gain
    let d := if d.loopEn b then
        let old := (d.radio b).off.get 0 s
        let new := clampInt (-24) 24 (old + (meas - x.p))
        let clamped (v : Int) : Bool := decide (v = 24 ∨ v = -24)
        let d := d.onRad b fun r => { r with off := r.off.set 0 s new, atClamp := putBit r.atClamp s (clamped new) }
        if clamped new && !clamped old then d.raiseRad b 4 0 else d
      else d
    if (d.radio b).limit.toInt + 4 < meas then d.raiseRad b 5 0 else d
  | _ => d

/-- A capture that is kept waits for the predistortion calibration (R44). -/
def Device.capKeep (d : Device) (b : Band) (p : FbPower) (cap : List FbSample) : Device :=
  let kept := decide (1024 ≤ cap.length) && (match p with | .measured _ => true | _ => false)
  if kept && d.cb (Reg.RAD_DPD_CTRL b) 0 && !d.cb (Reg.RAD_DPD_CTRL b) 1 then
    d.onRad b fun r => { r with caps := r.caps ++ [cap.take 4096] }
  else d

/-- Two free samples, those that came before a capture (log 18). -/
def freeSample (n i : Nat) : Cplx :=
  let part (k : Nat) : Int := (n / 4294967296 ^ k % 4294967296 : Nat) - (2147483648 : Int)
  sampleVal (part (2 * i)) (part (2 * i + 1))

/-- The predistortion calibration ends: the oldest kept capture gives new coefficients. The feedback samples before its
first are open, and so are the coefficients where R44's gain cannot be formed (log 2) (log 18). -/
def Device.dpdRun (d : Device) (b : Band) : Device :=
  match (d.radio b).caps with
  | [] => d
  | cap :: rest =>
    let a := (List.range 12).map fun j => (d.radio b).dpd.get Coef.zero j
    let n := d.freeVal
    let new := match dpdFit a cap (freeSample n 0) (freeSample n 1) with
      | some l => l
      | none => (List.range 12).map fun j => ⟨BitVec.ofNat 16 (n / 4294967296 ^ j), BitVec.ofNat 16 (n / 4294967296 ^ j / 65536)⟩
    d.freeNext.onRad b fun r =>
      { r with caps := rest, dpd := (List.range 12).foldl (fun t j => t.set Coef.zero j ((new[j]?).getD Coef.zero)) r.dpd }

/-- The end of a sent frame on the radio: ramp-down, TX-off, LOCKED, and what follows (R30, R46). -/
def Device.radTxEnd (d : Device) (b : Band) (x : TxRun) : Device :=
  let last := x.firstSym + qToHn x.frame.durQ
  let d := (d.airShow b x none).onRad b fun r => { r with lastEnd := last }
  (d.txOff b last .locked (2 * usec)).replan b (some (d.txReturn b x.frame.ret))

/-! ## Background calibrations (R42, R43) -/

/-- Predistortion fits are made (R44). -/
def Device.dpdOn (d : Device) (b : Band) : Bool := d.cb (Reg.RAD_DPD_CTRL b) 0 && !d.cb (Reg.RAD_DPD_CTRL b) 1

/-- BGCAL_START: while LOCKED with no command pending; the predistortion calibration needs a kept capture (log 96). -/
def bgcalStart (b : Band) (k : Fin 5) (d : Device) : Device :=
  let r := d.radio b
  if r.st = .locked ∧ !r.busy d.clk.now ∧ r.tx.isNone ∧ r.wins.isEmpty ∧ r.bg.isNone ∧ r.forced.isEmpty ∧ d.cb (Reg.RAD_BGCAL_CTRL b) k.val
      ∧ (k.val = 4 → d.dpdOn b ∧ r.caps ≠ []) then
    d.onRad b fun r => { r with bg := some k.val }
  else d

/-- BGCAL_END: the results come into use; those of the predistortion calibration are its coefficients (log 96). -/
def bgcalEnd (b : Band) (result : Word) (d : Device) : Device :=
  match (d.radio b).bg with
  | none => d
  | some k =>
    let d := d.onRad b fun r => { r with bg := none, bgDone := setBit r.bgDone k }
    if k = 4 then (if d.dpdOn b then d.dpdRun b else d)
    else d.onRad b fun r => { r with bgUse := r.bgUse.set 0 k result }

/-! ## Power-off and reset -/

/-- A radio whose domain is OFF or in RESET: its state is lost, and PA_EN and TRSW are at 0 (R48). -/
def Device.radReset (d : Device) (b : Band) : Device := d.onRad b fun _ => Radio.reset

/-! ## Meanings -/

/-- SEQUENCE_STEP (R45). -/
def execSequenceStep (t : Time) (b : Band) (sq : SeqId) (i : Fin 8) (s : State) : Host.Outcome State Fault Refusal :=
  s.act t (sequenceStep b sq i)

/-- CAL_DEFER_EXPIRY (R34). -/
def execCalDeferExpiry (t : Time) (b : Band) (g : Fin 16) (s : State) : Host.Outcome State Fault Refusal := s.act t (calDeferExpiry b g)

/-- CAL_CMD_PENDING (R35). -/
def execCalCmdPending (t : Time) (b : Band) (g : Fin 16) (s : State) : Host.Outcome State Fault Refusal := s.act t (calCmdPending b g)

/-- CAL_CMD_FORCE (R35). -/
def execCalCmdForce (t : Time) (b : Band) (g : Fin 16) (s : State) : Host.Outcome State Fault Refusal := s.act t (calCmdForce b g)

/-- FORCED_CAL_START (R35). -/
def execForcedCalStart (t : Time) (b : Band) (s : State) : Host.Outcome State Fault Refusal := s.act t (forcedCalStart b)

/-- BGCAL_START (R42). -/
def execBgcalStart (t : Time) (b : Band) (k : Fin 5) (s : State) : Host.Outcome State Fault Refusal := s.act t (bgcalStart b k)

/-- BGCAL_END (R42). -/
def execBgcalEnd (t : Time) (b : Band) (result : Word) (s : State) : Host.Outcome State Fault Refusal := s.act t (bgcalEnd b result)

end Sys2Proof.Machine
end

