-- ==== Sys2Proof/Machine/Timebase.lean ====
section
/-! DEFINITION. Lamp time, the time gate, the reference domains, their selection and the servo (chapter 10). -/

namespace Sys2Proof.Machine

/-! ## Units: offsets are in quarter ns, so that a twin exchange is exact -/

/-- Number of a domain: 0 for A, 1 for B. -/
def domIdx : RefDom → Nat
  | .a => 0
  | .b => 1

/-- A reference domain. -/
def Device.refDom (d : Device) : RefDom → RefDomain
  | .a => d.time.domA
  | .b => d.time.domB
def Device.onRef (d : Device) (x : RefDom) (f : RefDomain → RefDomain) : Device :=
  match x with
  | .a => d.onTime fun t => { t with domA := f t.domA }
  | .b => d.onTime fun t => { t with domB := f t.domB }

/-- Source code of a domain; 5 to 7 act as 0 (Table 10.8). -/
def Device.refSrc (d : Device) (x : RefDom) : Nat :=
  let s := d.cf (Reg.LANT_DOM_CFG (domIdx x)) 31 29
  if 4 < s then 0 else s

/-- Thresholds in quarter ns: lock, then unlock. -/
def Device.lockThresh (d : Device) (x : RefDom) : Int :=
  4 * max 1 (d.cf (Reg.LANT_DOM_THRESH (domIdx x)) 15 0)
def Device.unlockThresh (d : Device) (x : RefDom) : Int :=
  max (d.lockThresh x) (4 * d.cf (Reg.LANT_DOM_THRESH (domIdx x)) 31 16)

/-- delay of a domain in half ns, signed. -/
def Device.refDelay (d : Device) (x : RefDom) : Int :=
  2 * (d.cfg (Reg.LANT_DOM_DELAY (domIdx x))).toInt

/-- One ppb of r and f. -/
def servoUnit : Nat := 8388608000000000

/-- LANT_TIME_CTRL: slew_max, tau_exp, preferred domain (Table 10.8). -/
def Device.slewMax (d : Device) : Int := servoUnit * 1000 * (max 1 (min 100 (d.cf Reg.LANT_TIME_CTRL 29 23)))
def Device.tauExp (d : Device) : Nat := min 10 (d.cf Reg.LANT_TIME_CTRL 14 11)
def Device.selPref (d : Device) : RefDom := if d.cb Reg.LANT_TIME_CTRL 31 then .b else .a
def refOther : RefDom → RefDom
  | .a => .b
  | .b => .a

/-! ## Domain states (R231) -/

/-- Enters a domain state, raising EV064 or EV065 where it changes. -/
def Device.refEnter (d : Device) (x : RefDom) (st : DomSt) : Device :=
  let was := (d.refDom x).st
  let d := d.onRef x fun r => { r with st := st, count := 0, lockRun := 0, unlockRun := 0, outliers := 0 }
  if was = st then d else d.raise (64 + domIdx x) 0

/-- A domain is selectable (R232): in TRACKING or LOCKED, and not a twin-source domain of a lit or unpaired
DM3. -/
def Device.selectable (d : Device) (x : RefDom) : Bool :=
  ((d.refDom x).st == .tracking || (d.refDom x).st == .locked)
    && !(d.refSrc x == 4 && (d.twin.role == 0 || d.twin.role == 2))

/-- A standby's selectable twin-source domain. -/
def Device.twinDomain (d : Device) : Option RefDom :=
  if d.twin.role ≠ 3 then none
  else if d.selectable .a && d.refSrc .a == 4 then some .a
  else if d.selectable .b && d.refSrc .b == 4 then some .b
  else none

/-- The domain to be selected (R232). `revert` says that the preferred domain has been selectable for 60 s. -/
def Device.choose (d : Device) (revert : Bool) : Option RefDom :=
  let p := d.selPref
  let o := refOther p
  match d.twinDomain with
  | some x => some x
  | none =>
    if d.time.selected = some o ∧ d.selectable o ∧ !revert then some o
    else if d.selectable p then some p
    else if d.selectable o then some o
    else none

/-- Notes the last domain selected and LOCKED (R237). -/
def Device.noteLocked (d : Device) : Device :=
  match d.time.selected with
  | some x => if (d.refDom x).st = .locked then d.onTime fun t => { t with lastLocked := d.refSrc x } else d
  | none => d

/-- Selects under R232; with no domain selected r is held at f (R235). -/
def Device.reselect (d : Device) (revert : Bool) : Device :=
  let new := d.choose revert
  let old := d.time.selected
  let p := d.selPref
  let since := if d.selectable p then some (d.time.prefSince.getD d.clk.now) else none
  let d := d.onTime fun t => { t with selected := new, prefSince := since, r := if new.isNone then t.f else t.r }
  let d := if new = old then d else d.raise 66 0
  let d := if old.isSome && new.isNone then d.raise 67 0 else d
  d.noteLocked

/-- A domain loses its source (R231). -/
def Device.refLoss (d : Device) (x : RefDom) : Device :=
  if (d.refDom x).st = .off then d
  else
    let d := d.refEnter x .acquiring
    (d.onRef x fun r => { r with last := none, lastEdge := none, edge := none }).reselect false

/-! ## The time gate (R228) -/

/-- Opens the time gate. -/
def Device.openGate (d : Device) : Device := (d.onTime fun t => { t with gateOpen := true }).raise 68 0


/-- The start-up step: lamp time moves once by `o` quarter ns; later measurements are taken against the new
lamp time, and so are the edges and the exchange in hand (log 101). -/
def Device.startStep (d : Device) (o : Int) : Device :=
  let fix := ((d.clk.lampFix : Int) + rdiv (o * lampScale) 2).toNat
  let d := { d with clk := { d.clk with lampFix := fix } }
  let moved (l : Nat) : Nat := ((l : Int) + rdiv o 2).toNat
  let shift (r : RefDomain) : RefDomain :=
    { r with last := r.last.map (fun l => l - o), lastEdge := r.lastEdge.map moved, edge := r.edge.map fun e => (moved e.1, e.2) }
  let d := d.onTime fun t => { t with stepped := true, domA := shift t.domA, domB := shift t.domB, t1 := t.t1.map moved }
  let d := d.onLant fun l => { l with sf := d.lampSf }
  (d.raise 71 0).openGate

/-! ## The servo (R233) -/

/-- One run of the servo with offset `o` quarter ns and `dt` half ns since the last measurement. -/
def Device.steer (d : Device) (o : Int) (dt : Nat) : Device :=
  let te := d.tauExp
  let rNew := d.time.f + rdiv (o * 2097152000000000) (2 ^ te)
  let lim := d.slewMax
  if -lim ≤ rNew ∧ rNew ≤ lim then
    let f := d.time.f + rdiv (o * dt * 262144) (2 ^ (2 * te))
    d.onTime fun t => { t with f := f, r := rNew, clamped := false }
  else
    let was := d.time.clamped
    let d := d.onTime fun t => { t with r := if rNew < 0 then -lim else lim, clamped := true }
    if was then d else d.raise 70 0

/-! ## Measurements -/

/-- Measurements after which a source is TRACKING (Table 10.3). -/
def trackCount (src : Nat) : Nat := if src = 3 then 1 else 4

/-- Moves a domain's state on by an accepted measurement (R231). -/
def Device.refAdvance (d : Device) (x : RefDom) (o : Int) : Device :=
  let r := d.refDom x
  let a := if o < 0 then -o else o
  match r.st with
  | .off => d
  | .acquiring =>
    if trackCount (d.refSrc x) ≤ r.count + 1 then d.refEnter x .tracking
    else d.onRef x fun r => { r with count := r.count + 1 }
  | .tracking =>
    if a ≤ d.lockThresh x then
      (if 16 ≤ r.lockRun + 1 then d.refEnter x .locked else d.onRef x fun r => { r with lockRun := r.lockRun + 1 })
    else d.onRef x fun r => { r with lockRun := 0 }
  | .locked =>
    if d.unlockThresh x < a then
      (if 4 ≤ r.unlockRun + 1 then d.refEnter x .tracking else d.onRef x fun r => { r with unlockRun := r.unlockRun + 1 })
    else d.onRef x fun r => { r with unlockRun := 0 }

/-- A measurement that differs by more than 1 ms from the last accepted one, in TRACKING or LOCKED. -/
def RefDomain.outlier (r : RefDomain) (o : Int) : Bool :=
  (r.st == .tracking || r.st == .locked) && match r.last with
    | some l => decide (4000000 < o - l ∨ 4000000 < l - o)
    | none => false

/-- A measurement of a domain taken at an instant, `o` in quarter ns (R231): state, selection, start-up step, and the servo,
which sees no offset left where the step was taken. A discarded feed or exchange has come, so the source is not lost for want
of it; a discarded edge is not accepted (Table 10.3) (log 101). -/
def Device.measureAt (d : Device) (x : RefDom) (o : Int) (at_ : Time) : Device :=
  let r := d.refDom x
  if r.st = .off then d
  else if r.outlier o then
    let d := (d.inc (Reg.LANT_DOM_OUTLIER_CNT (domIdx x))).raise 69 0
    let d := d.onRef x fun r => { r with outliers := r.outliers + 1, lastSeen := if d.refSrc x = 1 then r.lastSeen else some at_ }
    if 3 ≤ r.outliers + 1 then d.refLoss x else d
  else
    let dt := match r.lastMeas with
      | some t => at_ - t
      | none => 0
    let d := d.onRef x fun r =>
      { r with last := some o, offset := o, outliers := 0, lastMeas := some at_, lastSeen := some at_ }
    let d := (d.refAdvance x o).reselect false
    if d.time.selected ≠ some x then d
    else if !d.time.gateOpen && (d.refDom x).st == .tracking then (d.startStep o).steer 0 dt
    else d.steer o dt

/-- A measurement taken now. -/
def Device.measure (d : Device) (x : RefDom) (o : Int) : Device := d.measureAt x o d.clk.now

/-- A written offset's field (LANT_DOM_OFFSET_d): ns, saturating (log 3 for the half). -/
def offsetNs (o : Int) : Int := clampInt (-2147483648) 2147483647 (rdiv o 4)

/-! ## GNSS (R229, R230) -/

/-- The Lantern second of the last edge of a GNSS domain: the edge is measured, once. -/
def Device.gnssLabel (d : Device) (x : RefDom) (second : Nat) : Device :=
  match (d.refDom x).edge with
  | none => d
  | some (lamp, at_) =>
    let r := d.refDom x
    let ok := match r.lastEdge with
      | some l => decide (lamp ≤ l + sec + 2000 ∧ l + sec ≤ lamp + 2000)
      | none => false
    let d := d.onRef x fun r =>
      { r with edge := none, lastEdge := some lamp, count := if ok || r.st != .acquiring then r.count else 0 }
    let o : Int := 2 * ((second * sec : Int) - ((lamp : Int) - d.refDelay x))
    d.measureAt x o at_

/-- An edge at the GNSS PPS pad: lamp time is captured; an edge that got no label breaks the run. -/
def Device.ppsCapture (d : Device) (x : RefDom) : Device :=
  d.onRef x fun r =>
    let missed := r.edge.isSome
    { r with edge := some (d.lampHn, d.clk.now), lastEdge := if missed then none else r.lastEdge, count := if missed && r.st == .acquiring then 0 else r.count }

/-- PPS_EDGE at the edge that a GNSS domain is set to. -/
def ppsEdge (falling : Bool) (d : Device) : Device :=
  if d.domDown 2 then d
  else
    let one (d : Device) (x : RefDom) : Device :=
      if d.refSrc x = 1 ∧ d.cb (Reg.LANT_DOM_CFG (domIdx x)) 28 = falling then d.ppsCapture x else d
    one (one d .a) .b

/-! ## PTP and feeds (R239) -/

/-- A completed feed of domain `x`: for PTP a signed o in ns, for GNSS the Lantern second of the last edge. -/
def Device.feed (d : Device) (x : RefDom) (v : DWord) : Device :=
  match d.refSrc x with
  | 1 => d.gnssLabel x v.toNat
  | 2 => d.measure x (4 * v.toInt)
  | _ => d

/-- DOM_FEED: a write to LANT_DOM_FEED_HI_d completes a feed. -/
def domFeed (x : RefDom) (hi : Word) (d : Device) : Device :=
  d.keeperAccess (Reg.LANT_DOM_FEED_HI (domIdx x)) fun d =>
    d.feed x (BitVec.ofNat 64 (hi.toNat * 4294967296 + (d.refDom x).feedLo.toNat))

/-! ## Loss and timers -/

/-- The time after which a source is lost with nothing accepted (Table 10.3). -/
def Device.lossAfter (d : Device) (x : RefDom) : Option Nat :=
  match d.refSrc x with
  | 1 => some (3 * sec)
  | 2 => some (max 1 (d.cf (Reg.LANT_DOM_CFG (domIdx x)) 15 0) * msec)
  | 4 => some (250 * msec)
  | _ => none

/-- DOMAIN_LOSS_TIMEOUT. -/
def domainLossTimeout (x : RefDom) (d : Device) : Device :=
  match d.lossAfter x, (d.refDom x).lastSeen with
  | some w, some t => if t + w ≤ d.clk.now then d.refLoss x else d
  | _, _ => d

/-- REVERT_TIMER: with revertive = 1 the preferred domain has been selectable for 60 s. -/
def revertTimer (d : Device) : Device :=
  match d.time.prefSince with
  | some t => if d.cb Reg.LANT_TIME_CTRL 30 && decide (t + 60 * sec ≤ d.clk.now) then d.reselect true else d
  | none => d

/-- TIME_GATE_TIMEOUT: gate_timeout has passed since D2 READY with no domain in TRACKING. -/
def timeGateTimeout (d : Device) : Device :=
  match d.time.readyAt with
  | some t =>
    let held (x : RefDom) : Bool := (d.refDom x).st == .tracking || (d.refDom x).st == .locked
    if d.time.gateOpen || held .a || held .b || decide (d.clk.now < t + d.cf Reg.LANT_TIME_CTRL 22 15 * sec) then d
    else d.openGate
  | none => d

/-- RTC_SECOND_WRITE: at a whole second of lamp time (of two half ns, the first that reaches it), while D2 is in service, the
Lantern writes the RTC (R227). -/
def rtcSecondWrite (d : Device) : Device :=
  if d.clk.lampRun && !d.domDown 2 && decide (d.lampHn % sec < 2) then
    { d with clk := { d.clk with rtcFix := d.lampHn / sec * 32768 * 2000000000 } }
  else d

/-- D2 reaches READY: domains with a source leave OFF and those without one enter it; at a start the gate's timeout runs from
here (R228, R231). -/
def Device.timeReady (d : Device) (fresh : Bool) : Device :=
  let one (d : Device) (x : RefDom) : Device :=
    if d.refSrc x = 0 then d.refEnter x .off
    else if (d.refDom x).st = .off then d.refEnter x .acquiring else d
  (one (one (d.onTime fun t => { t with readyAt := if fresh then some d.clk.now else t.readyAt }) .a) .b).reselect false

/-- Eclipse entry: every domain returns to ACQUIRING and no loss is counted; a selection that ends so is a change of it, which
EV066 tells (R232, R235) (log 101). -/
def Device.timeEclipse (d : Device) : Device :=
  let one (d : Device) (x : RefDom) : Device :=
    if (d.refDom x).st = .off then d else d.refEnter x .acquiring
  let was := d.time.selected
  let d := (one (one d .a) .b).onTime fun t => { t with selected := none, r := t.f, prefSince := none }
  if was.isSome then d.raise 66 0 else d

/-! ## Time quality (R237, Table 4.6 through Table 10.4) -/

/-- State code, 0 FREERUN, 1 LOCKED, 2 HOLDOVER, and source code. -/
def Device.timeState (d : Device) : Nat × Nat :=
  match d.time.selected with
  | some x => if (d.refDom x).st = .locked then (1, d.refSrc x) else if d.time.lastLocked = 0 then (0, 0) else (2, d.time.lastLocked)
  | none => if d.time.lastLocked = 0 then (0, 0) else (2, d.time.lastLocked)

/-- The time_quality byte. -/
def Device.timeQuality (d : Device) : Nat := d.timeState.1 * 32 + d.timeState.2 * 4

/-! ## Meanings -/

/-- PPS_EDGE (R229). -/
def execPpsEdge (t : Time) (falling : Bool) (s : State) : Host.Outcome State Fault Refusal := s.act t (ppsEdge falling)

/-- DOM_FEED (R239). -/
def execDomFeed (t : Time) (x : RefDom) (hi : Word) (s : State) : Host.Outcome State Fault Refusal := s.act t (domFeed x hi)

/-- DOMAIN_LOSS_TIMEOUT (R229). -/
def execDomainLossTimeout (t : Time) (x : RefDom) (s : State) : Host.Outcome State Fault Refusal := s.act t (domainLossTimeout x)

/-- REVERT_TIMER (R232). -/
def execRevertTimer (t : Time) (s : State) : Host.Outcome State Fault Refusal := s.act t revertTimer

/-- TIME_GATE_TIMEOUT (R228). -/
def execTimeGateTimeout (t : Time) (s : State) : Host.Outcome State Fault Refusal := s.act t timeGateTimeout

/-- RTC_SECOND_WRITE (R227). -/
def execRtcSecondWrite (t : Time) (s : State) : Host.Outcome State Fault Refusal := s.act t rtcSecondWrite

end Sys2Proof.Machine
end

