-- ==== Sys2Proof/Machine/Flags.lean ====
section
/-! DEFINITION. What may be sent and what a beacon says: the transmit gates, the duty-cycle windows, and the flags
a beacon carries (chapters 4, 5, 13). -/

namespace Sys2Proof.Machine

/-! ## Transmit gates (Table 13.4) -/

/-- The seven gates of a band. In Eclipse and while it is entered or left D7 may be off, and the Lantern seals
the beacon alone (R147) (log 57). -/
def Device.txGates (d : Device) (b : Band) : Nat :=
  let ready := d.domSt 2 == 3 && d.domSt (bandDom b) == 3 && (d.domSt 7 == 3 || (d.pwr.st != 0 && b == .l))
  b2n ready + 2 * b2n (d.lant.profile.isSome && (d.radio b).limit != 0x8000) + 4 * b2n d.time.gateOpen
    + 8 * b2n d.lant.sealer.isSome + 16 * b2n (d.twin.role == 0 || (d.twin.role == 2 && !d.twin.yielding)) + 32 * b2n d.lant.dutyReady
    + 64 * b2n (!bitOf d.pwr.padHold (bandNum b))

/-- Every gate has passed for a band. -/
def Device.gatesOpen (d : Device) (b : Band) : Bool := d.txGates b == 127

/-- A band may send what is not its beacon: every gate has passed, and the beacon has been the first frame since
(R292). -/
def Device.txOk (d : Device) (b : Band) : Bool := d.gatesOpen b && bitOf d.lant.lit (bandNum b)

/-! ## Duty-cycle windows (R107 to R109, R112, R293) -/

/-- Index of a band's own window among the sub-bands' (R115). -/
def bandTotal : Nat := 15

/-- A window. -/
def Device.dutyWin (d : Device) (b : Band) (s : Nat) : DutyWin := d.lant.duty.get DutyWin.empty (16 * bandNum b + s)
def Device.onDuty (d : Device) (b : Band) (s : Nat) (f : DutyWin → DutyWin) : Device :=
  d.onLant fun l => { l with duty := l.duty.upd DutyWin.empty (16 * bandNum b + s) f }

/-- The buckets still in the window of second `sec`. -/
def DutyWin.live (w : DutyWin) (sec : Nat) : List Bucket := w.buckets.filter fun k => decide (sec < k.sec + 3600)

/-- Beacon and data airtime in the window. -/
def DutyWin.bcnUsed (w : DutyWin) (sec : Nat) : Nat := ((w.live sec).map Bucket.bcn).sum
def DutyWin.dataUsed (w : DutyWin) (sec : Nat) : Nat := ((w.live sec).map Bucket.data).sum

/-- Reserve and share of a window of the profile in force, in µs. -/
def Device.dutyLimits (d : Device) (b : Band) (s : Nat) : Nat × Nat :=
  if s = bandTotal then ((d.prof b).reserve, (d.prof b).share)
  else match (d.prof b).subs[s]? with
    | some x => (x.reserve, x.share)
    | none => (0, 0)

/-- The windows a transmission over a span of frequencies draws on: the sub-bands it overlaps and the band. -/
def Device.dutyKeys (d : Device) (b : Band) (sp : Nat × Nat) : List Nat :=
  ((List.range (d.prof b).subs.length).filter fun i => match (d.prof b).subs[i]? with
    | some s => Span.overlaps sp s.span
    | none => false) ++ [bandTotal]

/-- Every window of a band in the profile in force. -/
def Device.dutyAll (d : Device) (b : Band) : List Nat := List.range (d.prof b).subs.length ++ [bandTotal]

/-- Raises EV050 where a window's data reaches 90 % of its share, and rearms both events below it (R109): EV051 too, at the next
watch that finds the window below 90 %, whether or not it had reached it (log 92). -/
def Device.dutyWatch (d : Device) (b : Band) (s : Nat) : Device :=
  let w := d.dutyWin b s
  let used := w.dataUsed d.lant.dutySec
  let high := decide (0 < used ∧ 9 * ((d.dutyLimits b s).2 * qPerUs) ≤ 10 * used)
  if high then
    (if w.warned then d else (d.onDuty b s fun w => { w with warned := true }).raise 50 0)
  else d.onDuty b s fun w => { w with warned := false, heldRaised := false }

/-- The watch over every window of the bands. -/
def Device.dutyWatchAll (d : Device) : Device :=
  [Band.l, Band.m, Band.h].foldl (fun d b => (d.dutyAll b).foldl (fun d s => d.dutyWatch b s) d) d

/-- Adds airtime to the bucket of a second. -/
def addBucket (sec bcn data : Nat) : List Bucket → List Bucket
  | [] => [⟨sec, bcn, data⟩]
  | k :: r =>
    if sec < k.sec then ⟨sec, bcn, data⟩ :: k :: r
    else if k.sec = sec then ⟨sec, k.bcn + bcn, k.data + data⟩ :: r
    else k :: addBucket sec bcn data r

/-- A frame's airtime in 1/2520 ns: its duration and the PA_EN spans (R108). -/
def Device.airtime (d : Device) (b : Band) (durQ : Nat) : Nat := durQ + (d.paBefore b + d.paAfter b) * qPerHn

/-- Charges a sent frame to the bucket that is current at the end of its span (R107). -/
def Device.dutyCharge (d : Device) (b : Band) (sp : Nat × Nat) (beacon : Bool) (q : Nat) (ends : Time) : Device :=
  let s := d.lampAt ends / sec
  (d.dutyKeys b sp).foldl (fun d k =>
    (d.onDuty b k fun w => { w with buckets := addBucket s (if beacon then q else 0) (if beacon then 0 else q) w.buckets }).dutyWatch b k) d

/-- A frame cut off in TX is charged from the beginning of its span to the end of what is left of it: its ramp-down and
TX-off begin at `till` (R107) (log 79). -/
def Device.dutyCut (d : Device) (b : Band) (x : TxRun) (till : Time) : Device :=
  let hn := (till + d.paBefore b) - x.firstSym
  if hn = 0 then d
  else d.dutyCharge b x.frame.span x.frame.beacon ((hn + d.paAfter b) * qPerHn) (till + d.paAfter b)

/-- Procedure admit of R108, but for its effects. -/
def Device.dutyAdmits (d : Device) (b : Band) (sp : Nat × Nat) (beacon : Bool) (a : Nat) : Bool :=
  (d.dutyKeys b sp).all fun k =>
    let w := d.dutyWin b k
    let lim := d.dutyLimits b k
    if beacon then decide (w.bcnUsed d.lant.dutySec + a ≤ lim.1 * qPerUs)
    else decide (w.dataUsed d.lant.dutySec + a ≤ lim.2 * qPerUs)

/-- A frame that is held: counted, and EV051 raised where a window first holds one (R108, R109). -/
def Device.dutyHeld (d : Device) (b : Band) (sp : Nat × Nat) (a : Nat) : Device :=
  let full := (d.dutyKeys b sp).filter fun k =>
    decide ((d.dutyLimits b k).2 * qPerUs < (d.dutyWin b k).dataUsed d.lant.dutySec + a)
  let new := full.any fun k => !(d.dutyWin b k).heldRaised
  let d := full.foldl (fun d k => d.onDuty b k fun w => { w with heldRaised := true }) (d.inc Reg.LANT_DC_HELD_CNT)
  if new then d.raise 51 0 else d

/-- cold_fill (Table 13.8) (log 92). -/
def Device.coldFill (d : Device) : Nat := min 100 (d.cf Reg.LANT_DC_START 6 0)

/-- The windows at a cold start (R293): every bucket loaded with cold_fill percent of a 3,600th (log 92). -/
def Device.dutyCold (d : Device) : Device :=
  let now := d.lampHn / sec
  let fill := d.coldFill
  let d := d.onLant fun l => { l with duty := [], dutySec := now }
  let d := [Band.l, Band.m, Band.h].foldl (fun d b => (d.dutyAll b).foldl (fun d s =>
    let lim := d.dutyLimits b s
    let one (i : Nat) : Bucket := ⟨now + i - 3599, lim.1 * fill * 7, lim.2 * fill * 7⟩
    if lim.1 * fill = 0 ∧ lim.2 * fill = 0 then d
    else d.onDuty b s fun w => { w with buckets := (List.range 3600).map one }) d) d
  d.dutyWatchAll

/-- DUTY_BUCKET_ROLL: a second of lamp time begins, and the oldest bucket is discarded (R107) (log 92). -/
def dutyBucketRoll (d : Device) : Device :=
  let now := d.lampHn / sec
  let d := d.onLant fun l =>
    { l with dutySec := now, duty := l.duty.filterMap fun (k, w) => let w' := { w with buckets := w.live now }; if w' = DutyWin.empty then none else some (k, w') }
  d.dutyWatchAll

/-- The windows of `old` carried into profile `new` on one band: those of sub-bands with identical edges and the
band's own (R112). -/
def Device.dutyCarry (d : Device) (b : Band) (old new : ProfBand) : Device :=
  let was := d.lant.duty
  let find (s : SubBand) : DutyWin :=
    match (List.range old.subs.length).find? fun i => match old.subs[i]? with
        | some o => o.lo == s.lo && o.hi == s.hi
        | none => false with
    | some i => was.get DutyWin.empty (16 * bandNum b + i)
    | none => DutyWin.empty
  let d := (List.range 15).foldl (fun d i => d.onDuty b i fun _ => DutyWin.empty) d
  (List.range new.subs.length).foldl (fun d i => match new.subs[i]? with
    | some s => d.onDuty b i fun _ => find s
    | none => d) d

/-! ## Gates that close (R151, R292, R309) -/

/-- Every frame of a band that has not begun goes back to its queue; one in the air ends through ramp-down, is charged
for what has gone out, and goes back too (log 53). -/
def Device.txAbort (d : Device) (b : Band) : Device :=
  let r := d.radio b
  let t := d.clk.now
  let l := if r.st = .tx then r.txNext else r.tx.toList ++ r.txNext
  let air := if r.st = .tx then r.tx else none
  let d := d.onRad b fun r => { r with tx := air, txNext := [] }
  let back (d : Device) (x : TxRun) : Device := (d.dropSeal x.frame).frameBack b x.frame false .gateClosed
  let d := l.reverse.foldl back d
  match air with
  | none => d.replan b none
  | some x => (((d.dutyCut b x t).cutTx b x .gateClosed).txOff b t .locked (2 * usec)).replan b none

/-- A closed gate stops transmission at once (R292). -/
def Device.gateWatch (d : Device) : Device :=
  [Band.l, Band.m, Band.h].foldl (fun d b =>
    if d.gatesOpen b then d
    else
      let d := d.onLant fun l => { l with lit := clrBit l.lit (bandNum b) }
      if (d.radio b).tx.isSome then d.txAbort b else d) d

/-! ## What a beacon says (R87) -/

/-- A standby mirrors this twin. -/
def Device.twinPresent (d : Device) : Bool := d.twin.role == 2 && d.twin.peerRole == 3 && !d.twin.lost

/-- beacon_flags (Table 4.7). -/
def Device.beaconFlags (d : Device) (sf : Nat) : Nat :=
  let lamp := match d.lant.lampChangeAt with
    | some n => decide (n ≤ sf ∧ sf < n + 16)
    | none => false
  128 * b2n d.lant.eclipseFlag + 64 * b2n d.twinPresent + 32 * b2n (d.twinPresent && d.ll.twinMatch) + 16 * b2n lamp

/-- A band is affected by the switch in hand (R111). -/
def Device.switchAffects (d : Device) (b : Band) : Bool :=
  match d.lant.switch_ with
  | some s => bitOf s.bands (bandNum b)
  | none => false

/-- reg_notice (Table 4.9). Its next_profile, next_channel and countdown are open while no switch is announced
for the band (log 2) (log 27). -/
def Device.regNotice (d : Device) (b : Band) (sf : Nat) : Nat :=
  let cur := d.lant.profile.getD 0
  match d.lant.switch_ with
  | some s =>
    if s.phase = 1 ∧ bitOf s.bands (bandNum b) then
      0x80000000 + s.next * 0x08000000 + (d.profBandOf s.next b).chan * 0x8000 + (s.c - sf) * 0x200 + cur * 16
    else d.freeVal % 0x400000 * 0x200 + cur * 16
  | none => d.freeVal % 0x400000 * 0x200 + cur * 16

/-- The 16 bytes of pend_bits of a segment (Table 4.5). -/
def pendBytes (bits : List Nat) (seg : Nat) : Bytes :=
  (List.range 16).map fun b => BitVec.ofNat 8 (((List.range 8).map fun i => if bits.contains (128 * seg + 8 * b + (7 - i)) then 2 ^ i else 0).sum)

/-- The beacon body (Table 4.5) with a lantern_time. -/
def Device.beaconBody (d : Device) (b : Band) (sf stampNs : Nat) : Bytes :=
  let seg := if d.lant.eclipseFlag then 0xFF else d.lant.pendSeg
  beBytes 8 stampNs ++ beBytes 1 d.timeQuality ++ beBytes 1 (d.beaconFlags sf) ++ beBytes 8 d.lant.charCopy.toNat
    ++ beBytes 2 d.lant.version ++ beBytes 2 (d.cf Reg.LANT_NET 31 16) ++ beBytes 1 (d.cf Reg.LANT_NET 15 8)
    ++ beBytes 1 seg ++ beBytes 4 (d.openMapOf b).toNat ++ beBytes 4 (d.regNotice b sf)
    ++ (if seg = 0xFF then zeros 16 else pendBytes d.lant.pendBits seg)

/-! ## Meanings -/

/-- DUTY_BUCKET_ROLL (R107). -/
def execDutyBucketRoll (t : Time) (s : State) : Host.Outcome State Fault Refusal := s.act t dutyBucketRoll

end Sys2Proof.Machine
end

