-- ==== Sys2Proof/Machine/Cipher.lean ====
section
/-! DEFINITION. The cipher engine: key store, replay windows, jobs and their admission, derivation, the check of
a received frame and the seal of a sent one (chapter 6). -/

namespace Sys2Proof.Machine

/-! ## The key store (R146) and the windows (R154) -/

/-- Key slot `s` of a client. -/
def Device.key (d : Device) (c s : Nat) : KeyEntry := d.ciph.keys.get KeyEntry.empty (2 * c + s)
def Device.onKey (d : Device) (c s : Nat) (f : KeyEntry → KeyEntry) : Device :=
  d.onCiph fun k => { k with keys := k.keys.upd KeyEntry.empty (2 * c + s) f }

/-- The window and downlink counter of link `h` under key slot `s`. -/
def Device.rwin (d : Device) (h s : Nat) : RWin := d.ciph.wins.get RWin.fresh (2 * h + s)
def Device.onRwin (d : Device) (h s : Nat) (f : RWin → RWin) : Device :=
  d.onCiph fun k => { k with wins := k.wins.upd RWin.fresh (2 * h + s) f }

/-- The slot of a client in a state. -/
def Device.slotIn (d : Device) (c : Nat) (st : KeySt) : Option Nat :=
  if (d.key c 0).st = st then some 0 else if (d.key c 1).st = st then some 1 else none

/-- The root record of a serial (R145). -/
def Device.rootOf (d : Device) (serial : DWord) : Option Root := d.ciph.roots.find? fun r => r.serial == serial

/-- gateway_id of the DM3. -/
def Device.gateway (d : Device) : Nat := d.cf Reg.LANT_NET 31 16

/-- The link of a client on a band. -/
def Device.linkOn (d : Device) (c : Nat) (b : Band) : Option Nat :=
  (d.client c).links.find? fun h => (d.linkOf h).used && decide ((d.linkOf h).band = b)

/-- Empties a key slot; the transition of the client ends with its RETIRING slot. -/
def Device.emptySlot (d : Device) (c s : Nat) : Device :=
  let was := (d.key c s).st
  let d := d.onKey c s fun _ => KeyEntry.empty
  if was = .retiring then d.onClient c fun k => { k with epochAt := none, retireAt := none, assocRetire := false } else d

/-! ## Usage (R157, R159) -/

/-- A key's limit and its announce threshold. -/
def Device.keyLimit (d : Device) : Nat := 2 ^ (max 16 (min 32 (d.cf Reg.CIPH_CTRL 13 8)))
def Device.keyAnnounce (d : Device) : Nat := d.keyLimit / 16 * 15

/-- A job of `n` block operations is admitted under an entry (R159). -/
def Device.keyAdmits (d : Device) (e n : Nat) : Bool :=
  decide ((d.ciph.keys.get KeyEntry.empty e).usage + n ≤ d.keyLimit)

/-- EV170, once for an entry (R157). -/
def Device.keyAnnounced (d : Device) (e : Nat) : Device :=
  if (d.ciph.keys.get KeyEntry.empty e).announced then d
  else (d.onCiph fun k => { k with keys := k.keys.upd KeyEntry.empty e fun x => { x with announced := true } }).raise 170 0

/-- An entry whose usage stands at the announce threshold is announced, however it came there (R157). -/
def Device.keyWatch (d : Device) (e : Nat) : Device :=
  let x := d.ciph.keys.get KeyEntry.empty e
  if x.st ≠ .empty ∧ d.keyAnnounce ≤ x.usage then d.keyAnnounced e else d

/-- A job is refused at its key's limit (R159). -/
def Device.keyRefused (d : Device) (e : Nat) : Device := (d.keyWatch e).raise 171 0

/-- Counts block operations to an entry. -/
def Device.keyCount (d : Device) (e n : Nat) : Device :=
  (d.onCiph fun k =>
    { k with keys := k.keys.upd KeyEntry.empty e fun x => if x.st = .empty then x else { x with usage := min 0xFFFFFFFFFF (x.usage + n) } }).keyWatch e

/-- Block operations of the CMAC of a frame, its tag included in `f`, and of CTR over its body. -/
def frameCmacOps (f : Bytes) : Nat := cmacBlocks (4 + (f.length - 8))
def frameCtrOps (f : Bytes) : Nat := if mEnc f then ceilDiv (mBody f).length 16 else 0

/-! ## The replay window (R154) -/

/-- A counter passes (log 90). -/
def RWin.passes (w : RWin) (c : Nat) : Bool :=
  decide (w.high < c) || (decide (c ≤ w.high ∧ w.high ≤ c + 63) && !bitOf w.map (w.high - c))

/-- The window after a counter has passed (log 90). -/
def RWin.take (w : RWin) (c : Nat) : RWin :=
  if w.high < c then { w with high := c, map := setBit (w.map <<< (c - w.high)) 0 }
  else { w with map := setBit w.map (w.high - c) }

/-! ## Slots in a transition (R158, R161) -/

/-- An EPOCH record waits to be sent (R98, R158). -/
def Client.epochPending (k : Client) : Bool := k.ctrl.any fun x => x.ty == 3

/-- The slot under which the DM3 seals a client's frames: the RETIRING one until E, and where the EPOCH record is repeated until
the new E that it names (R158). -/
def Device.sealSlot (d : Device) (c : Nat) : Option Nat :=
  let k := d.client c
  match d.slotIn c .retiring, k.epochAt with
  | some s, some e => if !k.assocRetire && (k.epochPending || decide (d.lant.sf < e)) then some s else d.slotIn c .current
  | _, _ => d.slotIn c .current

/-- The slots under which a frame of superframe `sf` is checked, in order. -/
def Device.checkSlots (d : Device) (c sf : Nat) : List Nat :=
  let late := match (d.client c).epochAt with
    | some e => decide (e ≤ sf)
    | none => true
  let cur := (d.slotIn c .current).toList
  let next := (d.slotIn c .next).toList
  let ret := (d.slotIn c .retiring).toList
  if !ret.isEmpty then (if late then cur ++ ret else ret ++ cur)
  else if late && (d.client c).epochAt.isSome then next ++ cur else cur ++ next

/-- NEXT becomes CURRENT and CURRENT becomes RETIRING, from superframe `e` (R158, R161). -/
def Device.slotSwitch (d : Device) (c e : Nat) : Device :=
  match d.slotIn c .next with
  | none => d
  | some n =>
    let d := if (d.key c (1 - n)).st = .current then d.onKey c (1 - n) fun x => { x with st := .retiring } else d
    let d := d.onKey c n fun x => { x with st := .current }
    if (d.key c (1 - n)).st = .retiring then d.onClient c fun k => { k with retireAt := some (e + 2 * 2 ^ k.k) }
    else d.onClient c fun k => { k with epochAt := none, assocRetire := false }

/-- What is due for a client at superframe `sf`: its switch, and the end of its RETIRING slot. -/
def Device.slotDue (d : Device) (c sf : Nat) : Device :=
  let d := match (d.client c).epochAt with
    | some e => if e ≤ sf then d.slotSwitch c e else d
    | none => d
  match (d.client c).retireAt, d.slotIn c .retiring with
  | some r, some s => if r < sf then d.emptySlot c s else d
  | _, _ => d

/-- EPOCH_SWITCH at a boundary (R158, R161). -/
def Device.epochSwitch (d : Device) (sf : Nat) : Device :=
  (d.lant.clients.map Prod.fst).foldl (fun d c => d.slotDue c sf) d

/-! ## Derivation (R144, R146, R158) -/

/-- The root key of a record: the engine unwraps it, and only here (R145) (log 98). -/
def Device.unwrap (d : Device) (r : Root) : Block := r.wrapped ^^^ Config.rootMask d.otp.key r.serial

/-- The join key of a serial (R143, R144). -/
def Device.joinKeyOf (d : Device) (r : Root) : Block := joinKey (d.unwrap r) r.serial d.gateway

/-- Writes the keys of an epoch into a slot. -/
def Device.deriveInto (d : Device) (c s epoch : Nat) (root : Root) (st : KeySt) : Device :=
  let k := linkKeys (d.unwrap root) root.serial d.gateway epoch
  d.onKey c s fun _ => ⟨st, k.1, k.2, epoch, 0, root.encReq, false⟩

/-- The windows and counters of a client under a slot start afresh (R154, R160). -/
def Device.freshWins (d : Device) (c s : Nat) : Device :=
  (d.client c).links.foldl (fun d h => d.onRwin h s fun _ => RWin.fresh) d

/-- The state a derived slot takes: NEXT beside a CURRENT slot, else CURRENT (R161). -/
def Device.derivedState (d : Device) (c s : Nat) : KeySt := if (d.key c (1 - s)).st = .current then .next else .current

/-- A derivation is refused or fails: the error bit and EV175. -/
def Device.kdfFail (d : Device) : Device := (d.onCiph fun k => { k with kdfError := true }).raise 175 0

/-! ## Jobs (R155) -/

/-- The engine takes new jobs: READY, and no low-power entry has begun (R319). -/
def Device.cipherOpen (d : Device) : Bool :=
  d.domSt 7 == 3 && !(d.pwr.st == 1 && match d.pwr.entryAt with
    | some n => decide (n ≤ d.lant.sf)
    | none => false)

/-- A job enters the engine. -/
def Device.jobStart (d : Device) (j : Job) : Device :=
  d.onCiph fun k => { k with jobs := k.jobs ++ [j], peakJobs := max k.peakJobs (k.jobs.length + 1) }

/-- A new job, waiting. -/
def Device.jobWait (d : Device) (kind : JobKind) (entry : Option Nat) (kMac kEnc : Block) : Device :=
  d.onCiph fun k =>
    { k with waiting := k.waiting ++ [⟨k.nextJob, kind, entry, kMac, kEnc, d.clk.now⟩], nextJob := k.nextJob + 1 }

/-- A job's place in the order of admission. -/
def JobKind.rank : JobKind → Nat
  | .sealing _ _ => 0
  | .check _ => 1
  | .derive _ _ _ _ => 2

/-- The job admitted next: seals, then checks, then derivations, each oldest first. -/
def nextJob (l : List Job) : Option Job :=
  ((l.find? fun j => j.kind.rank == 0).orElse fun _ => l.find? fun j => j.kind.rank == 1).orElse
    fun _ => l.find? fun j => j.kind.rank == 2

/-- The frame of a waiting or refused seal leaves the radio's schedule. -/
def Radio.unschedule (r : Radio) (id : Nat) : Radio :=
  let mine (x : TxRun) : Bool := x.frame.sealJob == some id
  { r with tx := r.tx.filter fun x => !mine x, txNext := r.txNext.filter fun x => !mine x }

/-- The scheduled run of a seal job. -/
def Radio.runOfJob (r : Radio) (id : Nat) : Option TxRun := (r.tx.toList ++ r.txNext).find? fun x => x.frame.sealJob == some id

/-- A scheduled frame is not sent after all, and nothing of it has gone out: a radio that is in TX for it ramps down, and goes on with
what follows. -/
def Device.unsend (d : Device) (b : Band) (id : Nat) (x : TxRun) (why : Requeue) : Device :=
  let air := (d.radio b).st == .tx && (d.radio b).tx == some x
  let d := d.onRad b fun r => r.unschedule id
  let d := d.frameBack b x.frame false why
  if air then (d.txOff b d.clk.now .locked (2 * usec)).replan b none else d.replan b none

/-- A frame whose seal cannot start in time for its planned start is requeued as late lock (R155). -/
def Device.sealLate (d : Device) (b : Band) (id : Nat) (x : TxRun) : Device :=
  ((d.unsend b id x .lateLock).inc16 (Reg.RAD_LATE_LOCK_CNT b)).raiseRad b 0 0

/-- Admission of a seal: refused at the key's limit, or late for its start. `none` where it is not admitted. -/
def Device.admitSeal (d : Device) (j : Job) (b : Band) (f : TxFrame) : Device :=
  let n := frameCmacOps (f.data ++ zeros 8) + frameCtrOps (f.data ++ zeros 8)
  let ok := match j.entry with
    | some e => d.keyAdmits e n
    | none => true
  match (d.radio b).runOfJob j.id with
  | none => if ok then d.jobStart j else d.keyRefused (j.entry.getD 0)
  | some x =>
    if x.firstSym < d.clk.now then d.sealLate b j.id x
    else if ok then d.jobStart j
    else (d.unsend b j.id x .keyLimit).keyRefused (j.entry.getD 0)

/-! ## The check of R153 -/

/-- What a check finds. -/
structure Checked where
  /-- code of Table 6.5; 16: UNKNOWN (R162) -/
  result : Nat
  /-- link and key slot under which the CMAC passed -/
  link : Option Nat
  slot : Option Nat
  /-- body in clear -/
  body : Bytes
deriving DecidableEq, Repr

/-- A result without effect. -/
def Checked.fail (r : Nat) : Checked := ⟨r, none, none, []⟩

/-- The CMAC of a received frame under a key. -/
def Device.tagOk (d : Device) (b : Band) (key : Block) (f : Bytes) : Bool :=
  tag8 key (cmacInput b d.gateway (f.take (f.length - 8))) == mTag f

/-- enc = 1 where Table 6.4 says never, or enc = 0 where the client's enc_req asks for it (R150). -/
def policyRefused (f : Bytes) (encReq : Bool) : Bool :=
  let ty := mType f
  if ty = tyReport ∨ ty = tyPoll ∨ ty = tyData ∨ ty = tyReply then
    encReq && !mEnc f && !(ty == tyData && (mBody f).isEmpty)
  else mEnc f

/-- The body in clear. -/
def clearBody (b : Band) (key : Block) (f : Bytes) : Bytes :=
  if mEnc f then ctrCrypt key (ctrPrefix (mClient f) b (mDir f) (mCounter f)) (mBody f) else mBody f

/-- The attempts under the slots in order; each is admitted and counted (R153). -/
def Device.checkTry (d : Device) (b : Band) (c h : Nat) (f : Bytes) : List Nat → Checked × Device
  | [] => (Checked.fail 1, d)
  | s :: rest =>
    let e := 2 * c + s
    if !d.keyAdmits e (frameCmacOps f + frameCtrOps f) then (Checked.fail 5, d.keyRefused e)
    else
      let k := d.key c s
      let d := d.keyCount e (frameCmacOps f)
      if !d.tagOk b k.kMac f then d.checkTry b c h f rest
      else if !(d.rwin h s).passes (mCounter f) then (Checked.fail 2, d)
      else if policyRefused f k.encReq then (Checked.fail 4, d)
      else
        let d := (d.onRwin h s fun w => w.take (mCounter f)).keyCount e (frameCtrOps f)
        (⟨0, some h, some s, clearBody b k.kEnc f⟩, d)

/-- The check of an ASSOC_REQ: the root record of its serial and its join counter. -/
def Device.checkJoin (d : Device) (b : Band) (f : Bytes) : Checked × Device :=
  let serial : DWord := BitVec.ofNat 64 (fieldAt (mBody f) 0 8)
  match d.rootOf serial with
  | none => (Checked.fail 16, d)
  | some r =>
    if !d.tagOk b (d.joinKeyOf r) f then (Checked.fail 1, d)
    else if (match r.joinHigh with
        | some j => decide (mCounter f ≤ j)
        | none => false) then (Checked.fail 2, d)
    else if mEnc f then (Checked.fail 4, d)
    else
      (⟨0, none, none, mBody f⟩, d.onCiph fun k =>
        { k with roots := k.roots.map fun x => if x.serial = serial then { x with joinHigh := some (mCounter f) } else x })

/-- Procedure check of R153 on a frame of superframe `sf`. -/
def Device.check (d : Device) (b : Band) (sf : Nat) (f : Bytes) : Checked × Device :=
  if mType f = tyAssocReq then d.checkJoin b f
  else
    let c := mClient f
    match d.linkOn c b, d.checkSlots c sf with
    | some h, s :: rest => if (d.client c).assoc then d.checkTry b c h f (s :: rest) else (Checked.fail 3, d)
    | _, _ => (Checked.fail 3, d)

/-- Counts a result (R156) and raises its event (Table 6.6). -/
def Device.countResult (d : Device) (r : Nat) : Device :=
  let d := if 1 ≤ r ∧ r ≤ 6 then d.inc (Reg.CIPH_RES_CNT r) else d
  if r = 1 then d.raise 168 0 else if r = 2 ∨ r = 6 then d.raise 169 0 else d

/-! ## Seals (R148, R149, R151) -/

/-- The frame with its body encrypted where enc = 1, and its tag. -/
def Device.sealBytes (d : Device) (b : Band) (kMac kEnc : Block) (f : Bytes) : Bytes :=
  let hdr := mHdr f
  let body := f.drop 8
  let body := if bitOf hdr 26 then ctrCrypt kEnc (ctrPrefix (fld hdr 25 13) b (bitOf hdr 27) (mCounter f)) body else body
  let x := f.take 8 ++ body
  x ++ tag8 kMac (cmacInput b d.gateway x)

/-- The next downlink counter of a link under a slot, which is consumed (R151, R152) (log 86). -/
def Device.takeCounter (d : Device) (c h s : Nat) : Nat × Device :=
  let n := (d.rwin h s).tx
  let d := d.onRwin h s fun w => { w with tx := w.tx + 1 }
  (n, if 0xFFFF0000 ≤ n + 1 then d.keyAnnounced (2 * c + s) else d)

/-! ## Rows of the engine -/

/-- JOB_ADMIT. -/
def jobAdmit (d : Device) : Device :=
  if !d.cipherOpen || decide (64 ≤ d.ciph.jobs.length) then d
  else match nextJob d.ciph.waiting with
    | none => d
    | some j =>
      let d := d.onCiph fun k => { k with waiting := k.waiting.filter fun x => x.id != j.id }
      match j.kind with
      | .sealing b f => d.admitSeal j b f
      | _ => d.jobStart j

/-- A new job is admitted at once where a slot is free and none waits before it. -/
def Device.submit (d : Device) (kind : JobKind) (entry : Option Nat) (kMac kEnc : Block) : Device :=
  let idle := d.ciph.waiting.isEmpty
  let d := d.jobWait kind entry kMac kEnc
  if idle then jobAdmit d else d

/-- The job of an id leaves the engine. -/
def Device.jobDone (d : Device) (id : Nat) : Device := d.onCiph fun k => { k with jobs := k.jobs.filter fun j => j.id != id }

/-- CIPH_KDF_CMD: refused for a CURRENT or RETIRING slot; else the derivation is a job, and busy shows it (R146, R155). -/
def Device.kdfGo (d : Device) (c s epoch : Nat) (why : DeriveFor) : Device :=
  let st := (d.key c s).st
  if st = .current ∨ st = .retiring then d.kdfFail
  else (d.onCiph fun k => { k with kdfBusy := true, kdfError := false }).submit (.derive c s epoch why) none 0 0

/-- KDF_CMD. -/
def kdfCmd (v : Word) (d : Device) : Device :=
  d.keeperAccess Reg.CIPH_KDF_CMD fun d => if bitOf v 31 then d.kdfGo (fld v 28 16) (fld v 30 30) (fld v 15 0) .command else d

/-- Keys of a client are being derived. -/
def Device.deriving_ (d : Device) (c : Nat) : Bool :=
  (d.ciph.jobs ++ d.ciph.waiting).any fun j => match j.kind with
    | .derive c' _ _ _ => c' == c
    | _ => false

/-- The derivations of a client are given up. -/
def Device.deriveDrop (d : Device) (c : Nat) : Device :=
  let mine (j : Job) : Bool := match j.kind with
    | .derive c' _ _ _ => c' == c
    | _ => false
  d.onCiph fun k => { k with jobs := k.jobs.filter fun j => !mine j, waiting := k.waiting.filter fun j => !mine j }

/-- KEY_SERVICE_EPOCH: Keeper has the next epoch derived into the free slot (R157). -/
def keyServiceEpoch (client : Fin 8192) (d : Device) : Device :=
  let c := client.val
  if d.domDown 1 || !d.cipherOpen || d.pwr.st != 0 then d
  else match d.slotIn c .current with
    | some s =>
      if (d.key c s).announced ∧ (d.key c (1 - s)).st = .empty ∧ (d.client c).assoc ∧ !d.deriving_ c then
        d.kdfGo c (1 - s) (((d.key c s).epoch + 1) % 65536) .epoch
      else d
    | none => d

/-! ## Meanings -/

/-- JOB_ADMIT (R155). -/
def execJobAdmit (t : Time) (s : State) : Host.Outcome State Fault Refusal := s.act t jobAdmit

/-- KDF_CMD (R146). -/
def execKdfCmd (t : Time) (v : Word) (s : State) : Host.Outcome State Fault Refusal := s.act t (kdfCmd v)

/-- KEY_SERVICE_EPOCH (R157). -/
def execKeyServiceEpoch (t : Time) (client : Fin 8192) (s : State) : Host.Outcome State Fault Refusal := s.act t (keyServiceEpoch client)

end Sys2Proof.Machine
end

