-- ==== Sys2Proof/Machine/Memory.lean ====
section
/-! DEFINITION. The DRAM channels, their training, and the check-value units (chapter 11). -/

namespace Sys2Proof.Machine

/-! ## DRAM addresses (R241) -/

/-- First address of DRAM (R12). -/
def dramBase : Nat := 0x200000000

/-- The channel of an address: bit 8 of the DRAM offset. -/
def dramChan (addr : Nat) : Nat := (addr - dramBase) / 256 % 2

/-- The channel address: the offset without bit 8. -/
def dramCAddr (addr : Nat) : Nat :=
  let a := addr - dramBase
  a / 512 * 256 + a % 256

/-- Bank and row of a channel address. -/
def dramBank (addr : Nat) : Nat := dramCAddr addr / 2048 % 8
def dramRow (addr : Nat) : Nat := dramCAddr addr / 16384

/-- The 64-byte block of an address. -/
def dramBlock (addr : Nat) : Nat := addr / 64

/-- Page attribute OPEN of a requester; Keeper's comes from its page tables (Table 11.2). -/
def pageOpen (req : Nat) (keepOpen : Bool) : Bool :=
  match req with
  | 0 => keepOpen
  | 2 => true
  | 5 => true
  | _ => false

/-! ## Requests (R240, R243 to R245) -/

/-- The channel of a number. -/
def Mem.chan (m : Mem) (c : Nat) : Channel := if c = 0 then m.ch0 else m.ch1

/-- Changes a channel. -/
def Mem.onChan (m : Mem) (c : Nat) (f : Channel → Channel) : Mem :=
  if c = 0 then { m with ch0 := f m.ch0 } else { m with ch1 := f m.ch1 }

/-- Row `k` of a request lies in bank `k`. -/
def DReq.bank (r : DReq) : Nat := dramBank r.addr

/-- The request meets an earlier one of `before` to the same block that it may not pass (R244). -/
def DReq.blockedBy (r : DReq) (before : List DReq) : Bool :=
  before.any fun q => dramBlock q.addr == dramBlock r.addr && (q.data.isSome || r.data.isSome)

/-- The requests that may be served: none passes an earlier one of its block, and in a bank in in-order
mode only the earliest is served (R244, R245). -/
def eligible (banks : Tab Bank) (before : List DReq) : List DReq → List DReq
  | [] => []
  | r :: rest =>
    let ordered := (banks.get Bank.closed r.bank).inOrder.isSome
    let ok := !r.blockedBy before && !(ordered && before.any fun q => q.bank == r.bank)
    if ok then r :: eligible banks (before ++ [r]) rest else eligible banks (before ++ [r]) rest

/-- The request served next (R244): one that has waited 2 µs, oldest first; else a row hit, oldest first;
else the oldest. -/
def Channel.pick (c : Channel) (now : Time) : Option DReq :=
  let es := eligible c.banks [] c.reqs
  match es.find? (fun r => decide (r.since + 2 * usec ≤ now)) with
  | some r => some r
  | none =>
    match es.find? (fun r => decide ((c.banks.get Bank.closed r.bank).row = some (dramRow r.addr))) with
    | some r => some r
    | none => es.head?

/-- The writes whose completion ends in-order mode: pending in the bank and in the row of a read that
waits there (R245). -/
def Channel.orderWrites (c : Channel) (bank : Nat) : List Nat :=
  let rs := c.reqs.filter fun r => r.bank == bank
  let rows := (rs.filter fun r => r.data.isNone).map fun r => dramRow r.addr
  (rs.filter fun r => r.data.isSome && rows.contains (dramRow r.addr)).map DReq.id

/-- A read that finds an earlier write to its row of its bank pending puts the bank in in-order mode. -/
def Channel.startsOrder (c : Channel) (r : DReq) : Bool :=
  r.data.isNone && (c.banks.get Bank.closed r.bank).inOrder.isNone &&
    c.reqs.any fun q => q.data.isSome && q.bank == r.bank && dramRow q.addr == dramRow r.addr

/-- A request reaches its channel, which exits self-refresh for it (R244, R249) (log 102). -/
def Device.dramAdmit (d : Device) (ch : Nat) (q : DReq) : Device :=
  let c := d.mem.chan ch
  let r : DReq := { q with since := d.clk.now }
  let c' := { c with reqs := c.reqs ++ [r], lastReq := d.clk.now, st := if c.st = 3 ∨ c.st = 4 then 5 else c.st }
  if c.startsOrder r then
    (d.onMem fun m => m.onChan ch fun _ =>
      { c' with banks := c'.banks.upd Bank.closed r.bank fun b =>
                  { b with inOrder := some (c'.orderWrites r.bank) } }).inc (Reg.MEM_CH_INORDER_CNT ch)
  else d.onMem fun m => m.onChan ch fun _ => c'

/-- DRAM_REQUEST: a request reaches its channel; a requester whose channel holds 128 requests waits at
its crossing (R240). A channel in self-refresh is left for it (R249); a channel that is OFF serves nothing. -/
def dramRequest (req addr : Nat) (keepOpen : Bool) (data : Option Bytes) (d : Device) : Device :=
  let ch := dramChan addr
  let c := d.mem.chan ch
  let r : DReq := ⟨d.mem.nextReq, req, addr / 64 * 64, pageOpen req keepOpen, data.map (padTo 64), d.clk.now⟩
  if c.st = 0 then d
  else
    let d := d.onMem fun m => { m with nextReq := m.nextReq + 1 }
    if c.reqs.length < 128 then d.dramAdmit ch r
    else d.onMem fun m => m.onChan ch fun c => { c with held := c.held ++ [r] }

/-- The data movement of a served request: a write stores its block, a read hands it out. -/
def Device.dramMove (d : Device) (r : DReq) : Device :=
  match r.data with
  | some b => d.onMem fun m => { m with bytes := writeBytes m.bytes r.addr b }
  | none => d.emit (.mem r.addr (readBytes d.mem.bytes r.addr 64))

/-- The bank after an access to `row`: precharged at once under CLOSE or with open_max of 0, else the row
stays open (R243); in-order mode ends with the last of its writes (R245). -/
def Bank.served (b : Bank) (r : DReq) (openMax : Nat) (now : Time) : Bank :=
  { row := if r.keepOpen && openMax ≠ 0 then some (dramRow r.addr) else none
    lastUse := now
    inOrder := match b.inOrder with
      | none => none
      | some ws => if (ws.erase r.id).isEmpty then none else some (ws.erase r.id) }

/-- DRAM_REQUEST_COMPLETE: the request that R244 serves next is served and retires, and a requester held
for want of room enters. -/
def dramRequestComplete (ch : Fin 2) (d : Device) : Device :=
  let c := d.mem.chan ch
  match c.pick d.clk.now with
  | none => d
  | some r =>
    let b := c.banks.get Bank.closed r.bank
    let hit := decide (b.row = some (dramRow r.addr))
    let d := d.inc (if hit then Reg.MEM_CH_ROWHIT_CNT ch else Reg.MEM_CH_ROWMISS_CNT ch)
    let d := d.dramMove r
    let openMax := d.cf (Reg.MEM_CH_CTRL ch) 7 0
    let d := d.onMem fun m => m.onChan ch fun c =>
      { c with reqs := c.reqs.filter fun q => q.id ≠ r.id
               lastReq := d.clk.now
               st := 2
               banks := c.banks.upd Bank.closed r.bank fun b => b.served r openMax d.clk.now }
    match c.held with
    | [] => d
    | h :: rest => (d.onMem fun m => m.onChan ch fun c => { c with held := rest }).dramAdmit ch h

/-- Closes every open row of a channel. -/
def Channel.closeRows (c : Channel) : Channel :=
  { c with banks := c.banks.filterMap fun (k, b) =>
      if { b with row := none } = Bank.closed then none else some (k, { b with row := none }) }

/-- ROW_CLOSE_TIMEOUT: an open row with no access for open_max cycles of 533.25 MHz is precharged (R243). -/
def rowCloseTimeout (ch : Fin 2) (bank : Fin 8) (d : Device) : Device :=
  let b := (d.mem.chan ch).banks.get Bank.closed bank
  if b.row.isSome && decide (d.cf (Reg.MEM_CH_CTRL ch) 7 0 * 8000 ≤ (d.clk.now - b.lastUse) * 2133) then
    d.onMem fun m => m.onChan ch fun c =>
      { c with banks := c.banks.upd Bank.closed bank fun b => { b with row := none } }
  else d

/-- REFRESH_DUE: the refresh is issued before any waiting request and closes the rows of an active channel
(R243, R249). -/
def refreshDue (ch : Fin 2) (d : Device) : Device :=
  if (d.mem.chan ch).st = 2 then d.onMem fun m => m.onChan ch Channel.closeRows else d

/-- The state that MEM_CH_STATUS shows: entry takes at most 1 µs, and how much less is open (R249) (log 102). -/
def Channel.shows (c : Channel) (now free : Nat) : Nat :=
  if c.st = 3 then (if c.entry + usec ≤ now then 4 else 3 + free % 2) else c.st

/-- sr_idle in half ns: 0 acts as 1 µs, above 10,000 as 10,000 µs (Table 11.7). -/
def Device.srIdle (d : Device) : Time :=
  let v := d.cf Reg.MEM_SR_CTRL 13 0
  (if v = 0 then 1 else min v 10000) * usec

/-- SELF_REFRESH_ENTRY: an active channel without a request for sr_idle enters self-refresh (R249). -/
def selfRefreshEntry (ch : Fin 2) (d : Device) : Device :=
  let c := d.mem.chan ch
  if c.st = 2 && c.reqs.isEmpty && decide (c.lastReq + d.srIdle ≤ d.clk.now) then
    (d.onMem fun m => m.onChan ch fun c => { c.closeRows with st := 3, entry := d.clk.now }).inc Reg.MEM_SR_ENTRY_CNT
  else d

/-! ## Training (R246 to R248) -/

/-- eye_min, 1/64 UI; 0 acts as 1 (Table 11.7). -/
def Device.eyeMin (d : Device) : Nat := max 1 (d.cf Reg.MEM_TRAIN_CTRL 5 0)

/-- The result code of a byte lane (Table 11.8) (log 55). -/
def eyeResult (e : LaneEye) (eyeMin : Nat) : Nat :=
  if !e.gate then 2 else if e.rd = 0 then 3 else if e.wr = 0 then 4
  else if min e.rd e.wr < eyeMin then 1 else 0

/-- The lane a run gives for index `i`; a lane the run does not list has no passing gate. -/
def runLane (run : TrainRun) (i : Nat) : LaneEye := (run[i]?).getD ⟨false, 0, 0⟩

/-- The results of a full run. -/
def trainTab (run : TrainRun) (eyeMin : Nat) : Tab LaneTrain :=
  (List.range 8).foldl (fun t i =>
    let e := runLane run i
    t.set LaneTrain.reset i ⟨eyeResult e eyeMin, e.rd, e.wr⟩) []

/-- A channel fails when one of its four lanes does. -/
def chanFails (t : Tab LaneTrain) (c : Nat) : Bool :=
  (List.range 4).any fun i => decide (2 ≤ (t.get LaneTrain.reset (4 * c + i)).result)

/-- Raises EV193 for each MARGINAL lane. -/
def Device.raiseMarginal (d : Device) : List Nat → Device
  | [] => d
  | i :: rest =>
    ((if (d.mem.train.get LaneTrain.reset i).result = 1 then d.raise 193 0 else d)).raiseMarginal rest

/-- The DRAM contents are lost: every listed byte from the DRAM base on is dropped (R250, log 11). -/
def Device.dramLost (d : Device) : Device :=
  d.onMem fun m => { m with bytes := m.bytes.filter fun c => c.1 < dramBase, retained := false }

/-- The training area, the first 8 KiB of DRAM, is overwritten (Table 11.1, R246): its bytes are undefined
after it and read as bytes nothing has written (log 11). -/
def Device.trainAreaLost (d : Device) : Device :=
  d.onMem fun m => { m with bytes := m.bytes.filter fun c => c.1 < dramBase || dramBase + 0x2000 ≤ c.1 }

/-- One full training (R246, R247): the results, channel states, EV193 for MARGINAL lanes. -/
def Device.trainFull (d : Device) (run : TrainRun) : Device :=
  let t := trainTab run d.eyeMin
  let f0 := chanFails t 0
  let f1 := chanFails t 1
  let st := if f0 || f1 then 0 else 2
  let d := d.trainAreaLost.onMem fun m =>
    { m with train := t, trainDone := true, trainWarm := false, fail0 := f0, fail1 := f1,
             keptTrain := !(f0 || f1),
             ch0 := { Channel.reset with st := st, lastReq := d.clk.now },
             ch1 := { Channel.reset with st := st, lastReq := d.clk.now } }
  d.raiseMarginal (List.range 8)

/-- Training passed: no channel failed. -/
def Mem.ok (m : Mem) : Bool := m.trainDone && !m.fail0 && !m.fail1

/-- The restore of R248: read gate and read eye are re-centred; a lane without a passing window has the
full training run with the next run's findings, and EV196 is raised; else the narrower of the new read eye and the kept write
eye says which lanes are MARGINAL (R247) (log 50, 55). -/
def Device.trainWarm (d : Device) (runs : List TrainRun) : Device :=
  let run := (runs[0]?).getD []
  let bad := (List.range 8).any fun i => let e := runLane run i; !e.gate || e.rd == 0
  if bad then (d.raise 196 0).trainFull ((runs[1]?).getD [])
  else
    let d := d.onMem fun m =>
      { m with train := (List.range 8).foldl (fun t i =>
                 t.upd LaneTrain.reset i fun x =>
                   let rd := (runLane run i).rd
                   { x with rd := rd, result := eyeResult ⟨true, rd, x.wr⟩ d.eyeMin }) m.train
               trainDone := true, trainWarm := true, fail0 := false, fail1 := false,
               ch0 := { Channel.reset with st := 2, lastReq := d.clk.now },
               ch1 := { Channel.reset with st := 2, lastReq := d.clk.now } }
    d.raiseMarginal (List.range 8)

/-! ## Check-value units (R254, R255) -/

/-- The unit's record. -/
def Device.cvUnit (d : Device) (n : Nat) : Cv := d.cv.get Cv.reset n

/-- Changes the unit's record. -/
def Device.onCv (d : Device) (n : Nat) (f : Cv → Cv) : Device := { d with cv := d.cv.upd Cv.reset n f }

/-- w of unit `n` (Table 11.9). -/
def Device.cvWidth (d : Device) (n : Nat) : Nat := d.cf (Reg.CV_CTRL n) 5 0 + 1

/-- A stored 64-bit register read as one number. -/
def Device.cfg64 (d : Device) (lo hi : Nat) : Nat := (d.cfg hi).toNat * 4294967296 + (d.cfg lo).toNat

/-- CVn_RESULT (R254). -/
def Device.cvResult (d : Device) (n : Nat) : DWord :=
  let w := d.cvWidth n
  let s := (d.cvUnit n).now.s.toNat % 2 ^ w
  let r := if d.cb (Reg.CV_CTRL n) 8 then revBits w s else s
  BitVec.ofNat 64 (r ^^^ (d.cfg64 (Reg.CV_XOROUT_LO n) (Reg.CV_XOROUT_HI n) % 2 ^ w))

/-- One write takes effect in unit `n` (R254, R255): the low feed_bytes bytes of a word are fed most significant byte first;
the high word of a state replaces s, with the low word written before it. -/
def Device.cvApply (d : Device) (n : Nat) (c : CvNow) : CvOp → CvNow
  | .start => { c with s := BitVec.ofNat 64 (d.cfg64 (Reg.CV_INIT_LO n) (Reg.CV_INIT_HI n) % 2 ^ d.cvWidth n) }
  | .feed v =>
    let k := d.cf (Reg.CV_CTRL n) 10 9 + 1
    let w := d.cvWidth n
    let poly := d.cfg64 (Reg.CV_POLY_LO n) (Reg.CV_POLY_HI n)
    { c with s := BitVec.ofNat 64 (cvFeed w poly (d.cb (Reg.CV_CTRL n) 7) (c.s.toNat % 2 ^ w) ((beBytes 4 v.toNat).drop (4 - k))) }
  | .stateLo v => { c with lo := v }
  | .stateHi v => { c with s := BitVec.ofNat 64 ((v.toNat * 4294967296 + c.lo.toNat) % 2 ^ d.cvWidth n) }

/-- The write that wins: its requester comes first from the pointer on; of one requester the first issued (R17, R21). -/
def cvPick (ptr : Nat) : List (Nat × CvOp) → Option (Nat × CvOp)
  | [] => none
  | x :: r => match cvPick ptr r with
    | some y => if (y.1 + 8 - ptr) % 8 < (x.1 + 8 - ptr) % 8 then some y else some x
    | none => some x

/-- The writes of one cycle take effect in the arbiter's order; `n` bounds them. -/
def Device.cvRun (d : Device) (unit : Nat) : Nat → CvNow → List (Nat × CvOp) → CvNow
  | 0, c, _ => c
  | n + 1, c, l => match cvPick c.ptr l with
    | none => c
    | some x => d.cvRun unit n { d.cvApply unit c x.2 with ptr := (x.1 + 1) % 8 } (l.erase x)

/-- A write to a unit: with those that came in the same cycle, in the arbiter's order (R17, R255). The unit's settings are as
they stand (log 5). -/
def Device.cvPut (d : Device) (req n : Nat) (op : CvOp) : Device :=
  d.onCv n fun c =>
    let same := c.since == d.clk.now
    let base := if same then c.was else c.now
    let ops := (if same then c.ops else []) ++ [(req % 8, op)]
    ⟨d.cvRun n ops.length base ops, d.clk.now, base, ops⟩

/-- CV_START. -/
def cvStart (req : Nat) (n : Fin 4) (d : Device) : Device := d.access req (Reg.CV_CMD n) 4 fun d => d.cvPut req n .start

/-- CV_DATA. -/
def cvData (req : Nat) (n : Fin 4) (v : Word) (d : Device) : Device :=
  d.access req (Reg.CV_DATA n) 4 fun d => d.cvPut req n (.feed v)

/-- CV_STATE_WRITE: the write of the high word. -/
def cvStateWrite (req : Nat) (n : Fin 4) (hi : Word) (d : Device) : Device :=
  d.access req (Reg.CV_STATE_HI n) 4 fun d => d.cvPut req n (.stateHi hi)

/-! ## Meanings -/

/-- DRAM_REQUEST (R244). -/
def execDramRequest (t : Time) (req addr : Nat) (keepOpen : Bool) (data : Option Bytes) (s : State) :
    Host.Outcome State Fault Refusal :=
  s.act t (dramRequest req addr keepOpen data)

/-- DRAM_REQUEST_COMPLETE (R240). -/
def execDramRequestComplete (t : Time) (ch : Fin 2) (s : State) : Host.Outcome State Fault Refusal :=
  s.act t (dramRequestComplete ch)

/-- ROW_CLOSE_TIMEOUT (R243). -/
def execRowCloseTimeout (t : Time) (ch : Fin 2) (bank : Fin 8) (s : State) : Host.Outcome State Fault Refusal :=
  s.act t (rowCloseTimeout ch bank)

/-- REFRESH_DUE (R249). -/
def execRefreshDue (t : Time) (ch : Fin 2) (s : State) : Host.Outcome State Fault Refusal :=
  s.act t (refreshDue ch)

/-- SELF_REFRESH_ENTRY (R249). -/
def execSelfRefreshEntry (t : Time) (ch : Fin 2) (s : State) : Host.Outcome State Fault Refusal :=
  s.act t (selfRefreshEntry ch)

/-- CV_START (R254). -/
def execCvStart (t : Time) (req : Nat) (n : Fin 4) (s : State) : Host.Outcome State Fault Refusal := s.act t (cvStart req n)

/-- CV_DATA (R255). -/
def execCvData (t : Time) (req : Nat) (n : Fin 4) (v : Word) (s : State) : Host.Outcome State Fault Refusal :=
  s.act t (cvData req n v)

/-- CV_STATE_WRITE (R255). -/
def execCvStateWrite (t : Time) (req : Nat) (n : Fin 4) (hi : Word) (s : State) : Host.Outcome State Fault Refusal :=
  s.act t (cvStateWrite req n hi)

end Sys2Proof.Machine
end

