-- ==== Sys2Proof/Machine/Mirror.lean ====
section
/-! DEFINITION. What a twin sends on the Range link: KEEPALIVE frames, MIRROR channels with their windows, and
the copies of a resynchronisation (R301, R303 to R306). -/

namespace Sys2Proof.Machine

/-! ## K_pair (R303) -/

/-- The beacon key, where one is held. -/
def Device.beaconKey (d : Device) : Option Block :=
  match d.ciph.beaconKey with
  | some (_, k) => some k
  | none => d.lant.sealer.map Prod.snd

/-- The MAC key of K_pair. -/
def Device.pairKey (d : Device) : Option Block :=
  d.beaconKey.map fun k => kdfBlock k 1 labelTwin (beBytes 2 d.gateway) 256

/-! ## KEEPALIVE (R301, Table 14.3) -/

/-- Serves as LIT or unpaired (Table 14.1), and has not yielded (R309) (log 42). -/
def Device.litOrOff (d : Device) : Bool := d.twin.role == 0 || (d.twin.role == 2 && !d.twin.yielding)

/-- The payload of a KEEPALIVE frame but for its tag. -/
def Device.keepBody (d : Device) : Bytes :=
  let t := d.twin
  beBytes 1 t.role ++ beBytes 1 (128 * b2n (bitOf d.start.straps 1) + 64 * b2n (t.sync == 2) + 32 * b2n t.mirrorStale + 16 * b2n t.spoolBehind)
    ++ zeros 2 ++ beBytes 4 d.lant.sf ++ beBytes 8 d.ll.devChar.toNat ++ beBytes 8 d.lanes.rng.nonce.toNat
    ++ beBytes 8 d.otp.serial.toNat

/-- Sends a KEEPALIVE frame whose ack_seq is that of MIRROR channel `ch`; without the beacon key there is no
K_pair, and none is sent. -/
def Device.keepSend (d : Device) (ch : Nat) : Device :=
  match d.pairKey with
  | none => d
  | some k =>
    if d.lanes.rng.st = 2 then
      let b := d.keepBody
      (d.rngSend rtKeep ch (b ++ tag8 k b)).onRng fun r => { r with lastKeep := d.clk.now }
    else d

/-! ## MIRROR channels (R304) -/

/-- Channel numbers (Table 14.4). -/
def mcControl : Nat := 0
def mcRoster : Nat := 1
def mcKeys : Nat := 2
def mcCounters : Nat := 3
def mcPlan : Nat := 4
def mcSpool : Nat := 5

/-- Changes a channel. -/
def Device.onMirror (d : Device) (ch : Nat) (f : MirChan → MirChan) : Device :=
  d.onRng fun r => { r with mirror := r.mirror.upd MirChan.reset ch f }

/-- The tag of a MIRROR frame: over the receiver's session nonce, the header and the payload (R303). -/
def mirrorTag (k : Block) (nonce : DWord) (ch len seq : Nat) (payload : Bytes) : Bytes :=
  tag8 k (beBytes 8 nonce.toNat ++ beBytes 1 rtMirror ++ beBytes 1 ch ++ beBytes 2 len ++ beBytes 4 seq ++ payload)

/-- Puts one frame of a channel on the link. -/
def Device.mirrorEmit (d : Device) (ch : Nat) (f : MirFrame) : Device :=
  match d.pairKey with
  | none => d
  | some k =>
    let len := f.payload.length + 8
    let p := f.payload ++ mirrorTag k d.lanes.rng.peerNonce ch len f.seq f.payload
    (d.rngOut (rngBytes rtMirror ch f.seq (d.ackSeq ch) p)).freeNext

/-- Frames may be sent on the MIRROR channels: the link is UP and the peer's session nonce is known (log 74). -/
def Device.mirrorOpen (d : Device) : Bool := d.lanes.rng.st == 2 && d.lanes.rng.peerKnown && d.pairKey.isSome

/-- Sends from a channel's backlog while its window of 256 frames has room; `n` bounds the frames (log 30). -/
def Device.mirrorPump (d : Device) (ch : Nat) : Nat → Device
  | 0 => d
  | n + 1 =>
    let c := d.mirror ch
    match c.backlog with
    | [] => d
    | p :: rest =>
      if d.mirrorOpen && decide (c.unacked.length < 256) then
        let f : MirFrame := ⟨c.txSeq, p⟩
        let d := d.onMirror ch fun c =>
          { c with backlog := rest, unacked := c.unacked ++ [f], txSeq := (c.txSeq + 1) % 4294967296, sentAt := if c.unacked.isEmpty then d.clk.now else c.sentAt }
        (d.mirrorEmit ch f).mirrorPump ch n
      else d

/-- Queues records on a channel and sends what fits. -/
def Device.mirrorQueue (d : Device) (ch : Nat) (l : List MirRec) : Device :=
  (d.onMirror ch fun c => { c with backlog := c.backlog ++ l.map Config.mirrorEncode }).mirrorPump ch 256

/-- RESYNC begins: no channel's copy is complete (R306). -/
def Device.enterResync (d : Device) : Device :=
  let d := (d.onTwin fun t => { t with sync := 1, spoolBehind := true, spoolLeft := 1 }).raise 18 0
  [0, 1, 2, 3, 4, 5].foldl (fun d ch => d.onMirror ch fun c => { c with done := false }) d

/-! ## Copies (R305, R306) -/

/-- Records of every key slot, link window and client. -/
def Device.keyRecs (d : Device) : List MirRec :=
  d.ciph.keys.map fun (i, k) => .key (i / 2) (i % 2) k.st k.epoch k.usage k.encReq
def Device.counterRecs (d : Device) : List MirRec := d.ciph.wins.map fun (i, w) => .counter (i / 2) (i % 2) w
def Device.rosterRecs (d : Device) : List MirRec :=
  d.lant.clients.map (fun (c, k) => .client c k) ++ d.lant.links.map fun (h, l) => .link h l
def Device.planRecs (d : Device) : List MirRec :=
  .plan d.lant.plan d.lant.version :: (d.lant.commit.toList.map fun c => .commit c)
    ++ [.openMap .l d.lant.openMap.l, .openMap .m d.lant.openMap.m, .openMap .h d.lant.openMap.h, .depth (d.cf Reg.LANT_NET 15 8)]
def Device.controlRecs (d : Device) : List MirRec :=
  [.resync, .role d.twin.role] ++ (d.lant.switch_.toList.filter (fun s => s.phase == 1)).map fun s => .profile s.next s.c

/-- First address and length of a 1 MiB block of the spool, and its CRC-32C summary. -/
def Device.spoolBlock (d : Device) (i : Nat) : Word :=
  w32 (crc32c (readBytes d.mem.bytes (0x280000000 + i * 0x100000) 0x100000))

/-- Spool blocks that may hold entries. -/
def Device.spoolBlocks (d : Device) : Nat := min 6144 (ceilDiv (72 * d.keep.wr) 0x100000)

/-- The lit twin sends full copies of CONTROL, KEYSTATE, COUNTERS, PLAN and ROSTER, and then the spool. -/
def Device.resyncCopies (d : Device) : Device :=
  let d := d.mirrorQueue mcControl (d.controlRecs ++ [.done])
  let d := d.mirrorQueue mcKeys (d.keyRecs ++ [.done])
  let d := d.mirrorQueue mcCounters (d.counterRecs ++ [.done])
  let d := d.mirrorQueue mcPlan (d.planRecs ++ [.done])
  let d := d.mirrorQueue mcRoster (d.rosterRecs ++ [.done])
  d.mirrorQueue mcSpool ([.spoolPos d.keep.wr d.keep.fwd d.keep.chain]
    ++ ((List.range d.spoolBlocks).map fun i => .spoolSum i (d.spoolBlock i)) ++ [.done])

/-- A lit twin of a pair. -/
def Device.mirrors (d : Device) : Bool := d.twin.role == 2 && d.lanes.rng.st == 2

/-- A change is mirrored as it happens; a window that is full puts the pair into RESYNC (R304). -/
def Device.mirrorNow (d : Device) (ch : Nat) (l : List MirRec) : Device :=
  if !d.mirrors || l.isEmpty then d
  else if d.twin.sync = 2 ∧ 256 ≤ (d.mirror ch).unacked.length then
    (((d.onTwin fun t => { t with sync := 1 }).raise 18 0).onRng fun r => { r with mirror := r.mirror.map fun (i, c) => (i, { c with backlog := [] }) }).resyncCopies
  else d.mirrorQueue ch l

/-! ## The end of a derivation (R144, R146, R305) -/

/-- What Keeper does with keys derived into a slot, by its reason: it announces the next epoch to the client, whose EPOCH record
names its superframe as it is sent (R98, R157); it lets an association's epoch fall due in the superframe of its response, or at
once where no slot was held (R161); or it gives the slot the mirrored state and usage (R305). -/
def Device.derived (d : Device) (c s epoch : Nat) : DeriveFor → Device
  | .command => d.freshWins c s
  | .epoch => (d.freshWins c s).onClient c fun k => { k with ctrl := k.ctrl ++ [⟨3, beBytes 2 epoch ++ zeros 4⟩] }
  | .assoc r =>
    let next := (d.key c s).st == .next
    (d.freshWins c s).onClient c fun k => { k with epochAt := if next then some r else none, retireAt := none, assocRetire := next }
  | .mirrored st usage => (d.onKey c s fun x => { x with st := st, usage := usage }).keyWatch (2 * c + s)

/-- A key slot as it is mirrored. -/
def Device.keyRec (d : Device) (c s : Nat) : MirRec := .key c s (d.key c s).st (d.key c s).epoch (d.key c s).usage (d.key c s).encReq
def Device.mirrorKeySlot (d : Device) (c s : Nat) : Device := d.mirrorNow mcKeys [d.keyRec c s]

/-- KDF_JOB_END: the oldest derivation in flight ends, with the keys of its client's serial in the slot. -/
def kdfJobEnd (d : Device) : Device :=
  match d.ciph.jobs.find? fun j => j.kind.rank == 2 with
  | none => d
  | some j =>
    match j.kind with
    | .derive c s epoch why =>
      let d := d.jobDone j.id
      let more := (d.ciph.jobs ++ d.ciph.waiting).any fun x => x.kind.rank == 2
      let d := d.onCiph fun k => { k with kdfBusy := more }
      if (d.client c).assoc then
        match d.rootOf (d.client c).serial with
        | some r => ((d.deriveInto c s epoch r (d.derivedState c s)).derived c s epoch why).mirrorKeySlot c s
        | none => d.kdfFail
      else d.kdfFail
    | _ => d

/-- A frame on CONTROL, from whichever twin. -/
def Device.control (d : Device) (r : MirRec) : Device :=
  if d.lanes.rng.st = 2 then d.mirrorQueue mcControl [r] else d

/-- Downlink counters that differ from their last mirrored values, and usage counts, at a boundary (R305). -/
def Device.mirrorBoundary (d : Device) : Device :=
  if !d.mirrors then d
  else
    let changed := d.ciph.wins.filter fun (i, w) => w.tx != d.twin.lastTx.get 0 i
    let d := d.onTwin fun t => { t with lastTx := changed.foldl (fun l (i, w) => l.set 0 i w.tx) t.lastTx }
    let d := d.mirrorNow mcCounters (changed.map fun (i, w) => .counter (i / 2) (i % 2) w)
    d.mirrorNow mcKeys d.keyRecs

/-- A downlink counter that has advanced 2^12 since its last mirrored value is mirrored at once (R305). -/
def Device.mirrorCounter (d : Device) (h s : Nat) : Device :=
  let i := 2 * h + s
  if d.mirrors ∧ d.twin.lastTx.get 0 i + 4096 ≤ (d.rwin h s).tx then
    (d.onTwin fun t => { t with lastTx := t.lastTx.set 0 i (d.rwin h s).tx }).mirrorNow mcCounters [.counter h s (d.rwin h s)]
  else d

/-! ## Meanings -/

/-- KDF_JOB_END (R144). -/
def execKdfJobEnd (t : Time) (s : State) : Host.Outcome State Fault Refusal := s.act t kdfJobEnd

end Sys2Proof.Machine
end

