-- ==== Sys2Proof/Machine/Spool.lean ====
section
/-! DEFINITION. The spool: its entries, custody records, and forwarding to the collector (chapter 16). -/

namespace Sys2Proof.Machine

/-- First address and number of entries (R339). -/
def spoolBase : Nat := 0x280000000
def spoolSize : Nat := 89478485

/-- K_spool (R341). -/
def Device.spoolKey (d : Device) : Block :=
  kdfBlock d.otp.key 1 [0x53, 0x50, 0x4F, 0x4F, 0x4C] (beBytes 8 d.otp.serial.toNat) 128

/-- Bytes 0 to 67 of an entry (Table 16.1); `rssi` is in 0.25 dBm. -/
def spoolEntry (kind time counter band client link : Nat) (alarm eclipse : Bool) (rate : Nat) (rssi : Int) (body : Bytes) : Bytes :=
  beBytes 8 time ++ beBytes 4 counter ++ beBytes 2 (band * 16384 + client % 8192) ++ beBytes 2 (link % 8192)
    ++ beBytes 1 (kind * 32 + b2n alarm * 16 + b2n eclipse * 8) ++ beBytes 1 (rate % 64) ++ beBytes 1 body.length
    ++ beBytes 1 (ofInt 8 (rssi / 4)) ++ padTo 48 body

/-- The address of an entry. -/
def spoolAddr (i : Nat) : Nat := spoolBase + 72 * (i % spoolSize)

/-- Writes one entry at an index, its crc appended. -/
def Device.spoolWriteAt (d : Device) (i : Nat) (e : Bytes) : Device :=
  d.onMem fun m => { m with bytes := writeBytes m.bytes (spoolAddr i) (e ++ beBytes 4 (crc32c e)) }

/-- The forwarding position is mirrored (R305). -/
def Device.mirrorPos (d : Device) : Device := d.mirrorNow mcSpool [.spoolPos d.keep.wr d.keep.fwd d.keep.chain]

/-- Writes one entry at the next index and mirrors it (R305). -/
def Device.spoolStore (d : Device) (e : Bytes) : Device :=
  let i := d.keep.wr
  ((d.spoolWriteAt i e).onKeep fun k => { k with wr := k.wr + 1 }).mirrorNow mcSpool [.spool i e]

/-- EV243 when the spool reaches 90 % (R340). -/
def Device.spoolWatch (d : Device) : Device :=
  let high := decide (80530637 ≤ d.keep.wr - d.keep.fwd)
  let was := d.keep.warn90
  let d := d.onKeep fun k => { k with warn90 := high }
  if high && !was then d.raise 243 0 else d

/-- Room for one entry by overwriting entry fwd, whose new position is mirrored (R305, R340) (log 97). -/
def Device.spoolRoom (d : Device) : Device :=
  if d.keep.wr - d.keep.fwd < spoolSize then d
  else
    let d := d.onKeep fun k => { k with fwd := k.fwd + 1, sendNext := max k.sendNext (k.fwd + 1), unacked := k.unacked.filter fun x => decide (k.fwd + 1 < x.1 + x.2) }
    (d.mirrorPos.inc Reg.KEEP_SPOOL_LOST_CNT).raise 244 0

/-- Entries that are written together, or discarded together under full_policy = 1 (R340) (log 97). -/
def Device.spoolPut (d : Device) (es : List Bytes) : Device :=
  if d.cb Reg.KEEP_SPOOL_CTRL 14 && decide (spoolSize < d.keep.wr - d.keep.fwd + es.length) then
    es.foldl (fun d _ => (d.inc Reg.KEEP_SPOOL_LOST_CNT).raise 244 0) d
  else es.foldl (fun d e => (d.spoolRoom.spoolStore e).spoolWatch) d

/-- The body of a REPORT in pieces of 48 bytes, at least one (log 97). -/
def spoolPieces : Nat → Bytes → List Bytes
  | 0, b => [b]
  | n + 1, b => if b.length ≤ 48 then [b] else b.take 48 :: spoolPieces n (b.drop 48)

/-- The entries of a REPORT: REPORT, then CONT (Table 16.2). -/
def reportEntries (m : RepMeta) (body : Bytes) : List Bytes :=
  let one (kind : Nat) (p : Bytes) : Bytes := spoolEntry kind m.time m.counter (bandNum m.band) m.client m.link m.alarm m.eclipse m.rate m.rssi p
  match spoolPieces body.length body with
  | [] => []
  | p :: r => one 0 p :: r.map (one 1)

/-- The CUSTODY entry of a report (Table 16.3) and the new chain value. -/
def Device.custodyEntry (d : Device) (m : RepMeta) (body : Bytes) : Bytes × DWord :=
  let head := (spoolEntry 4 m.time m.counter (bandNum m.band) m.client m.link m.alarm m.eclipse m.rate m.rssi (zeros 32)).take 20
  let seal_ := slice (body.drop 2) 0 24
  let chain := tag8 d.spoolKey (beBytes 8 d.keep.chain.toNat ++ head ++ seal_)
  (head ++ padTo 48 (seal_ ++ chain), BitVec.ofNat 64 (beNat chain))

/-- A report in the spool, with its custody record (R339, R344). -/
def Device.spoolReport (d : Device) (m : RepMeta) (body : Bytes) : Device :=
  let d := d.spoolPut (reportEntries m body)
  let app := body.drop 2
  if !app.isEmpty ∧ fieldAt app 0 1 = d.cf Reg.KEEP_CUST_CTRL 7 0 then
    let c := d.custodyEntry m body
    ((d.spoolPut [c.1]).onKeep fun k => { k with chain := c.2 }).mirrorPos.raise 250 0
  else d

/-- An ASSIGN or RELEASE entry of a client (Table 16.2). -/
def Device.spoolRoster (d : Device) (kind : Nat) (b : Band) (client link : Nat) (body : Bytes) : Device :=
  if d.domDown 1 then d
  else d.spoolPut [spoolEntry kind d.lampNs 0 (bandNum b) client link false false 0 0 body]

/-! ## Forwarding (R341, R342) -/

/-- The collector's address. -/
def Device.collector (d : Device) : Nat :=
  (List.range 4).foldl (fun a i => a * 4294967296 + (d.cfg (Reg.KEEP_SPOOL_COLL i)).toNat) 0
def Device.collPort (d : Device) : Nat := d.cf Reg.KEEP_SPOOL_CTRL 31 16
def Device.fwdWindow (d : Device) : Nat := max 1 (d.cf Reg.KEEP_SPOOL_CTRL 7 0)
def Device.fwdTimeout (d : Device) : Nat := max 1 (d.cf Reg.KEEP_SPOOL_CTRL 13 8) * 250 * msec

/-- Only a lit or unpaired DM3 in Run forwards, and only with fwd_en = 1 (R343). -/
def Device.forwards (d : Device) : Bool :=
  d.cb Reg.KEEP_SPOOL_CTRL 15 && !d.domDown 1 && d.litOrOff

/-- A datagram of `n` entries from `first` (Table 16.4). -/
def Device.spoolData (d : Device) (first n : Nat) : Bytes :=
  let hdr := beBytes 2 0x4E53 ++ [0x01, 0x01] ++ beBytes 8 d.otp.serial.toNat ++ beBytes 2 d.gateway ++ beBytes 2 n
    ++ beBytes 8 first ++ beBytes 4 d.keep.dgCounter.toNat ++ zeros 4
  let b := hdr ++ (List.range n).flatMap fun i => readBytes d.mem.bytes (spoolAddr (first + i)) 72
  b ++ tag8 d.spoolKey b

/-- Sends while entries and window allow; `n` bounds the datagrams. -/
def Device.spoolSend (d : Device) : Nat → Device
  | 0 => d
  | n + 1 =>
    let k := d.keep
    if d.forwards && decide (k.sendNext < k.wr ∧ k.unacked.length < d.fwdWindow) then
      let c := min 16 (k.wr - k.sendNext)
      let d := d.emit (.udp d.collector d.collPort d.collPort portKpr (d.spoolData k.sendNext c))
      let d := d.onKeep fun k =>
        { k with sendNext := k.sendNext + c, sentHigh := max k.sentHigh (k.sendNext + c), unacked := k.unacked ++ [(k.sendNext, c)], dgCounter := k.dgCounter + 1, fwdMoved := if k.unacked.isEmpty && k.timeouts == 0 then d.clk.now else k.fwdMoved }
      d.spoolSend n
    else d

/-- SPOOL_WRITE: the packet that SPL has handed over; one that is no REPORT makes no entry. -/
def spoolWrite (d : Device) : Device :=
  if d.domDown 1 then d
  else match d.keep.splIn with
    | [] => d
    | x :: r =>
      let d := d.onKeep fun k => { k with splIn := r }
      let d := match x.rep with
        | some m => d.spoolReport m x.data
        | none => d
      d.spoolSend d.fwdWindow

/-- A SPOOL_ACK that moves fwd. -/
def Device.spoolAckOk (d : Device) (m : Bytes) : Bool :=
  m.length == 40 && fieldAt m 0 2 == 0x4E53 && fieldAt m 2 1 == 1 && fieldAt m 3 1 == 2
    && fieldAt m 4 8 == d.otp.serial.toNat && fieldAt m 14 2 == 0
    && decide (d.keep.fwd < fieldAt m 16 8 ∧ fieldAt m 16 8 ≤ d.keep.sentHigh)
    && tag8 d.spoolKey (m.take 32) == m.drop 32

/-- SPOOL_ACK_RX. -/
def spoolAckRx (m : Bytes) (d : Device) : Device :=
  if d.domDown 1 || !d.spoolAckOk m then d
  else
    let i := fieldAt m 16 8
    let d := d.onKeep fun k =>
      { k with fwd := i, sendNext := max k.sendNext i, unacked := k.unacked.filter fun x => decide (i < x.1 + x.2), fwdMoved := d.clk.now, timeouts := 0, stalled := false }
    d.spoolWatch.mirrorPos.spoolSend d.fwdWindow

/-- SPOOL_FWD_TIMEOUT: sent again from fwd; after eight timeouts without movement EV245, once. -/
def spoolFwdTimeout (d : Device) : Device :=
  let k := d.keep
  if !d.forwards || k.unacked.isEmpty || decide (d.clk.now < k.fwdMoved + (k.timeouts + 1) * d.fwdTimeout) then d
  else
    let d := d.onKeep fun k => { k with sendNext := k.fwd, unacked := [], timeouts := k.timeouts + 1 }
    let d := if 8 ≤ d.keep.timeouts ∧ !d.keep.stalled then (d.onKeep fun k => { k with stalled := true }).raise 245 0 else d
    d.spoolSend d.fwdWindow

/-! ## Meanings -/

/-- SPOOL_WRITE (R339). -/
def execSpoolWrite (t : Time) (s : State) : Host.Outcome State Fault Refusal := s.act t spoolWrite

/-- SPOOL_ACK_RX (R342). -/
def execSpoolAckRx (t : Time) (data : Bytes) (s : State) : Host.Outcome State Fault Refusal := s.act t (spoolAckRx data)

/-- SPOOL_FWD_TIMEOUT (R342). -/
def execSpoolFwdTimeout (t : Time) (s : State) : Host.Outcome State Fault Refusal := s.act t spoolFwdTimeout

end Sys2Proof.Machine
end

