-- ==== Sys2Proof/Machine/Clients.lean ====
section
/-! DEFINITION. Clients: guards and windows of their grants, frames received, misses, adrift, leases, link
health, release, and Keeper's plan changes (chapters 4, 5, 16). -/

namespace Sys2Proof.Machine

/-! ## Plan changes that Keeper makes (R93, R338) -/

/-- The first boundary at least 2 ms ahead. -/
def Device.boundary2ms (d : Device) : Nat := ceilDiv (d.lampHn + 2 * msec) sfLen

/-- A pending commit whose boundary is too near for another to replace it there. -/
def Device.commitDue (d : Device) : Bool :=
  match d.lant.commit with
  | some c => decide (c.at_ < d.boundary2ms)
  | none => false

/-- Schedules a plan for a boundary (log 89). -/
def Device.commitAt (d : Device) (plan : List PlanRec) (n : Nat) : Device :=
  (d.onLant fun l => { l with shadow := plan, commit := some ⟨n, plan⟩ }).mirrorNow mcPlan [.commit ⟨n, plan⟩]

/-- Keeper changes the plan at the next boundary at least 2 ms ahead. Where a commit is about to take effect it
waits for that boundary (R338). -/
def Device.keeperPlan (d : Device) (f : List PlanRec → List PlanRec) : Device :=
  if d.commitDue then d
  else d.commitAt (f (match d.lant.commit with
    | some c => c.plan
    | none => d.lant.plan)) d.boundary2ms

/-- Keeper is in service in Run. -/
def Device.keeperUp (d : Device) : Bool := !d.domDown 1 && d.pwr.st == 0

/-! ## Release (R127, R113, R102, R195) -/

/-- Records of a client are in a plan. -/
def planHas (l : List PlanRec) (c : Nat) : Bool := l.any fun p => p.client == c

/-- A GRANT record's grant as it stands in a plan: it replaces the client's of the same band and type (R94). -/
def grantPut (l : List PlanRec) (g : PlanRec) : List PlanRec :=
  let same (p : PlanRec) : Bool := p.client == g.client && gBand p.bits == gBand g.bits && gType p.bits == gType g.bits
  if l.any same then l.map fun p => if same p then g else p else l ++ [g]

/-- The grants that GRANT records name, waiting or sent, and that the plan does not hold yet (R94, R101). -/
def Device.grantsComing (d : Device) : List PlanRec :=
  let of_ (c : Nat) (r : CtrlRec) : Option PlanRec := if r.ty = 1 then some ⟨c, 0, BitVec.ofNat 64 (fieldAt r.value 0 8)⟩ else none
  let radios := d.rad.l.placed ++ d.rad.m.placed ++ d.rad.h.placed
  d.lant.grantsDue.map GrantDue.new ++ d.lant.clients.flatMap (fun x => x.2.ctrl.filterMap (of_ x.1))
    ++ radios.flatMap fun f => f.recs.filterMap (of_ (f.client.getD 0))

/-- The grants whose superframe is the next one enter the plan that Keeper commits for it (R94). -/
def Device.grantsBoundary (d : Device) (sf : Nat) : Device :=
  let due := d.lant.grantsDue.filter fun x => decide (x.at_ ≤ sf + 1)
  if !d.keeperUp || d.planFrozen || due.isEmpty || d.commitDue then d
  else (d.onLant fun l => { l with grantsDue := l.grantsDue.filter fun x => decide (sf + 1 < x.at_) }).keeperPlan fun l =>
    (due.map GrantDue.new).foldl grantPut l

/-- A client's windows stop. -/
def Device.stopWindows (d : Device) (c : Nat) : Device :=
  let mine (w : Win) : Bool := d.lant.notes.any fun n => n.plan.client == c && w.w == .grant n.grant && w.sf == n.sf
  [Band.l, Band.m, Band.h].foldl (fun d b => d.onRad b fun r => { r with wins := r.wins.filter fun w => !mine w }) d

/-- A client is released: its windows stop, its queues are flushed, its records are dropped; Keeper takes its
grants out of the plan at the next commit (log 88). -/
def Device.release (d : Device) (c reason : Nat) : Device :=
  let k := d.client c
  if !k.assoc || k.released then d
  else
    let d := d.stopWindows c
    let d := d.onClient c fun k => { k with released := true, reason := reason, ctrl := [], held := [], bellLeft := 0, firstLeft := none }
    let d := (d.flushLinks k.links).onLant fun l => { l with grantsDue := l.grantsDue.filter fun g => g.new.client != c }
    let d := if reason = 0 then (d.inc Reg.LANT_LEASE_REL_CNT).raise 59 0 else d
    let d := if d.keeperUp then
        let b := match k.links with
          | h :: _ => (d.linkOf h).band
          | [] => .l
        (d.spoolRoster 3 b c (k.links.headD 0) (beBytes 8 k.serial.toNat ++ beBytes 1 reason)).keeperPlan fun l => l.filter fun p => p.client != c
      else d
    d.mirrorNow mcRoster [.client c (d.client c)]

/-- Keeper frees a released client's ID, links and key slots, once no grant of it is left in the plan (log 88). -/
def Device.freeClient (d : Device) (c : Nat) : Device :=
  let k := d.client c
  let d := k.links.foldl (fun d h => d.onLink h fun _ => Link.none_) (d.flushLinks k.links)
  let d := (d.onKey c 0 fun _ => KeyEntry.empty).onKey c 1 fun _ => KeyEntry.empty
  let d := d.onLant fun l => { l with pendBits := l.pendBits.filter fun i => i != c }
  (d.onClient c fun _ => Client.none_).mirrorNow mcRoster [.client c Client.none_]

/-- What Keeper does about released clients at a boundary: those without grants are freed, and a commit that
drops the others' grants is made where none is pending (log 88). -/
def Device.reapClients (d : Device) : Device :=
  if !d.keeperUp then d
  else
    let gone := (d.lant.clients.filter fun x => x.2.released).map Prod.fst
    let d := gone.foldl (fun d c => if planHas d.lant.plan c then d else d.freeClient c) d
    if gone.any (planHas d.lant.plan) ∧ d.lant.commit.isNone then d.keeperPlan fun l => l.filter fun p => !gone.contains p.client
    else d

/-- Keeper writes the RELEASE entry of a client released while it was off (R127). -/
def Device.spoolReleased (d : Device) : Device :=
  (d.lant.clients.filter fun x => x.2.released).foldl (fun d x =>
    let h := x.2.links.headD 0
    d.spoolRoster 3 (d.linkOf h).band x.1 h (beBytes 8 x.2.serial.toNat ++ beBytes 1 x.2.reason)) d

/-! ## Guards (R120, R121) -/

/-- tol of a client in ppm. -/
def Device.tolOf (d : Device) (k : Client) : Nat :=
  if capTol k.caps = 0 then max 1 (d.cf Reg.LANT_SLEEPY_CTRL 23 16) else capTol k.caps

/-- guard_max of a band in µs. -/
def Device.guardMax (d : Device) (b : Band) : Nat :=
  match b with
  | .l => d.cf Reg.LANT_GUARD_MAX 31 16
  | .m => 8 * d.cf Reg.LANT_GUARD_MAX 15 8
  | .h => d.cf Reg.LANT_GUARD_MAX 7 0

/-- Planned start of the reference beacon of a client's window in superframe `sf`. -/
def Device.refBeacon (d : Device) (b : Band) (k : Client) (sf : Nat) : Nat :=
  let a := if capStation k.caps then 0 else min 4 (k.syncAge.getD 0)
  match k.lr, d.lant.lastLr with
  | true, some m => if m ≤ sf then slotLamp b m (d.nb b) else slotLamp b (sf - a) 0
  | _, _ => slotLamp b (sf - a) 0

/-- The guard in µs. -/
def Device.guardOfGrant (d : Device) (b : Band) (k : Client) (sf first : Nat) : Nat :=
  let elapsed := (slotLamp b sf first - d.refBeacon b k sf) / usec
  min (d.guardMax b) (d.cf Reg.LANT_SLEEPY_CTRL 31 24 + ceilDiv ((2 * d.tolOf k + 1) * elapsed) 1000000)

/-- Opening and closing lamp times of a grant's window (R95, R124), and its guard in µs: of a widened window, what lies
between its opening and the grant's first slot (log 81). -/
def Device.grantWindow (d : Device) (p : PlanRec) (sf : Nat) : Nat × Nat × Nat :=
  let b := bandOfNum (gBand p.bits)
  let k := d.client p.client
  let first := gFirst p.bits
  let g := d.guardOfGrant b k sf first
  let start := slotLamp b sf first
  let ends := slotLamp b sf (first + gCount p.bits)
  if k.adrift then
    let op := if d.slotFree b sf (first - 1) then slotLamp b sf (first - 1) else start - g * usec
    let last := first + gCount p.bits + 1
    (op, if d.slotFree b sf last then slotLamp b sf (last + 1) else slotLamp b sf last, (start - op) / usec)
  else (start - g * usec, ends + g * usec, g)

/-- pg of R137 in µs, from the parent's last beacon; guard_max before any has been received (log 78). -/
def Device.parentGuard (d : Device) (b : Band) (n : Nat) : Nat :=
  match d.lant.relay.lastBeacon with
  | some t => min (d.guardMax b) (30 + ceilDiv (2 * (slotLamp b n 0 - t)) (1000000 * usec))
  | none => d.guardMax b

/-! ## Notes of active grants (R91, R92) -/

/-- The note of a grant in a superframe. -/
def Device.note (d : Device) (g sf : Nat) : Option GrantNote := d.lant.notes.find? fun n => n.grant == g && n.sf == sf

/-- Changes a note. -/
def Device.onNote (d : Device) (g sf : Nat) (f : GrantNote → GrantNote) : Device :=
  d.onLant fun l => { l with notes := l.notes.map fun n => if n.grant = g ∧ n.sf = sf then f n else n }

/-- A new note. -/
def Device.mkNote (d : Device) (g : Nat) (p : PlanRec) (sf : Nat) : GrantNote where
  grant := g
  sf := sf
  plan := p
  skipped := (d.skipped (bandOfNum (gBand p.bits)) sf).contains g
  void := d.grantVoid p.bits
  lost := false
  heard := none
  okAt := none
  endAt := none
  passAt := none
  counted := false
  closed := false
  decided := false
  shut := []

/-- The notes of every grant active in superframe `sf`, where they are not made yet. -/
def Device.addNotes (d : Device) (sf : Nat) : Device :=
  let all := d.activeOn .l sf ++ d.activeOn .m sf ++ d.activeOn .h sf
  let new := all.filter fun x => (d.note x.1 sf).isNone
  let l := new.map fun x => d.mkNote x.1 x.2 sf
  d.onLant fun k => { k with notes := k.notes ++ l }

/-! ## Frames counted as received, and misses (R102, R105, R123 to R129) -/

/-- A frame of the client that R123 counts as received, that arrived at `t` for grant `g` of superframe `sf`. It counts for
every STATION_UP grant of a station in whose window it arrived (R129). -/
def Device.clientHeard (d : Device) (c g sf : Nat) (t : Time) : Device :=
  let mine (n : GrantNote) : Bool :=
    n.plan.client == c && ((n.grant == g && n.sf == sf)
      || (gType n.plan.bits == gtUp && (let w := d.grantWindow n.plan n.sf
          decide (w.1 ≤ d.lampAt t ∧ d.lampAt t ≤ w.2.1))))
  let mark (n : GrantNote) : GrantNote := if mine n then { n with counted := true } else n
  (d.onLant fun l => { l with notes := l.notes.map mark }).onClient c fun k => { k with missRun := 0, adrift := false, firstLeft := none }

/-- A station link has received a frame (R105). -/
def Device.linkHeard (d : Device) (h : Nat) : Device :=
  let was := (d.linkOf h).unhealthy
  let d := d.onLink h fun l => { l with missed := 0, unhealthy := false }
  if was then d.raise 57 0 else d

/-- An active STATION_UP grant has closed without a frame on its link (R105). -/
def Device.linkMissed (d : Device) (h : Nat) : Device :=
  let l := d.linkOf h
  let d := d.onLink h fun l => { l with missed := l.missed + 1, unhealthy := l.unhealthy || decide (3 ≤ l.missed + 1) }
  if !l.unhealthy ∧ 3 ≤ l.missed + 1 then d.raise 57 0 else d

/-- bell_tries (Table 5.8). -/
def Device.bellTries (d : Device) : Nat := max 1 (d.cf Reg.LANT_BELL_CTRL 7 4)

/-- A miss of a client (R123, R124, R127). -/
def Device.clientMiss (d : Device) (c : Nat) : Device :=
  let k := d.client c
  let run := min 8191 (k.missRun + 1)
  let tag := !capStation k.caps
  let d := (d.inc Reg.LANT_MISS_CNT).onClient c fun k => { k with missRun := run }
  let d := if tag ∧ 3 ≤ run ∧ !k.adrift then
      ((d.onClient c fun k => { k with adrift := true, bellLeft := d.bellTries }).inc Reg.LANT_ADRIFT_CNT).raise 58 0
    else d
  if k.lease ≤ run then d.release c 0 else d

/-- One of the first four active grants has closed without a frame (R102). -/
def Device.firstMiss (d : Device) (c start : Nat) : Device :=
  match (d.client c).firstLeft with
  | none => d
  | some (n, after) =>
    if start < after ∨ d.lant.eclipseFlag then d
    else if n ≤ 1 then d.release c 3
    else d.onClient c fun k => { k with firstLeft := some (n - 1, after) }

/-- A check of a frame of the grant's client is in flight or waits: of the grant's own frame, or, for a station, of one that
may count for it (R129, R155). -/
def Device.checksOf (d : Device) (n : GrantNote) : Bool :=
  (d.ciph.jobs ++ d.ciph.waiting).any fun j => match j.kind with
    | .check f => mClient f.data == n.plan.client && (match f.win with
        | some (.grant g) => (g == n.grant && f.sf == n.sf) || gType n.plan.bits == gtUp
        | _ => false)
    | _ => false

/-- The outcome of a closed window whose checks have ended (R102, R105, R123, R129); a twin that does not serve records none
(R299). -/
def Device.noteDecide (d : Device) (n : GrantNote) : Device :=
  let p := n.plan
  let b := bandOfNum (gBand p.bits)
  let k := d.client p.client
  if !d.litOrOff || n.skipped || n.void || n.lost || !k.assoc || k.released then d
  else
    let d := if gType p.bits = gtUp ∧ n.passAt.isNone then d.linkMissed p.link else d
    if n.counted ∨ gType p.bits = gtDown then d
    else (d.clientMiss p.client).firstMiss p.client (slotLamp b n.sf (gFirst p.bits))

/-- A closed window's miss is decided once no check that could count for it runs (R155). -/
def Device.noteSettle (d : Device) (g sf : Nat) : Device :=
  match d.note g sf with
  | none => d
  | some n => if !n.closed || n.decided || d.checksOf n then d else (d.onNote g sf fun n => { n with decided := true }).noteDecide n

/-- A grant's window has closed. -/
def Device.noteClose (d : Device) (g sf : Nat) (lost : Bool) : Device :=
  match d.note g sf with
  | none => d
  | some n =>
    if n.closed then d else (d.onNote g sf fun n => { n with closed := true, lost := n.lost || lost }).noteSettle g sf

/-- A check of a grant's frame has ended; the windows of its client that have closed are decided. -/
def Device.noteChecked (d : Device) (g sf : Nat) (pass : Bool) : Device :=
  match d.note g sf with
  | none => d
  | some n =>
    let d := d.onNote g sf fun n => { n with endAt := some d.clk.now, passAt := if pass then some d.clk.now else n.passAt }
    (d.lant.notes.filter fun m => m.plan.client == n.plan.client).foldl (fun d m => d.noteSettle m.grant m.sf) d

end Sys2Proof.Machine
end

