-- ==== Sys2Proof/Machine/Gaps.lean ====
section
/-! DEFINITION. Gaps of a radio in the slot plan, and the synthesiser calibrations that use them (R32, R33, R36). -/

namespace Sys2Proof.Machine

/-! ## The radio's next command (R25, R33) -/

/-- The lead of a transmission and of a reception from a state (R25). -/
def Device.leadTx (d : Device) (b : Band) (st : RState) : Nat :=
  usec + stepsTime (upSteps b st) + toTxTime + d.paSeq b + d.rampTime b
def leadRx (b : Band) (st : RState) : Nat := if st = .rx then usec else usec + stepsTime (upSteps b st) + toRxTime

/-- What the slot plan has for a radio in superframe `n`: transmissions and receptions by the device instant at which each
begins; `true` for a reception. -/
def Device.planned (d : Device) (b : Band) (n : Nat) : List (Bool × Time) :=
  let at_ (j : Nat) : Time := d.devAt (slotLamp b n j)
  let bcn := if 0 < d.nb b ∧ d.gatesOpen b then
      (false, at_ 0) :: (if b = .l ∧ d.lrActive n then [(false, at_ (d.nb b))] else [])
    else []
  let grants := (d.activeOn b n).flatMap fun x =>
    let g := x.2.bits
    if (d.skipped b n).contains x.1 ∨ d.grantVoid g then []
    else if gType g = gtDown then [(false, at_ (gFirst g))]
    else (true, d.devAt (d.grantWindow x.2 n).1) :: (if gType g = gtUplink then [(false, at_ (gFirst g + gCount g))] else [])
  let opens := (List.range (omCount (d.openMapOf b))).flatMap fun i =>
    match d.openSlotAt b n i with
    | some s => [(true, at_ s), (false, at_ (s + 1))]
    | none => []
  let parent := if d.parentBand b then [(true, d.devAt (slotLamp b n 0 - d.parentGuard b n * usec))] else []
  let bells := if b = .l ∧ n = d.lant.sf then d.lant.bells.map fun p => (false, at_ p.slot) else []
  bcn ++ grants ++ opens ++ parent ++ bells

/-- The end of the gap that the radio is in: the start of the lead of its next command, by the slot plan, what has been
commanded, and Keeper's frames (R33). -/
def Device.gapEnd (d : Device) (b : Band) : Time :=
  let r := d.radio b
  let st := r.now d.clk.now
  let n := d.lampSf
  let seen := d.planned b n ++ d.planned b (n + 1) ++ (r.wins.filter fun w => !w.isOpen).map (fun w => (true, w.opensAt))
    ++ (r.tx.toList ++ r.txNext).map (fun x => (false, x.firstSym)) ++ r.keeper.map fun f => (false, f.planned)
  let ends := (seen.filter fun x => decide (d.clk.now < x.2)).map fun x => x.2 - (if x.1 then leadRx b st else d.leadTx b st)
  ends.foldl min (d.devAt (slotLamp b (n + 2) 0))

/-! ## Calibrations in a gap -/

/-- The next pending group starts when at least 300 µs of the gap remain, after the way to the calibration and the way back
to RX where one is due (R32, R33). -/
def Device.calTryGap (d : Device) (b : Band) (back : Bool) : Device :=
  let r := d.radio b
  match r.pend with
  | [] => d
  | p :: _ =>
    let way := stepsTime (calSteps b r.st) + (if r.st = .rx ∨ back then toRxTime else 0)
    if r.busy d.clk.now then d
    else if d.clk.now + way + calGap ≤ d.gapEnd b then d.calStart b p.group false 0
    else d

/-- CAL_GAP_START. -/
def calGapStart (b : Band) (d : Device) : Device := d.calTryGap b false

/-- SYNTH_CAL_END (R36): the group takes the calibration, or on failure the radio enters IDLE and stays there; a group is no
longer pending either way. The forced calibrations that wait come next, then the next pending group where the gap allows,
then what is scheduled, from where the radio now stands (log 79). -/
def synthCalEnd (b : Band) (locked : Bool) (d : Device) : Device :=
  match (d.radio b).cal with
  | none => d
  | some c =>
    if d.clk.now < c.start then d
    else
      let temp := d.pwr.dieTemp
      let back := locked && c.backToRx
      let d := d.onRad b fun r =>
        { r with st := if locked && c.hadChannel then .locked else .idle, cal := none, trans := []
                 pend := r.pend.filter fun p => p.group != c.group
                 groups := if locked then r.groups.set GroupCal.reset c.group ⟨true, temp⟩ else r.groups }
      let d := if locked then d else d.raiseRad b 2 0
      let d := if (d.radio b).forced.isEmpty then d.calTryGap b back else forcedCalStart b d
      if (d.radio b).cal.isSome then
        d.onRad b fun r => { r with cal := r.cal.map fun k => { k with backToRx := back } }
      else
        let d := d.retime b
        if (d.radio b).tx.isNone ∧ (d.radio b).trans = [] ∧ back then d.replan b (some 2) else d

/-! ## Meanings -/

/-- CAL_GAP_START (R33). -/
def execCalGapStart (t : Time) (b : Band) (s : State) : Host.Outcome State Fault Refusal := s.act t (calGapStart b)

/-- SYNTH_CAL_END (R36). -/
def execSynthCalEnd (t : Time) (b : Band) (locked : Bool) (s : State) : Host.Outcome State Fault Refusal :=
  s.act t (synthCalEnd b locked)

end Sys2Proof.Machine
end

