-- ==== Sys2Proof/Machine/Lantern.lean ====
section
/-! DEFINITION. What the Lantern sends: beacons, replies, association responses, station data, bell bursts and
Keeper's immediate transmissions, from the command to the end of the frame (chapters 2, 4, 5, 6, 8). -/

namespace Sys2Proof.Machine

/-! ## Frames before their bytes are known -/

/-- Target and antenna of a frame that concerns no link (R395). -/
def Device.bandTarget (d : Device) (b : Band) : Int × Nat := ((d.radio b).limit.toInt, d.defAnt b)

/-- A frame of PHY length `len` on the band's channel, that concerns no link. -/
def Device.baseFrame (d : Device) (b : Band) (ret : BitVec 3) (k : TxKind) (rate cls len sf : Nat) (planned : Time) : TxFrame where
  kind := k
  rate := rate
  cls := cls
  chan := d.chanOf b
  data := []
  beacon := false
  planned := planned
  ret := ret
  target := (d.bandTarget b).1
  ant := (d.bandTarget b).2
  span := chanSpan b (d.chanOf b) (classKHz b cls)
  sf := sf
  client := none
  link := none
  queue := none
  pkts := []
  recs := []
  seq := 0
  charged := false
  dup := none
  resp := none
  sealJob := none
  sesia := true
  durQ := frameQ b cls rate len

/-- The same for a link frame: the link's target and antenna. -/
def Device.linkFrame (d : Device) (b : Band) (ret : BitVec 3) (k : TxKind) (rate cls len sf : Nat) (planned : Time) (c h : Nat) : TxFrame :=
  let l := d.linkOf h
  { d.baseFrame b ret k rate cls len sf planned with target := l.txTarget, ant := l.ant, client := some c, link := some h }

/-- The superframe whose slot `j` comes next or has just begun. -/
def Device.sfFor (d : Device) (b : Band) (j : Nat) : Nat :=
  if d.lampHn ≤ slotLamp b d.lampSf j + 30 * usec then d.lampSf else d.lampSf + 1

/-- A plan record active in this superframe or the next, with that superframe. -/
def Device.grantAt (d : Device) (g : Nat) (ok : Nat → PlanRec → Bool) : Option (Nat × PlanRec) :=
  let one (n : Nat) : Option (Nat × PlanRec) :=
    match (d.planFor n)[g]? with
    | some p => if gActive p.bits n && ok n p then some (n, p) else none
    | none => none
  (one d.lampSf).orElse fun _ => one (d.lampSf + 1)

/-- A band may send frames other than beacons: on a parent-link band no beacon comes first (R136, R292). -/
def Device.bandOpen (d : Device) (b : Band) : Bool := if d.parentBand b then d.gatesOpen b else d.txOk b

/-- The PA_EN spans and the duration of a frame. -/
def Device.airQ (d : Device) (b : Band) (f : TxFrame) : Nat := d.airtime b f.durQ

/-! ## Beacons (R86, R87, R90, R108) -/

/-- No beacon is sent in superframe `n`: the band is switched or reloaded there, or leaves service (R111, R280,
R320). -/
def Device.noBeacon (d : Device) (b : Band) (n : Nat) : Bool :=
  (bitOf d.lant.silent (bandNum b) && n == d.lant.sf)
    || (match d.lant.switch_ with
        | some s => s.phase == 1 && s.c == n && bitOf s.bands (bandNum b)
        | none => false)
    || (d.ll.reloadAt == some n && bitOf d.ll.reloadMask (bandDom b))
    || (b != .l && (d.lant.eclipseFlag || (d.pwr.st == 1 && d.pwr.entryAt == some n)))

/-- MAC header and frame counter of a beacon (R84, Table 6.4). -/
def beaconHead (n : Nat) (lr : Bool) : Bytes :=
  macFrame (macHeader tyBeacon 1 false noClient false n) (2 * (n % 2147483648) + b2n lr) []

/-- The transmit command of a beacon. -/
def Device.txBeacon (d : Device) (b : Band) (ret : BitVec 3) (lr : Bool) : Device :=
  let j := if lr then d.nb b else 0
  let n := d.sfFor b j
  let cls := if lr then d.lrRate else d.beaconCls b
  let rate := if lr then d.lrRate else d.beaconRate b
  if !d.gatesOpen b || d.parentBand b || !(d.prof b).present || d.noBeacon b n || (lr && !(b == .l && d.lrActive n && bitOf d.lant.lit 0)) then d
  else
    let f := { d.baseFrame b ret (if lr then .lrBeacon else .beacon) rate cls 64 n (d.devAt (slotLamp b n j)) with
      data := padTo 64 (beaconHead n lr), beacon := true }
    if !d.dutyAdmits b f.span true (d.airQ b f) then (d.inc Reg.LANT_BCN_SKIP_CNT).raise 52 0
    else
      let d := if lr then d else d.onLant fun l => { l with lit := setBit l.lit (bandNum b) }
      -- replies are served and D7 is READY again: eclipse = 0 from this beacon on (R328)
      let d := if d.lant.eclipseFlag ∧ d.pwr.st ≠ 1 ∧ d.domSt 7 = 3 then d.onLant fun l => { l with eclipseFlag := false } else d
      d.radTx b f

/-- The bytes of a beacon as it leaves: lantern_time inserted, and the tag completed by the sealer (R87, R148). -/
def Device.beaconBytes (d : Device) (b : Band) (x : TxRun) : Bytes :=
  let stamp := d.lampAt (x.firstSym + qToHn (syncQ b x.frame.cls)) + d.cf (Reg.RAD_FE_LAT b) 31 16
  let u := x.frame.data.take 8 ++ beBytes 8 (rdiv stamp 2).toNat ++ (padTo 48 (d.lant.bodies.get b)).drop 8
  match d.lant.sealer with
  | some (g, k) => u ++ tag8 k (cmacInput b g u)
  | none => u ++ zeros 8

/-! ## Sealed frames (R151) -/

/-- A frame that has no key to be sealed under is discarded with what it carries. -/
def Device.noKey (d : Device) (f : TxFrame) : Device :=
  let d := match f.dup with
    | some k => d.dupDrop k f.seq
    | none => d
  f.pkts.foldl (fun d x => d.freeCells x.2) (d.inc Reg.CIPH_SEAL_NOKEY_CNT)

/-- Schedules a frame and starts its seal. -/
def Device.scheduleSealed (d : Device) (b : Band) (f : TxFrame) (entry : Option Nat) (kMac kEnc : Block) : Device :=
  let id := d.ciph.nextJob
  let f := { f with sealJob := some id }
  let d := d.radTx b f
  match (d.radio b).runOfJob id with
  | none => d
  | some x =>
    let d := match f.queue with
      | some k =>
        let mark (y : TxRun) : TxRun := if y.frame.sealJob = some id then { y with frame := { y.frame with charged := true } } else y
        (d.chargeLink k f.planned x.firstSym (f.data.length + 8)).onRad b fun r => { r with tx := r.tx.map mark, txNext := r.txNext.map mark }
      | none => d
    d.submit (.sealing b f) entry kMac kEnc

/-- The transmit command of a link frame with its MAC header fields and body, sealed under a slot of its client (R108, R151, R152)
(log 86). -/
def Device.sendLink (d : Device) (b : Band) (f : TxFrame) (slot : Option Nat) (ty c h seq : Nat) (more : Bool) (body : Bytes) : Device :=
  if !d.dutyAdmits b f.span false (d.airQ b f) then (d.dutyHeld b f.span (d.airQ b f)).frameBack b f false .dutyHeld
  else match slot with
    | none => d.noKey f
    | some s =>
      if 0xFFFF0000 ≤ (d.rwin h s).tx then (d.frameBack b f false .keyLimit).raise 171 0
      else
        let k := d.key c s
        let t := d.takeCounter c h s
        let d := t.2.mirrorCounter h s
        let f := { f with data := macFrame (macHeader ty 1 k.encReq c more seq) t.1 body }
        d.scheduleSealed b f (some (2 * c + s)) k.kMac k.kEnc

/-! ## Control records and downlink in a REPLY (R94, R96 to R98, R203) -/

/-- Clamp of R96 and the longest REPLY in 1/2520 ns. -/
def replyClamp (b : Band) : Nat := if b = .l then 24 * usec else 8 * usec
def Device.replyFits (d : Device) (b : Band) (len : Nat) : Bool :=
  decide (frameQ b (d.beaconCls b) (d.beaconRate b) len ≤ (slotLen b - tailLen b - replyClamp b) * qPerHn)

/-- The superframe of a client's next active grant at least one superframe after `n` (R157). -/
def Device.nextActive (d : Device) (c n : Nat) : Nat :=
  let gs := d.lant.plan.filter fun p => p.client == c && !gIgnored p.bits
  let due := gs.map fun p =>
    let per := 2 ^ gK p.bits
    n + 1 + (gPhase p.bits + per - (n + 1) % per) % per
  match due with
  | [] => n + 1
  | x :: r => r.foldl min x

/-- A control record as the REPLY of superframe `n` carries it (Table 4.13). -/
def Device.ctrlBytes (d : Device) (c n : Nat) (r : CtrlRec) : Bytes :=
  let v := if r.ty = 3 then r.value.take 2 ++ beBytes 4 (d.nextActive c n)
    else if r.ty = 1 then r.value.take 8 ++ beBytes 4 (n + 2 ^ gK (BitVec.ofNat 64 (fieldAt r.value 0 8)))
    else r.value
  [BitVec.ofNat 8 r.ty, BitVec.ofNat 8 v.length] ++ v

/-- The records that go into a REPLY, oldest first, up to the first that does not fit. -/
def Device.takeCtrl (d : Device) (b : Band) (c n : Nat) : Nat → List CtrlRec → List Bytes
  | _, [] => []
  | used, r :: rest =>
    let v := d.ctrlBytes c n r
    if d.replyFits b (20 + used + v.length) ∧ used + v.length ≤ 255 then v :: d.takeCtrl b c n (used + v.length) rest else []

/-- Takes the head of a queue. -/
def Device.popQueue (d : Device) (k : Nat) : Device := (d.onQueue k fun q => { q with pkts := q.pkts.drop 1 }).tailRetry k

/-- A frame was enqueued at least one crossing, 2 to 4 cycles of D2, before now (R7, R203). -/
def Device.hasCrossed (d : Device) (x : QPkt) : Bool :=
  decide ((2 + d.freeVal % 3) * 10000 ≤ (d.clk.now - x.at_) * 192)

/-- The data a REPLY carries: the head of q = 1, else of q = 0, credit-eligible, within the limit and not a late arrival
(log 85). -/
def Device.replyData (d : Device) (b : Band) (h used : Nat) : Option (Nat × QPkt) :=
  [1, 0].findSome? fun q =>
    match (d.queue (lqKey h q)).pkts.head? with
    | some x => if d.creditOk (lqKey h q) ∧ d.hasCrossed x ∧ d.replyFits b (20 + used + x.data.length) then some (lqKey h q, x) else none
    | none => none

/-- Frames queued for a client, on any of its links. -/
def Device.clientQueued (d : Device) (c : Nat) : Nat :=
  ((d.client c).links.map fun h => (d.queue (lqKey h 0)).pkts.length + (d.queue (lqKey h 1)).pkts.length).sum

/-- The sequence number that the next REPLY to a client takes, and the client after it: one that went back unsent keeps
its own (R84, R151). -/
def Client.takeDownSeq (k : Client) : Nat × Client :=
  match k.downBack with
  | s :: rest => (s, { k with downBack := rest })
  | [] => (k.downSeq, { k with downSeq := (k.downSeq + 1) % 4096 })

/-- The tag-aligned start (R96): to the nearest tick, a half to the later, and clamped about the nominal start. -/
def alignedStart (b : Band) (obs : Option Nat) (span nominal : Nat) : Nat :=
  match obs with
  | none => nominal
  | some o =>
    let t := (o + span + usec / 2) / usec * usec
    max (nominal - replyClamp b) (min (nominal + replyClamp b) t)

/-- A REPLY to client `c` on link `h` (R97, R98). The records and the data it carries are taken at its command. -/
def Device.txReply (d : Device) (b : Band) (ret : BitVec 3) (k : TxKind) (c h n start : Nat) (upOk : Bool) : Device :=
  let cl := d.client c
  let queued := d.clientQueued c
  if !d.bandOpen b || !d.replyFits b 20 || !d.cipherOpen || !cl.assoc || cl.released then d
  else if cl.adrift && !upOk then d
  else if !upOk && queued == 0 && cl.ctrl.isEmpty then d
  else
    let recs := d.takeCtrl b c n 0 cl.ctrl
    let rb := recs.flatten
    let data := if recs.length = cl.ctrl.length then d.replyData b h rb.length else none
    let d := match data with
      | some (q, _) => d.popQueue q
      | none => d
    let sq := cl.takeDownSeq
    let slot := d.sealSlot c
    -- a repeated EPOCH record names a new E, until which the RETIRING slot stays in use (R158)
    let again := (cl.ctrl.take recs.length).any (fun r => r.ty == 3) && (d.slotIn c .retiring).isSome
    let e := if again then some (d.nextActive c n) else cl.epochAt
    let d := d.freeNext.onClient c fun _ => { sq.2 with ctrl := cl.ctrl.drop recs.length, epochAt := e }
    let left := queued - b2n data.isSome
    let body := [0, BitVec.ofNat 8 (min 255 left), BitVec.ofNat 8 rb.length, 0] ++ rb ++ (match data with
      | some (_, x) => x.data
      | none => [])
    let f := d.linkFrame b ret k (d.beaconRate b) (d.beaconCls b) (16 + body.length) n (d.devAt start) c h
    let f := { f with recs := cl.ctrl.take recs.length, pkts := data.toList, queue := data.map Prod.fst, seq := sq.1 }
    d.sendLink b f slot tyReply c h sq.1 (decide (0 < left ∨ recs.length < cl.ctrl.length)) body

/-! ## Association responses (R101, Table 4.15) -/

/-- The body of a response with its first `n` grants. -/
def AssocResp.body (a : AssocResp) (n : Nat) : Bytes :=
  [BitVec.ofNat 8 a.status, BitVec.ofNat 8 n] ++ beBytes 2 a.client ++ beBytes 2 a.epoch ++ beBytes 2 a.lease
    ++ beBytes 8 a.nonce.toNat ++ (a.grants.take n).flatMap fun g => beBytes 8 g.toNat

/-- n_grants; none where not even a response without grants fits. -/
def Device.assocGrants (d : Device) (b : Band) (n : Nat) : Option Nat :=
  let top := if b = .l then min 3 n else n
  ((List.range (top + 1)).reverse).find? fun i => d.replyFits b (32 + 8 * i)

/-- The planned start of a response, and whether it is over: it is sent there or not at all (log 78). -/
def AssocResp.at_ (a : AssocResp) : Nat := slotLamp a.band a.sf (a.slot + 1)
def Device.respOver (d : Device) (a : AssocResp) : Bool := decide (a.at_ + 30 * usec < d.lampHn)

/-- The transmit command of the oldest response of a band whose position has not passed. -/
def Device.txAssoc (d : Device) (b : Band) (ret : BitVec 3) : Device :=
  let d := d.onLant fun l => { l with assocResps := l.assocResps.filter fun a => !d.respOver a }
  match d.lant.assocResps.find? fun a => a.band == b with
  | none => d
  | some a =>
    match d.assocGrants b a.grants.length with
    | none => d
    | some n =>
      if !d.bandOpen b then d
      else
        let d := d.onLant fun l => { l with assocResps := l.assocResps.erase a }
        let body := a.body n
        let f := d.baseFrame b ret .assocResp (d.beaconRate b) (d.beaconCls b) (16 + body.length) a.sf (d.devAt a.at_)
        let f := { f with resp := some a, data := macFrame (macHeader tyAssocResp 1 false a.client false a.seq) a.counter.toNat body }
        if !d.dutyAdmits b f.span false (d.airQ b f) then (d.dutyHeld b f.span (d.airQ b f)).frameBack b f false .dutyHeld
        else
          let key := if a.status = 2 then d.beaconKey
            else (d.rootOf a.serial).map d.joinKeyOf
          match key with
          | none => d
          | some k => d.scheduleSealed b f none k 0

/-! ## Station downlink (R103, R104, R203, R204) -/

/-- The healthy links of a station in link_order; all of them where none is healthy. -/
def Device.stationLinks (d : Device) (c : Nat) : List Nat :=
  let byOrder := [0, 1, 2, 3].flatMap fun o => (d.client c).links.filter fun h => decide ((d.linkOf h).order = o)
  let ok := byOrder.filter fun h => !(d.linkOf h).unhealthy
  if ok.isEmpty then byOrder else ok

/-- The first superframe from `n` on in which a grant is active. -/
def gNext (g : DWord) (n : Nat) : Nat := n + (gPhase g + 2 ^ gK g - n % 2 ^ gK g) % 2 ^ gK g

/-- The lamp instant at which the next STATION_DOWN grant of link `l` that can carry `len` bytes starts, from now on, a
grant in progress included while enough of it is left (R104). -/
def Device.nextCarry (d : Device) (l len : Nat) : Option Nat :=
  let one (i : Nat) (p : PlanRec) (n : Nat) : Option Nat :=
    let b := bandOfNum (gBand p.bits)
    let from_ := slotLamp b n (gFirst p.bits)
    let ends := slotLamp b n (gFirst p.bits + gCount p.bits)
    let dur := qToHn (frameQ b (gClass p.bits) (gRate p.bits) len)
    if gActive p.bits n && !d.grantVoid p.bits && !(d.skipped b n).contains i && decide (max from_ d.lampHn + dur + tailLen b ≤ ends ∧ len ≤ maxLength b)
    then some from_ else none
  let l' := ((List.range d.lant.plan.length).zip d.lant.plan).filterMap fun (i, p) =>
    if p.link = l ∧ gType p.bits = gtDown ∧ !gIgnored p.bits then
      (one i p (gNext p.bits d.lampSf)).orElse fun _ => one i p (gNext p.bits (gNext p.bits d.lampSf + 1))
    else none
  l'.min?

/-- Under STRIPE: the link, of those in order, whose next grant able to carry a frame starts first; ties go to the lower
order. -/
def Device.stripeLink (d : Device) (c len : Nat) : Option Nat :=
  ((d.stationLinks c).foldl (fun (m : Option (Nat × Nat)) l =>
    match m, d.nextCarry l len with
    | none, some t => some (t, l)
    | some (t, k), some u => if u < t then some (u, l) else some (t, k)
    | m, none => m) none).map Prod.snd

/-- The transmit policy gives a queued frame to link `h` (R104). -/
def Device.policyGives (d : Device) (c h : Nat) (x : QPkt) : Bool :=
  if !capStation (d.client c).caps then true
  else
    let ls := d.stationLinks c
    match x.policy with
    | 0 => (ls.take 2).contains h && !x.sent.contains h
    | 1 => d.stripeLink c (16 + x.data.length) == some h
    | _ => ls.head? == some h

/-- What one STATION_DOWN grant of link `h` draws from the queues in order: the first head that credit, policy and the time
left allow, and the queues whose head does not fit, which give the grant nothing more (R203). -/
def Device.drawFrom (d : Device) (c h : Nat) (fits : Nat → Bool) : List (Nat × Nat) → List Nat → Option (Nat × Nat × QPkt) × List Nat
  | [], shut => (none, shut)
  | (q, key) :: rest, shut =>
    match (d.queue key).pkts.head? with
    | none => d.drawFrom c h fits rest shut
    | some x =>
      if shut.contains key ∨ !d.creditOk (lqKey h q) ∨ !d.hasCrossed x ∨ !d.policyGives c h x then d.drawFrom c h fits rest shut
      else if fits (16 + x.data.length) then (some (q, key, x), shut)
      else d.drawFrom c h fits rest (shut ++ [key])

/-- The queues of a station in the order of R203: q = 1 before q = 0, the grant's own link first. -/
def Device.drawOrder (d : Device) (c h : Nat) : List (Nat × Nat) :=
  let from_ := h :: ((d.client c).links.filter fun x => x != h)
  [1, 0].flatMap fun q => from_.map fun l => (q, lqKey l q)

/-- The frame that a station's packet goes in is DUPLICATE's: the packet stays in its queue. -/
def Device.isDup (d : Device) (c : Nat) (x : QPkt) : Bool := x.policy == 0 && capStation (d.client c).caps

/-- The transmit command of one DATA frame in a STATION_DOWN grant. -/
def Device.txDown (d : Device) (b : Band) (ret : BitVec 3) (g : Nat) : Device :=
  let ok (n : Nat) (p : PlanRec) : Bool :=
    gType p.bits == gtDown && gBand p.bits == bandNum b && decide (d.lampHn < slotLamp b n (gFirst p.bits + gCount p.bits))
  match d.grantAt g ok with
  | none => d
  | some (n, p) =>
    let c := p.client
    let h := p.link
    if !d.bandOpen b || !d.cipherOpen || d.grantVoid p.bits || (d.skipped b n).contains g || !(d.client c).assoc || (d.client c).released then d
    else
      let d := d.addNotes n
      let r := d.radio b
      let prev := match r.txNext.getLast?.orElse (fun _ => r.tx) with
        | some x => x.firstSym + qToHn x.frame.durQ
        | none => r.lastEnd
      let lead := usec + toTxTime + d.paSeq b + d.rampTime b
      let first := d.devAt (slotLamp b n (gFirst p.bits))
      let start := if d.clk.now ≤ first then max first (prev + tailLen b) else max (prev + tailLen b) (d.clk.now + lead)
      let last := d.devAt (slotLamp b n (gFirst p.bits + gCount p.bits)) - tailLen b
      let rate := gRate p.bits
      let cls := gClass p.bits
      let fits (len : Nat) : Bool := decide (start + qToHn (frameQ b cls rate len) ≤ last ∧ len ≤ maxLength b)
      let x := d.drawFrom c h fits (d.drawOrder c h) (((d.note g n).map GrantNote.shut).getD [])
      let d := d.freeNext.onNote g n fun t => { t with shut := x.2 }
      match x.1 with
      | none => d
      | some (q, key, x) =>
        let seq := x.seq.getD (d.client c).txSeq
        let d := if x.seq.isSome then d else d.onClient c fun k => { k with txSeq := (k.txSeq + 1) % 4096 }
        let dup := d.isDup c x
        let x : QPkt := { x with seq := some seq, sent := if dup then x.sent ++ [h] else x.sent }
        let d := if dup then d.onQueue key fun k => { k with pkts := x :: k.pkts.drop 1 } else d.popQueue key
        let f := d.linkFrame b ret (.down g) rate cls (16 + x.data.length) n start c h
        let f := { f with pkts := if dup then [] else [(key, x)], dup := if dup then some key else none, queue := some (lqKey h q), seq := seq }
        d.sendLink b f (d.sealSlot c) tyData c h seq (decide (b2n dup < d.clientQueued c)) x.data

/-- A DATA frame has been sent under DUPLICATE: its packet leaves the queue when it has been sent on its second link, or no
second healthy link is left for it (R204). -/
def Device.dupSent (d : Device) (c k seq : Nat) : Device :=
  match (d.queue k).pkts.find? fun x => x.seq == some seq with
  | none => d
  | some x =>
    let more : Bool := (d.stationLinks c).any fun l => !x.sent.contains l
    if 2 ≤ x.done + 1 ∨ (!more ∧ x.sent.length ≤ x.done + 1) then d.dupDrop k seq
    else d.onQueue k fun q => { q with pkts := q.pkts.map fun y => if y.seq = some seq then { y with done := y.done + 1 } else y }

/-! ## Bell bursts (R130, R132) -/

/-- The bell code of a serial; none where it may not be sent (R131). -/
def bellCode (serial : DWord) : Option Word :=
  let ok (w : Word) : Bool := w != 0 && w != 0xFFFFFFFF
  let lo : Word := BitVec.ofNat 32 serial.toNat
  let hi : Word := BitVec.ofNat 32 (serial.toNat / 4294967296)
  if ok lo then some lo else if ok hi then some hi else none

/-- The burst's channel may be used: wholly inside a sub-band and in no restricted range (R132). -/
def Device.bellAllowed (d : Device) : Bool :=
  (d.prof .l).subs.any (fun s => Span.inside d.bellSpan s.span) && (d.prof .l).restr.all (fun r => !Span.overlaps d.bellSpan (restrSpan .l r))

/-- The transmit command of the first burst placed in the superframe. -/
def Device.txBell (d : Device) (ret : BitVec 3) : Device :=
  match d.lant.bells with
  | [] => d
  | p :: rest =>
    let d := d.onLant fun l => { l with bells := rest }
    match bellCode (d.client p.client).serial with
    | none => d.raise 63 0
    | some code =>
      let n := d.sfFor .l p.slot
      let f := d.baseFrame .l ret .bell 0 0 0 n (d.devAt (slotLamp .l n p.slot))
      let f := { f with chan := d.bellChan, span := d.bellSpan, client := some p.client, sesia := false, durQ := d.bellUs * qPerUs, data := beBytes 4 code.toNat }
      if !d.bandOpen .l then d.bellSkip
      else if !d.dutyAdmits .l f.span false (d.airQ .l f) then (d.dutyHeld .l f.span (d.airQ .l f)).bellSkip
      else d.radTx .l f

/-! ## Keeper's immediate transmissions and a relay's frames (R29, R79, R136) -/

/-- The frame of KEEPER_IMMEDIATE_TX: Keeper's bytes; a REPLY or DATA frame at the power and antenna of the client's link on
this band, any other as a frame that concerns no link (R395). -/
def Device.keeperFrame (d : Device) (b : Band) (ret : BitVec 3) (rate cls : Nat) (data : Bytes) : TxFrame :=
  let f := { d.baseFrame b ret .keeper rate cls data.length 0 0 with data := data }
  match if mType data = tyReply ∨ mType data = tyData then d.linkOn (mClient data) b else none with
  | some h => { f with target := (d.linkOf h).txTarget, ant := (d.linkOf h).ant, client := some (mClient data), link := some h }
  | none => f

/-- KEEPER_IMMEDIATE_TX: a complete frame that Keeper supplies, sent as given. -/
def keeperImmediateTx (b : Band) (rate cls : Nat) (ret : BitVec 3) (data : Bytes) (d : Device) : Device :=
  if !d.keeperUp || d.domDown (bandDom b) || !rateInClass b cls rate || decide (maxLength b < data.length) then d
  else d.keeperPlanTx b (d.keeperFrame b ret rate cls data)

/-- The frequencies of an 802.15.4 channel, 2 MHz about its centre, and its centre as a channel index of Radio M. -/
def chan154 (ch : Nat) : Nat := 10 + 10 * (ch - 11)
def span154 (ch : Nat) : Nat × Nat := chanSpan .m (chan154 ch) 2000

/-- An 802.15.4 channel is permitted: wholly inside a sub-band, in no restricted range (R79, R110). -/
def Device.permits154 (d : Device) (ch : Nat) : Bool :=
  (d.prof .m).subs.any (fun s => Span.inside (span154 ch) s.span) && (d.prof .m).restr.all (fun r => !Span.overlaps (span154 ch) (restrSpan .m r))

/-- An 802.15.4 frame of 32 µs a byte, its preamble and delimiter included (R79). -/
def Device.frame154 (d : Device) (ret : BitVec 3) (ch : Nat) (phr : Byte) (psdu : Bytes) : TxFrame :=
  { d.baseFrame .m ret .keeper 0 0 0 0 0 with
    chan := chan154 ch, span := span154 ch, sesia := false, durQ := (6 + psdu.length) * 32 * qPerUs, data := phr :: psdu }

/-- FRAME_154_TX_REQUEST (R79). A refused frame is discarded; the specification gives a refusal no other effect (log 78). -/
def frame154TxRequest (ch : Nat) (ret : BitVec 3) (phr : Byte) (psdu : Bytes) (d : Device) : Device :=
  if !d.keeperUp || d.domDown 4 || !d.permits154 ch || decide (psdu.length < 1 ∨ 127 < psdu.length ∨ ch < 11 ∨ 26 < ch) then d
  else (d.useGroup .m (chan154 ch)).keeperPlanTx .m (d.frame154 ret ch phr psdu)

/-- A frame sent as it is: tested, scheduled. -/
def Device.sendPlain (d : Device) (b : Band) (f : TxFrame) : Device :=
  if !d.dutyAdmits b f.span false (d.airQ b f) then (d.dutyHeld b f.span (d.airQ b f)).frameBack b f false .dutyHeld
  else d.radTx b f

/-- A Sesia frame that has waited goes on the channel its band has now (R111, R140). -/
def Device.onChan (d : Device) (b : Band) (f : TxFrame) : TxFrame :=
  if f.sesia then { f with chan := d.chanOf b, span := chanSpan b (d.chanOf b) (classKHz b f.cls) } else f

/-- The first Keeper frame of a radio goes. -/
def Device.txKeeper (d : Device) (b : Band) : Device :=
  match (d.radio b).keeper with
  | [] => d
  | f :: rest =>
    if !d.bandOpen b then d
    else (d.onRad b fun r => { r with keeper := rest }).sendPlain b (d.onChan b f)

/-- A frame of a relay is its request to join (R99). -/
def isJoin (f : Bytes) : Bool := mType f == tyAssocReq

/-- A request to join may go in open slot `slot` of superframe `n`: the wait of R99 is over, no answer is awaited, and the
slot is one of the parent's. -/
def Device.joinMay (d : Device) (n slot : Nat) : Bool :=
  let rel := d.lant.relay
  rel.joining && decide (rel.waitTill ≤ n) && rel.asked.isNone
    && (List.range (omCount rel.openMap)).any fun i => omStart rel.openMap + i * omStride rel.openMap == slot

/-- A relay's frame in its parent's slot; no bytes: the oldest one that was held. While it scans it sends only its request to
join, in an open slot of its parent (R99, R139, R140). -/
def Device.txParent (d : Device) (b : Band) (ret : BitVec 3) (slot rate cls : Nat) (frame : Bytes) : Device :=
  let rel := d.lant.relay
  let n := d.sfFor b slot
  let planned := d.devAt (slotLamp b n slot)
  if !d.parentBand b || !d.bandOpen b then d
  else if frame.isEmpty then
    match (d.radio b).parentHeld with
    | [] => d
    | f :: rest => (d.onRad b fun r => { r with parentHeld := rest }).sendPlain b { d.onChan b f with planned := planned, sf := n }
  else if !rateInClass b cls rate || (rel.st == 3 && !(isJoin frame && d.joinMay n slot)) then d
  else
    let d := if isJoin frame ∧ rel.st = 3 then
        d.onRelay fun r => { r with asked := some (slot, n, BitVec.ofNat 64 (fieldAt (mBody frame) 12 8)) }
      else d
    d.sendPlain b { d.baseFrame b ret (.parentUp slot rate cls frame) rate cls frame.length n planned with data := frame }

/-! ## TX_COMMAND (R39) -/

/-- A reply in the slot of a grant. -/
def Device.txGrantReply (d : Device) (b : Band) (ret : BitVec 3) (g : Nat) : Device :=
  let nominal (n : Nat) (p : PlanRec) : Nat := slotLamp b n (gFirst p.bits + gCount p.bits)
  let ok (n : Nat) (p : PlanRec) : Bool :=
    gType p.bits == gtUplink && gBand p.bits == bandNum b && decide (d.lampHn ≤ nominal n p + 60 * usec)
  match d.grantAt g ok with
  | none => d
  | some (n, p) =>
    let note := (d.note g n).getD (d.mkNote g p n)
    if note.skipped || note.void then d
    else
      let start := alignedStart b note.heard (gCount p.bits * slotLen b) (nominal n p)
      d.txReply b ret (.reply g) p.client p.link n start note.okAt.isSome

/-- The reply position of a POLL is over (R89) (log 78). -/
def Device.pollOver (d : Device) (p : PollReq) : Bool := decide (slotLamp p.band p.sf (p.slot + 1) + 60 * usec < d.lampHn)

/-- The reply to the oldest POLL of a band whose reply position has not passed, there (R89). -/
def Device.txPollReply (d : Device) (b : Band) (ret : BitVec 3) : Device :=
  let d := d.onLant fun l => { l with polls := l.polls.filter fun p => !d.pollOver p }
  match d.lant.polls.find? fun p => p.band == b with
  | none => d
  | some p =>
    match d.linkOn p.client b with
    | none => d
    | some h =>
      let nominal := slotLamp b p.sf (p.slot + 1)
      d.txReply b ret .pollReply p.client h p.sf (alignedStart b (some p.start) (slotLen b) nominal) true

/-- TX_COMMAND: nothing is sent while D2 or the radio's domain is not in service. `ret` is the return_state of the frame's
descriptor (R30); a Keeper frame has its own. -/
def txCommand (b : Band) (k : TxKind) (ret : BitVec 3) (d : Device) : Device :=
  if d.domDown 2 || d.domDown (bandDom b) then d
  else match k with
    | .beacon => d.txBeacon b ret false
    | .lrBeacon => d.txBeacon b ret true
    | .reply g => d.txGrantReply b ret g
    | .pollReply => d.txPollReply b ret
    | .assocResp => d.txAssoc b ret
    | .down g => d.txDown b ret g
    | .bell => if b = .l then d.txBell ret else d
    | .keeper => d.txKeeper b
    | .parentUp slot rate cls frame => d.txParent b ret slot rate cls frame

/-! ## SEAL_JOB_END (R97, R155) -/

/-- The ack byte as it stands at the start of the payload, `t` (log 85). -/
def ackByte (okAt endAt passAt : Option Time) (t : Time) : Nat :=
  let by_ (x : Option Time) : Bool := match x with
    | some i => decide (i ≤ t)
    | none => false
  if by_ passAt then 0x80 else if okAt.isSome && !by_ endAt then 0x40 else 0

/-- The ack byte of a REPLY (log 85). -/
def Device.replyAck (d : Device) (f : TxFrame) (t : Time) : Nat :=
  match f.kind with
  | .reply g => match d.note g f.sf with
    | some n => ackByte n.okAt n.endAt n.passAt t
    | none => 0
  | .pollReply => match d.lant.polls.find? fun p => some p.client == f.client && p.sf == f.sf with
    | some p => ackByte (some p.start) p.endAt p.passAt t
    | none => 0
  | _ => 0

/-- A seal ends: the ack is fixed, the body encrypted, the tag placed, and the operations counted. -/
def Device.sealEnd (d : Device) (j : Job) (b : Band) (x : TxRun) : Device :=
  let f := x.frame
  let isReply : Bool := match f.kind with
    | .reply _ => true
    | .pollReply => true
    | _ => false
  let ack := d.replyAck f (x.firstSym + qToHn (payloadQ b f.cls))
  let plain := if isReply then splice f.data 8 [BitVec.ofNat 8 ack] else f.data
  let data := d.sealBytes b j.kMac j.kEnc plain
  let d := if isReply ∧ ack = 0x40 then (d.inc Reg.CIPH_DEFER_CNT).raise 172 0 else d
  let d := match j.entry with
    | some e => d.keyCount e (frameCmacOps data + frameCtrOps data)
    | none => d
  let put (y : TxRun) : TxRun := if y.frame.sealJob = some j.id then { y with frame := { y.frame with data := data, sealJob := none } } else y
  (d.onRad b fun r => { r with tx := r.tx.map put, txNext := r.txNext.map put }).jobDone j.id

/-- SEAL_JOB_END: a REPLY's seal does not end before its ack is fixed. -/
def sealJobEnd (id : Nat) (d : Device) : Device :=
  match d.ciph.jobs.find? fun j => j.id == id with
  | none => d
  | some j =>
    match j.kind with
    | .sealing b _ =>
      match (d.radio b).runOfJob id with
      | none => d.jobDone id
      | some x =>
        let isReply : Bool := match x.frame.kind with
          | .reply _ => true
          | .pollReply => true
          | _ => false
        if isReply ∧ d.clk.now < x.firstSym + qToHn (payloadQ b x.frame.cls) then d else d.sealEnd j b x
    | _ => d

/-! ## TX_FRAME_END (R30) -/

/-- A GRANT record has been sent in superframe `n`: from the superframe it names the grant replaces the client's of its band
and type (R94). -/
def Device.grantSent (d : Device) (c n : Nat) (g : DWord) : Device :=
  let h := (d.linkOn c (bandOfNum (gBand g))).getD 0
  d.onLant fun l => { l with grantsDue := l.grantsDue ++ [⟨n + 2 ^ gK g, ⟨c, h, g⟩⟩] }

/-- A control record that a REPLY has carried takes effect (Table 4.13). -/
def Device.ctrlSent (d : Device) (c n : Nat) (r : CtrlRec) : Device :=
  match r.ty with
  | 1 => d.grantSent c n (BitVec.ofNat 64 (fieldAt r.value 0 8))
  | 2 => d.release c 1
  | 3 => d.onClient c fun k => { k with epochAt := some (d.nextActive c n), assocRetire := false, retireAt := if k.retireAt.isSome then some (d.nextActive c n + 2 * 2 ^ k.k) else none }
  | 4 => d.onClient c fun k => { k with lease := max 4 (min 4096 (fieldAt r.value 0 2)) }
  | _ => d

/-- What a sent frame does to the Lantern. -/
def Device.frameSent (d : Device) (x : TxRun) : Device :=
  let f := x.frame
  let c := f.client.getD 0
  let reply (d : Device) : Device :=
    let d := f.pkts.foldl (fun d y => d.freeCells y.2) d
    f.recs.foldl (fun d r => d.ctrlSent c f.sf r) d
  match f.kind with
  | .lrBeacon => d.onLant fun l => { l with lastLr := some f.sf }
  | .reply _ => reply d
  | .pollReply => (reply d).onLant fun l => { l with polls := l.polls.filter fun p => !(some p.client == f.client && p.sf == f.sf) }
  | .assocResp => match f.resp with
    | some a => if a.status = 0 then
        d.onClient a.client fun k => { k with firstLeft := some (4, d.lampAt (x.firstSym + qToHn f.durQ)) }
      else d
    | none => d
  | .down _ => match f.dup with
    | some k => d.dupSent c k f.seq
    | none => f.pkts.foldl (fun d y => d.freeCells y.2) d
  | .bell => (d.onClient c fun k => { k with bellLeft := k.bellLeft - 1 }).inc Reg.LANT_BELL_TX_CNT
  | _ => d

/-- The seal of a frame waits still, though its first symbol has come: it has found no job slot (R155). -/
def Device.sealWaits (d : Device) (x : TxRun) : Option Nat :=
  x.frame.sealJob.bind fun id => if d.ciph.waiting.any fun j => j.id == id then some id else none

/-- TX_FRAME_END: the frame's tag is complete before it leaves; one whose seal has not started is late lock. Airtime is charged at
the end of the frame's span, and the feedback measurement and a kept capture are used. -/
def txFrameEnd (b : Band) (p : FbPower) (cap : List FbSample) (d : Device) : Device :=
  match (d.radio b).tx with
  | none => d
  | some x0 =>
    if d.clk.now < x0.firstSym + qToHn x0.frame.durQ then d
    else match d.sealWaits x0 with
    | some id => (d.dropSeal x0.frame).sealLate b id x0
    | none =>
      let d := match x0.frame.sealJob.bind fun id => d.ciph.jobs.find? fun j => j.id == id with
        | some j => d.sealEnd j b x0
        | none => d
      match (d.radio b).tx with
      | none => d
      | some x =>
        let beacon := x.frame.beacon
        let x := if beacon then { x with frame := { x.frame with data := d.beaconBytes b x } } else x
        let ends := x.firstSym + qToHn x.frame.durQ + d.paAfter b
        let d := d.dutyCharge b x.frame.span beacon (d.airQ b x.frame) ends
        let d := (d.radTxEnd b x).frameSent x
        (d.powerLoop b x p).capKeep b p cap

/-! ## Meanings -/

/-- TX_COMMAND (R39). -/
def execTxCommand (t : Time) (b : Band) (k : TxKind) (ret : BitVec 3) (s : State) : Host.Outcome State Fault Refusal := s.act t (txCommand b k ret)

/-- KEEPER_IMMEDIATE_TX (R29). -/
def execKeeperImmediateTx (t : Time) (b : Band) (rate cls : Nat) (ret : BitVec 3) (data : Bytes) (s : State) : Host.Outcome State Fault Refusal :=
  s.act t (keeperImmediateTx b rate cls ret data)

/-- FRAME_154_TX_REQUEST (R79). -/
def execFrame154TxRequest (t : Time) (ch : Nat) (ret : BitVec 3) (phr : Byte) (psdu : Bytes) (s : State) : Host.Outcome State Fault Refusal :=
  s.act t (frame154TxRequest ch ret phr psdu)

/-- SEAL_JOB_END (R155). -/
def execSealJobEnd (t : Time) (job : Nat) (s : State) : Host.Outcome State Fault Refusal := s.act t (sealJobEnd job)

/-- TX_FRAME_END (R30). -/
def execTxFrameEnd (t : Time) (b : Band) (p : FbPower) (cap : List FbSample) (s : State) : Host.Outcome State Fault Refusal :=
  s.act t (txFrameEnd b p cap)

end Sys2Proof.Machine
end

