-- ==== Sys2Proof/Machine/Wake.lean ====
section
/-! DEFINITION. What low power asks of other units: the wake latch, the completion of a wake, and the die
temperature's warning (R325, R327, R392). -/

namespace Sys2Proof.Machine

/-- Sets a latch bit; the latch records only outside RUN (R325). -/
def Device.latchSet (d : Device) (i : Nat) : Device :=
  if d.pwr.st = 0 then d else (d.onPwr fun p => { p with latch := setBit p.latch i }).hwSet Reg.MOOR_WAKE_LATCH i

/-- Code of the stage DONE (Table 13.8). -/
def stageDone : Nat := 0x0A

/-- A wake is complete at the stage DONE, and after Eclipse once the ring has been checked too (R327). -/
def Device.wakeCheck (d : Device) : Device :=
  match d.start.waking with
  | none => d
  | some st =>
    if d.start.stage = stageDone ∧ (st ≠ 2 ∨ d.ciph.ringChecked = true) then
      ((d.onStart fun k => { k with waking := none }).onPwr fun p => { p with st := 0 }).raise 5 0
    else d

/-- t_warn in 1/16 °C, the format of a sample (Table 18.18). -/
def Device.tWarn (d : Device) : Int := 16 * max 90 (min 120 (d.cf Reg.KEEP_THERM_CTRL 7 0))

/-- A sample of the die temperature: EV040 when it rises to t_warn, armed again 5 °C below (R392). -/
def Device.thermSample (d : Device) (temp : BitVec 16) : Device :=
  let high := decide (d.tWarn ≤ temp.toInt)
  let low := decide (temp.toInt < d.tWarn - 80)
  let armed := d.pwr.warnArmed
  let d := d.onPwr fun p => { p with dieTemp := temp, thermTemp := temp, warn := high, warnArmed := if high then false else p.warnArmed || low }
  if high && armed then d.raise 40 0 else d

end Sys2Proof.Machine
end

