-- ==== Sys2Proof/Machine/Mac.lean ====
section
/-! DEFINITION. What becomes of a frame received with result OK: beacons, the retained ring, credit to grants,
checks, delivery in order, and the check of the ring at wake (R85, R106, R122, R137 to R140, R153, R163, R322). -/

namespace Sys2Proof.Machine

/-! ## Beacons of a parent or of the twin (R138 to R140, R276, R312) -/

/-- Fields of a received beacon (Table 4.5): lantern_time, characteristic, gateway_id, open_map, depth. -/
def bcnTime (f : Bytes) : Nat := fieldAt f 8 8
def bcnChar (f : Bytes) : Nat := fieldAt f 18 8
def bcnGateway (f : Bytes) : Nat := fieldAt f 28 2
def bcnOpen (f : Bytes) : Word := w32 (fieldAt f 32 4)
def bcnDepth (f : Bytes) : Nat := fieldAt f 30 1

/-- parent_0 to parent_3 in use. -/
def Device.candidates (d : Device) : List Nat :=
  [d.cf Reg.LANT_PARENT_A 31 16, d.cf Reg.LANT_PARENT_A 15 0, d.cf Reg.LANT_PARENT_B 31 16, d.cf Reg.LANT_PARENT_B 15 0].filter
    fun g => g != 0xFFFF

/-- Puts a depth into the beacons (R136, R138). -/
def Device.setDepth (d : Device) (n : Nat) : Device :=
  let w := d.cfg Reg.LANT_NET
  (d.setCfg Reg.LANT_NET (w32 (fld w 31 16 * 65536 + min 255 n * 256 + fld w 7 0))).mirrorNow mcPlan [.depth (min 255 n)]

/-- A measurement of every parent-beacon domain: lantern_time + delay − receive timestamp, in quarter ns (R229). -/
def Device.parentMeasure (d : Device) (f : RxFrame) : Device :=
  [RefDom.a, RefDom.b].foldl (fun d x =>
    if d.refSrc x = 3 then d.measure x (4 * (bcnTime f.data : Int) + 2 * (d.refDelay x - (f.stamp : Int))) else d) d

/-- The parent's beacon in ATTACHED or ORPHAN: the relay's link on the band is healthy again (R105). -/
def Device.parentHeard (d : Device) (f : RxFrame) : Device :=
  let rel := d.lant.relay
  let was := rel.st
  let d := d.onRelay fun r =>
    { r with st := 1, miss := 0, parentDepth := bcnDepth f.data, lastBeacon := some f.stamp, heard := true
             heardM := r.heardM || f.band == .m, heardH := r.heardH || f.band == .h, openMap := bcnOpen f.data
             missM := if f.band = .m then 0 else r.missM, missH := if f.band = .h then 0 else r.missH
             badM := r.badM && f.band != .m, badH := r.badH && f.band != .h }
  let d := if (f.band = .m ∧ rel.badM) ∨ (f.band = .h ∧ rel.badH) then d.raise 57 0 else d
  let d := d.onLL fun l => { l with parentChar := BitVec.ofNat 64 (bcnChar f.data), parentNow := true }
  let d := (d.setDepth (bcnDepth f.data + 1)).parentMeasure f
  if was = 2 then d.raise 61 0 else d

/-- A beacon that a scanning relay hears: the first acceptable one makes it join; while it joins, the parent's beacons tell
the open slots (R99, R139, R140). -/
def Device.scanHeard (d : Device) (b : Band) (f : RxFrame) : Device :=
  let rel := d.lant.relay
  let g := bcnGateway f.data
  if rel.joining then (if g = rel.parent then d.onRelay fun r => { r with openMap := bcnOpen f.data, lastBeacon := some f.stamp } else d)
  else if 0xFE < bcnDepth f.data || !(rel.parent :: d.candidates).contains g || rel.barred == some g then d
  else d.onRelay fun r =>
    { r with joining := true, attempts := 0, waitTill := 0, asked := none, openMap := bcnOpen f.data, parent := g, parentDepth := bcnDepth f.data, lastBeacon := some f.stamp, chan := if b = .h then r.scanChan else r.chan, chanM := if b = .m then r.scanChan else r.chanM }

/-- A received beacon. -/
def Device.beaconRx (d : Device) (b : Band) (f : RxFrame) : Device :=
  let rel := d.lant.relay
  let g := bcnGateway f.data
  let d := if !d.litOrOff ∧ g = d.gateway then d.onTwin fun t => { t with airHeard := true } else d
  if !d.parentBand b then d
  else if rel.st = 3 then d.scanHeard b f
  else if (rel.st = 1 ∨ rel.st = 2) ∧ g = rel.parent then d.parentHeard f
  else d

/-- A request to join has had no answer: the wait of R99 begins after the superframe of the answer, with the counter of
attempts one higher. Its length is open (log 2). -/
def Device.joinLapse (d : Device) (sf : Nat) : Device :=
  match d.lant.relay.asked with
  | none => d
  | some (_, n, _) =>
    if sf ≤ n + 1 then d
    else
      let a := d.lant.relay.attempts + 1
      (d.onRelay fun r => { r with attempts := a, asked := none, waitTill := sf + d.freeVal % 2 ^ min a 6 }).freeNext

/-- A scanning relay has its answer. ACCEPTED ends the join; FULL lets it ask again after 2^6 superframes; after UNKNOWN or BAND
this gateway is not asked again, and the scan goes on (R140, Table 4.15) (log 78). -/
def Device.joinAnswer (d : Device) (sf status : Nat) : Device :=
  match status with
  | 0 => ((d.onRelay fun r => { r with st := 1, miss := 0, joining := false, asked := none, barred := none }).setDepth
      (d.lant.relay.parentDepth + 1)).raise 61 0
  | 1 => d.onRelay fun r => { r with asked := none, attempts := 0, waitTill := sf + 64 }
  | _ => d.onRelay fun r => { r with asked := none, joining := false, barred := some r.parent }

/-- An ASSOC_RESP at a joining relay: in slot s + 1 of the superframe after its request, with its nonce, and authentic under
the relay's own join key, or, for UNKNOWN, under the beacon key (R99, R140, R162). -/
def Device.joinRx (d : Device) (b : Band) (f : RxFrame) : Device :=
  match d.lant.relay.asked with
  | none => d
  | some (slot, n, nonce) =>
    let status := fieldAt (mBody f.data) 0 1
    let key := if status = 2 then d.beaconKey else some (joinKey d.otp.key d.otp.serial d.lant.relay.parent)
    let ok := match key with
      | some k => tag8 k (cmacInput b d.lant.relay.parent (f.data.take (f.data.length - 8))) == mTag f.data
      | none => false
    let at_ := d.lampAt f.start + slotLen b / 2
    let here := decide (slotLamp b (n + 1) (slot + 1) ≤ at_ ∧ at_ < slotLamp b (n + 1) (slot + 2))
    if ok && here && fieldAt (mBody f.data) 8 8 == nonce.toNat then d.joinAnswer f.sf status else d

/-! ## The retained ring (R322, R323) -/

/-- Bytes of the ring, and the occupancy that wakes. -/
def ringSize : Nat := 1032192
def ringWake : Nat := 774144

/-- The bytes of an entry (Table 15.3). -/
def ringBytes (f : RxFrame) (link : Nat) : Bytes :=
  beBytes 4 f.sf ++ beBytes 4 (ofInt 32 (((f.stamp : Int) - (f.sf * sfLen : Nat)) / 2)) ++ beBytes 2 link
    ++ beBytes 1 (128 * b2n f.alarm) ++ beBytes 1 f.rate ++ beBytes 2 (ofInt 16 f.rssi) ++ beBytes 2 f.data.length
    ++ padTo (8 * ceilDiv f.data.length 8) f.data

/-- The ring takes frames from the entry boundary until D7 is READY again. -/
def Device.ringTakes (d : Device) : Bool := d.lant.eclipseFlag && (d.pwr.st == 1 || d.domSt 7 != 3)

/-- Writes one credited frame (log 59). -/
def Device.ringWrite (d : Device) (f : RxFrame) (link : Nat) : Device :=
  let bytes := ringBytes f link
  let skip := if ringSize < d.lant.ringPos + bytes.length then ringSize - d.lant.ringPos else 0
  if ringSize < d.lant.ringUsed + skip + bytes.length then (d.inc Reg.LANT_RING_DROP_CNT).raise 10 0
  else
    let d := d.onLant fun l =>
      { l with ring := l.ring ++ [⟨bytes, skip + bytes.length⟩], ringUsed := l.ringUsed + skip + bytes.length, ringPos := ((if skip = 0 then l.ringPos else 0) + bytes.length) % ringSize }
    let d := d.inc Reg.LANT_RING_WRITE_CNT
    let d := if f.alarm then d.latchSet 6 else d
    if ringWake ≤ d.lant.ringUsed then d.latchSet 5 else d

/-! ## Credit (R122) -/

/-- The active grant to which a frame of client `c`, detected at `det`, is credited. A released client's windows are no longer
opened, and nothing is credited to it (R122, R127). -/
def Device.creditNote (d : Device) (b : Band) (c : Nat) (det : Time) : Option GrantNote :=
  if (d.client c).released then none
  else d.lant.notes.find? fun n =>
    let w := d.grantWindow n.plan n.sf
    n.plan.client == c && gBand n.plan.bits == bandNum b && gType n.plan.bits != gtDown && !n.skipped && !n.void && !n.lost
      && decide (w.1 ≤ d.lampAt det ∧ d.lampAt det ≤ w.2.1)

/-- Observed start of a frame at the antenna port: the sync timestamp less 64 symbols (R96). -/
def RxFrame.observed (f : RxFrame) : Nat := f.stamp - syncQ f.band f.cls / qPerHn

/-- The open slot of superframe `sf` in which a frame started, by its number among the open map's (log 81). -/
def Device.openSlotOf (d : Device) (b : Band) (sf slot : Nat) : Option Nat :=
  (List.range (omCount (d.openMapOf b))).find? fun i => d.openSlotAt b sf i == some slot

/-! ## Checks (R153, R155) -/

/-- The engine takes checks: READY, and after Eclipse only once the ring has been checked (R163) (log 87). -/
def Device.checksOpen (d : Device) : Bool := d.domSt 7 == 3 && (d.start.waking != some 2 || d.ciph.ringChecked)

/-- A frame goes to its check, or waits in the radio buffers. -/
def Device.toCheck (d : Device) (f : RxFrame) : Device :=
  if d.checksOpen then d.submit (.check f) none 0 0
  else d.onRad f.band fun r => { r with buffered := r.buffered ++ [f] }

/-- The frames that waited go to their checks, oldest first (log 87). -/
def insertRx (f : RxFrame) : List RxFrame → List RxFrame
  | [] => [f]
  | g :: r => if g.start ≤ f.start then g :: insertRx f r else f :: g :: r
def Device.drainBuffered (d : Device) : Device :=
  if !d.checksOpen then d
  else
    let all := (d.rad.l.buffered ++ d.rad.m.buffered ++ d.rad.h.buffered).foldl (fun l f => insertRx f l) []
    let d := [Band.l, Band.m, Band.h].foldl (fun d b => d.onRad b fun r => { r with buffered := [] }) d
    all.foldl (fun d f => d.submit (.check f) none 0 0) d

/-! ## A frame with result OK reaches the Lantern (R85) -/

/-- A REPORT or DATA frame. -/
def Device.grantRx (d : Device) (f : RxFrame) : Device :=
  match d.creditNote f.band (mClient f.data) f.det with
  | none => d.inc Reg.LANT_FOREIGN_CNT
  | some n =>
    let g := n.grant
    let d := d.onNote g n.sf fun n =>
      { n with heard := some (n.heard.getD f.observed), okAt := some (n.okAt.getD d.clk.now) }
    let f := { f with sf := n.sf, win := some (.grant g) }
    if d.ringTakes then
      if f.band = .l then (d.clientHeard n.plan.client g n.sf f.ended).ringWrite { f with eclipse := true } n.plan.link else d
    else d.toCheck f

/-- A POLL or an ASSOC_REQ: it belongs to the open slot whose start is nearest to its own (log 81). One outside an open slot is
checked too, and not answered (R88, R153). -/
def Device.openRx (d : Device) (f : RxFrame) : Device :=
  let at_ := d.lampAt f.start
  let sf := (at_ + slotLen f.band / 2) / sfLen
  let slot := (at_ + slotLen f.band / 2 - sf * sfLen) / slotLen f.band
  let f := { f with sf := sf, win := (d.openSlotOf f.band sf slot).map RxWin.openSlot }
  let d := if f.win.isSome && mType f.data == tyPoll then
      d.onLant fun l => { l with polls := l.polls ++ [⟨f.band, slot, sf, mClient f.data, f.observed, none, none⟩] }
    else d
  if d.ringTakes then d else d.toCheck f

/-- R85 and what precedes it: a relay takes the beacons of its parent-link bands and the answer to its request (R99, R137), and
a twin that does not serve takes beacons alone (R299). -/
def Device.macRx (d : Device) (f : RxFrame) : Device :=
  let ty := mType f.data
  if mDir f.data && ty == tyBeacon && (d.parentBand f.band || !d.litOrOff) then d.beaconRx f.band f
  else if !d.litOrOff then d
  else if mDir f.data && ty == tyAssocResp && d.lant.relay.joining && d.parentBand f.band then d.joinRx f.band f
  else if decide (7 ≤ ty) || mDir f.data || (ty == tyAssocReq && (mBody f.data).length != 20) then d.inc Reg.LANT_MAC_DROP_CNT
  else if ty = tyReport ∨ ty = tyData then d.grantRx f
  else if ty = tyPoll ∨ ty = tyAssocReq then d.openRx f
  else d.toCheck { f with win := none }

/-! ## Delivery (R106, R118, R166) -/

/-- A radio body enters the packet path. -/
def Device.radioEntry (d : Device) (b : Band) (c h ty : Nat) (rep : Option RepMeta) (body : Bytes) : Device :=
  d.ingressPush { Pkt.fresh (bandNum b) body with link := some h, client := some c, ftype := ty, rep := rep }

/-- A held station frame is delivered. -/
def Device.heldDeliver (d : Device) (c : Nat) (x : HeldFrame) : Device :=
  d.radioEntry (d.linkOf x.link).band c x.link tyData none x.data

/-- Delivers frames from the next expected on; `n` bounds them. -/
def Device.reorderDrain (d : Device) (c : Nat) : Nat → Device
  | 0 => d
  | n + 1 =>
    let k := d.client c
    match k.held.find? fun x => x.seq == k.rxNext with
    | none => d
    | some x =>
      let d := d.heldDeliver c x
      (d.onClient c fun k => { k with held := k.held.erase x, rxNext := (k.rxNext + 1) % 4096 }).reorderDrain c n

/-- Procedure reorder_skip. -/
def Device.reorderSkip (d : Device) (c : Nat) : Device :=
  let k := d.client c
  match (k.held.map fun x => (x.seq + 4096 - k.rxNext) % 4096).min? with
  | none => d
  | some i =>
    let d := (d.onClient c fun k => { k with rxNext := (k.rxNext + i) % 4096 }).inc Reg.LANT_REORDER_SKIP_CNT
    (d.raise 56 0).reorderDrain c k.held.length

/-- Procedure reorder_rx; a 256th frame held ends the wait. -/
def Device.reorderRx (d : Device) (c h seq : Nat) (data : Bytes) : Device :=
  let k := d.client c
  if 2048 ≤ (seq + 4096 - k.rxNext) % 4096 ∨ k.held.any (fun x => x.seq == seq) then d.inc Reg.LANT_REORDER_DUP_CNT
  else
    let d := d.onClient c fun k => { k with held := k.held ++ [⟨seq, data, h, d.clk.now⟩] }
    let d := d.reorderDrain c (k.held.length + 1)
    if 256 ≤ (d.client c).held.length then d.reorderSkip c else d

/-- REORDER_SKIP: the oldest held frame of a station has waited 8 ms. -/
def reorderSkipCmd (c : Fin 8192) (d : Device) : Device :=
  match (d.client c.val).held with
  | [] => d
  | x :: _ => if x.since + 8 * msec ≤ d.clk.now then d.reorderSkip c.val else d

/-! ## The end of a check (R153 to R161) -/

/-- What a pass under a slot means for the client's transition: the RETIRING slot is emptied at the first frame
of E or later under CURRENT, and a frame of E or later under RETIRING has the EPOCH record repeated (R158, R161). -/
def Device.passSlot (d : Device) (c s sf : Nat) : Device :=
  let k := d.client c
  let late := match k.epochAt with
    | some e => decide (e ≤ sf)
    | none => true
  match (d.key c s).st, d.slotIn c .retiring with
  | .current, some r => if late || k.assocRetire then d.emptySlot c r else d
  | .retiring, some _ =>
    if late && !k.assocRetire && !k.epochPending then
      let e := match d.slotIn c .current with
        | some n => (d.key c n).epoch
        | none => 0
      d.onClient c fun k => { k with ctrl := k.ctrl ++ [⟨3, beBytes 2 e ++ zeros 4⟩] }
    else d
  | .next, _ =>
    -- the client seals with NEXT from superframe E on
    if late then d.slotDue c sf else d
  | _, _ => d

/-- Report metadata of a frame (Table 16.1). -/
def RxFrame.meta_ (f : RxFrame) (c h : Nat) : RepMeta :=
  ⟨(rdiv f.stamp 2).toNat, mCounter f.data, f.band, c, h, f.alarm, f.eclipse, f.rate, f.rssi⟩

/-- A frame that passed counts as received, unless it came in Eclipse and was counted then (R123, R124). -/
def Device.counts (d : Device) (f : RxFrame) : Device :=
  match f.win with
  | some (.grant g) => if f.eclipse then d else d.clientHeard (mClient f.data) g f.sf f.ended
  | _ => d

/-- The effects of a pass. A frame from the ring was counted as it was received (R123). -/
def Device.passed (d : Device) (f : RxFrame) (r : Checked) : Device :=
  let c := mClient f.data
  let ty := mType f.data
  match r.link, r.slot with
  | some h, some s =>
    let d := d.passSlot c s f.sf
    if ty = tyReport then
      let age := fieldAt r.body 0 1
      let d := (d.counts f).onClient c fun k => { k with syncAge := some age, lr := decide (128 ≤ fieldAt r.body 1 1) }
      d.radioEntry f.band c h tyReport (some (f.meta_ c h)) r.body
    else if ty = tyData then
      let d := d.counts f
      let d := if capStation (d.client c).caps then d.linkHeard h else d
      if r.body.isEmpty then d
      else if capStation (d.client c).caps then d.reorderRx c h (mSeq f.data) r.body
      else d.radioEntry f.band c h tyData none r.body
    else d
  | _, _ => d

/-- An ASSOC_REQ waits for Keeper's answer. -/
def Device.joinAsked (d : Device) (f : RxFrame) (unknown : Bool) : Device :=
  match f.win with
  | some (.openSlot i) =>
    let b := mBody f.data
    let slot := omStart (d.openMapOf f.band) + i * omStride (d.openMapOf f.band)
    d.onLant fun l => { l with assocReqs := l.assocReqs ++ [⟨f.band, slot, f.sf, BitVec.ofNat 64 (fieldAt b 0 8), w32 (fieldAt b 8 4), BitVec.ofNat 64 (fieldAt b 12 8), w32 (mCounter f.data), mSeq f.data, unknown⟩] }
  | _ => d

/-- The end of a frame's check, with its result. -/
def Device.checkDone (d : Device) (f : RxFrame) (r : Checked) : Device :=
  let pass := r.result == 0
  let d := d.countResult r.result
  let ty := mType f.data
  let d := if ty = tyAssocReq then
      (if pass || r.result == 16 then d.joinAsked f (r.result == 16) else d)
    else if pass then d.passed f r else d
  match f.win with
  | some (.grant g) => d.noteChecked g f.sf pass
  | some (.openSlot _) =>
    let t := d.clk.now
    let mark (p : PollReq) : PollReq :=
      if p.client = mClient f.data ∧ p.sf = f.sf ∧ p.band = f.band then { p with endAt := some t, passAt := if pass then some t else none } else p
    d.onLant fun l => { l with polls := l.polls.map mark }
  | _ => d

/-- CHECK_JOB_END. -/
def checkJobEnd (id : Nat) (d : Device) : Device :=
  match d.ciph.jobs.find? fun j => j.id == id with
  | none => d
  | some j =>
    match j.kind with
    | .check f =>
      let x := (d.jobDone id).check f.band f.sf f.data
      x.2.checkDone f x.1
    | _ => d

/-! ## RING_VERIFY (R163) -/

/-- The frame that an entry of the ring holds. -/
def ringFrame (b : Bytes) : RxFrame where
  band := .l
  data := slice b 16 (fieldAt b 14 2)
  rate := fieldAt b 11 1 % 64
  cls := rateClassL (fieldAt b 11 1 % 64)
  sf := fieldAt b 0 4
  stamp := fieldAt b 0 4 * sfLen + 2 * fieldAt b 4 4
  start := 0
  det := 0
  ended := 0
  rssi := (BitVec.ofNat 16 (fieldAt b 12 2)).toInt
  alarm := decide (128 ≤ fieldAt b 10 1)
  win := none
  eclipse := true

/-- One entry: the transitions that fell due before it, its check, which holds a job slot while it runs (R155), its result and its
delivery. -/
def Device.verifyEntry (d : Device) (e : RingEntry) : Device :=
  let f := ringFrame e.bytes
  let d := d.onCiph fun k => { k with peakJobs := max k.peakJobs (min 64 (k.jobs.length + 1)) }
  let x := (d.slotDue (mClient f.data) f.sf).check .l f.sf f.data
  let r := if x.1.result = 2 then { x.1 with result := 6 } else x.1
  let d := x.2.countResult r.result
  if r.result = 0 then d.passed f r else d

/-- RING_VERIFY: the ring is checked oldest first once D7 is READY, then the frames that waited (log 59). -/
def ringVerify (d : Device) : Device :=
  if d.domSt 7 ≠ 3 ∨ d.ciph.ringChecked ∨ d.start.waking ≠ some 2 then d
  else
    let d := d.lant.ring.foldl (fun d e => d.verifyEntry e) d
    let d := d.onLant fun l => { l with ring := [], ringUsed := 0 }
    let d := (d.epochSwitch d.lant.sf).onCiph fun c => { c with ringChecked := true }
    ((d.raise 173 0).drainBuffered).wakeCheck

/-! ## Meanings -/

/-- CHECK_JOB_END (R153). -/
def execCheckJobEnd (t : Time) (job : Nat) (s : State) : Host.Outcome State Fault Refusal := s.act t (checkJobEnd job)

/-- REORDER_SKIP (R106). -/
def execReorderSkip (t : Time) (client : Fin 8192) (s : State) : Host.Outcome State Fault Refusal := s.act t (reorderSkipCmd client)

/-- RING_VERIFY (R163). -/
def execRingVerify (t : Time) (s : State) : Host.Outcome State Fault Refusal := s.act t ringVerify

end Sys2Proof.Machine
end

