-- ==== Sys2Proof/Machine/RxPath.lean ====
section
/-! DEFINITION. Reception on a radio: windows, detection, headers, codewords and results, the 802.15.4 detector,
the relay's parent windows, and the Bell (chapters 2, 3, 5). -/

namespace Sys2Proof.Machine

/-! ## Results (R74, Table 3.11) -/

/-- The counter of a result. -/
def resultCnt (b : Band) (res : Nat) : Nat :=
  match res with
  | 0 => Reg.RAD_RX_OK_CNT b
  | 1 => Reg.RAD_SYNC_MISS_CNT b
  | 2 => Reg.RAD_HDR_CRC_CNT b
  | 3 => Reg.RAD_HDR_INV_CNT b
  | 4 => Reg.RAD_DECODE_FAIL_CNT b
  | 5 => Reg.RAD_CAPTURE_ABORT_CNT b
  | _ => Reg.RAD_TRUNC_CNT b

/-- RADx_RX_LAST of a frame. -/
def RxDet.last (c : RxDet) (res : Nat) : Word :=
  w32 (res * 0x10000000 + (if c.hdrOk then hdrRate c.hdr * 0x400000 + hdrLength c.hdr * 256 + b2n (hdrBeacon c.hdr) * 128 + b2n (hdrAlarm c.hdr) * 64 else 0))

/-- The current frame ends with a result; its codewords in flight are not decoded. The equaliser's error ratio
is what it measured (log 2). -/
def Device.rxResult (d : Device) (b : Band) (c : RxDet) (res : Nat) : Device :=
  let snr := d.freeVal % 256
  let d := d.freeNext.onRad b fun r =>
    { r with rxLast := c.last res, rxQual := w32 (ofInt 16 c.pwr * 65536 + snr * 256 + c.iterMax % 256), flight := [] }
  d.inc (resultCnt b res)

/-- No frame in progress. -/
def Device.rxIdle (d : Device) (b : Band) : Device :=
  d.onRad b fun r => { r with cur := none, cand := none, gainHeld := none, flight := [] }

/-! ## Windows (R31, R40, R73, R95) -/

/-- A window belongs to the reply that is about to go. -/
def Radio.ownReply (r : Radio) (w : Win) : Bool :=
  match r.tx with
  | some x => match x.frame.kind, w.w with
    | .reply g, .grant i => g == i && x.frame.sf == w.sf
    | .pollReply, .openSlot _ => x.frame.sf == w.sf
    | _, _ => false
  | none => false

/-- The Lantern's side of a closed window (log 82). -/
def Device.winNoted (d : Device) (b : Band) (w : Win) (lost : Bool) : Device :=
  match w.w with
  | .grant g => d.noteClose g w.sf lost
  | .parent => d.onRelay fun r => { r with lostM := r.lostM || (lost && b == .m), lostH := r.lostH || (lost && b == .h) }
  | _ => d

/-- A command's lead has begun while the radio was in RX: a headed frame is TRUNCATED, an unheaded one abandoned; the
windows of the reply to come are closed, and the others wait for RX to be reached again. -/
def Device.rxLeave (d : Device) (b : Band) : Device :=
  let r := d.radio b
  if r.cur.isNone && !r.winOpen then d
  else
    let d := match r.cur with
      | some c => if c.hdrOk then d.rxResult b c 6 else d
      | none => d
    let gone := r.wins.filter fun w => w.isOpen && (w.closed || r.ownReply w)
    let stay (w : Win) : Win := { w with isOpen := false }
    let d := (d.rxIdle b).onRad b fun r => { r with wins := (r.wins.filter fun w => !gone.contains w).map stay }
    gone.foldl (fun d w => d.winNoted b w false) d

/-- The lead of a command that takes the radio out of RX has begun: its arm interval of 1 µs, then RX exit (R25, R73). -/
def Radio.leaving (r : Radio) (t : Time) : Bool :=
  match r.trans with
  | x :: _ => r.st == .rx && x.dest != .rx && decide (x.start ≤ t + usec)
  | [] => false

/-- A window of a class is over. When no other is open and nothing follows, the radio enters rx_end_state. -/
def Device.winEnd (d : Device) (b : Band) (x : Win) : Device :=
  let d := d.onRad b fun r => { r with wins := r.wins.erase x }
  let d := if x.opened then d else d.winLost b
  let d := d.winNoted b x (!x.opened)
  let r := d.radio b
  if !x.isOpen || r.winOpen then d
  else
    let d := d.rxIdle b
    if r.st = .rx ∧ r.tx.isNone ∧ r.trans.isEmpty then d.replan b (some (d.rxEndState b)) else d

/-- The windows that have closed while a headed frame ran on are over. -/
def Device.winsOver (d : Device) (b : Band) : Device :=
  ((d.radio b).wins.filter fun w => w.closed).foldl (fun d w => d.winEnd b w) d

/-- The lead of the next window has begun after a window closed on a headed frame: 1 µs before it opens, in RX (R31, R73). -/
def Radio.nextLead (r : Radio) (t : Time) : Bool :=
  r.wins.any fun c => c.closed && r.wins.any fun w => !w.isOpen && !w.closed && decide (c.closesAt + usec < w.opensAt ∧ w.opensAt ≤ t + usec)

/-- Such a frame is TRUNCATED (R73). -/
def Device.rxTrunc (d : Device) (b : Band) : Device :=
  match (d.radio b).cur with
  | some c => (((if c.hdrOk then d.rxResult b c 6 else d).rxIdle b)).winsOver b
  | none => d.winsOver b

/-- Brings a radio's windows up to the instant. -/
def Device.rxSync (d : Device) (b : Band) : Device :=
  if (d.radio b).leaving d.clk.now then d.rxLeave b
  else if (d.radio b).nextLead d.clk.now then (d.rxTrunc b).openWins b
  else d.openWins b

/-- The class received: that of the window opened last, else the one tuned to. -/
def Radio.rxCls (r : Radio) : Nat :=
  match (r.wins.filter fun w => w.isOpen).getLast? with
  | some w => w.cls
  | none => r.cls

/-- RX_WINDOW_CLOSE: the planned end of a window (log 82). A headed frame runs on; a preamble that captures it then is taken
up too, and the window is over with the last of them (log 79). -/
def rxWindowClose (b : Band) (w : RxWin) (d : Device) : Device :=
  let d := d.rxSync b
  match (d.radio b).wins.find? fun x => x.w == w with
  | none => d
  | some x =>
    let headed := match (d.radio b).cur with
      | some c => c.hdrOk
      | none => false
    if d.clk.now < x.closesAt ∨ x.closed then d
    else if x.isOpen && headed then
      d.onRad b fun r => { r with wins := r.wins.map fun y => if y = x then { y with closed := true } else y }
    else d.winEnd b x

/-! ## Receive commands (R37 to R40, R88, R95, R137, R139) -/

/-- A window from lamp times, outward to whole microseconds (log 82). -/
def Device.mkWin (d : Device) (w : RxWin) (op cl cls chan ant sf : Nat) : Win :=
  ⟨w, d.devAt (op / usec * usec), d.devAt (ceilDiv cl usec * usec), cls, chan, ant, false, false, sf, false⟩

/-- The longest beacon of a class. -/
def longestBeacon (b : Band) (cls : Nat) : Nat :=
  (((List.range 64).filter fun r => rateInClass b cls r).map fun r => frameQ b cls r 64).foldl max 0

/-- The window of a receive command, with the device as it notes it (log 82). -/
def Device.winOf (d : Device) (b : Band) (w : RxWin) : Option (Win × Device) :=
  match w with
  | .grant g =>
    let ok (n : Nat) (p : PlanRec) : Bool :=
      gType p.bits != gtDown && gBand p.bits == bandNum b && decide (d.lampHn < (d.grantWindow p n).2.1)
    match d.grantAt g ok with
    | none => none
    | some (n, p) =>
      let d := d.addNotes n
      let k := d.client p.client
      match d.note g n with
      | none => none
      | some t =>
        if t.skipped || t.void || t.closed || !k.assoc || k.released || d.parentBand b then none
        else
          let x := d.grantWindow p n
          some (d.mkWin w x.1 x.2.1 (gClass p.bits) (d.chanOf b) (d.linkOf p.link).ant n,
            d.onClient p.client fun k => { k with guardLast := min 0xFFFF x.2.2 })
  | .openSlot i =>
    let one (n : Nat) : Option (Win × Device) :=
      match d.openSlotAt b n i with
      | some s => if d.lampHn < slotLamp b n (s + 1) then
          some (d.mkWin w (slotLamp b n s) (slotLamp b n (s + 1)) (d.beaconCls b) (d.chanOf b) (d.defAnt b) n, d)
        else none
      | none => none
    (one d.lampSf).orElse fun _ => one (d.lampSf + 1)
  | .parent =>
    if !d.parentBand b || d.lant.relay.st == 3 then none
    else
      let dur := qToHn (longestBeacon b (d.beaconCls b))
      let one (n : Nat) : Option (Win × Device) :=
        let pg := d.parentGuard b n * usec
        let cl := slotLamp b n 0 + dur + pg
        if d.lampHn < cl then some (d.mkWin w (slotLamp b n 0 - pg) cl (d.beaconCls b) (d.chanOf b) (d.defAnt b) n, d) else none
      (one d.lampSf).orElse fun _ => one (d.lampSf + 1)
  | .scan =>
    let rel := d.lant.relay
    if d.parentBand b && rel.st == 3 && b == (if rel.scanM then Band.m else Band.h) then
      some (d.mkWin w d.lampHn (slotLamp b (d.lampSf + 1) 0) (d.beaconCls b) rel.scanChan (d.defAnt b) d.lampSf, d)
    else none
  | .air =>
    if d.litOrOff then none
    else some (d.mkWin w d.lampHn (slotLamp b (d.lampSf + 1) 0) (d.beaconCls b) (d.chanOf b) (d.defAnt b) d.lampSf, d)

/-- RX_COMMAND: a twin that does not serve opens no windows of clients (R299). -/
def rxCommand (b : Band) (w : RxWin) (d : Device) : Device :=
  if d.domSt 2 ≠ 3 ∨ d.domSt (bandDom b) ≠ 3 ∨ !(d.prof b).present ∨ (!d.litOrOff ∧ w ≠ .air) then d
  else
    let d := d.rxSync b
    match d.winOf b w with
    | none => d
    | some (x, d) =>
      if (d.radio b).wins.any (fun y => y.w == w && y.sf == x.sf) then d
      else
        let y := d.radRx b x
        if y.2 then y.1 else (y.1.winLost b).winNoted b x true

/-! ## Detection and capture (R69 to R71) -/

/-- Symbols of a class, spread, in half ns, rounded up (log 3). -/
def symsHn (b : Band) (cls n : Nat) : Nat := qToHn (n * spreadF b cls * symQ b cls)

/-- byp_on and byp_off in 0.25 dBm. -/
def Device.bypOn (d : Device) (b : Band) : Int := 4 * sfld (d.cfg (Reg.RAD_AGC_CTRL b)) 15 8
def Device.bypOff (d : Device) (b : Band) : Int :=
  let on := sfld (d.cfg (Reg.RAD_AGC_CTRL b)) 15 8
  let off := sfld (d.cfg (Reg.RAD_AGC_CTRL b)) 7 0
  4 * (if off < on then off else on - 6)

/-- Headroom of the receive path above the held gain in 0.25 dB: a stronger preamble reads at its top (R69). -/
def headroom : Int := 80
def Radio.measured (r : Radio) (pwr : Int) : Int :=
  match r.gainHeld with
  | some g => min pwr (g + headroom)
  | none => pwr

/-- Receive gain settles on a detection and is held; LNA_BYP follows the input with hysteresis. -/
def Device.settleGain (d : Device) (b : Band) (pwr : Int) : Device :=
  let auto := d.cb (Reg.RAD_AGC_CTRL b) 31
  let on := d.bypOn b
  let off := d.bypOff b
  d.onRad b fun r =>
    let pins := if !auto then r.pins else if on < pwr then setBit r.pins 4 else if pwr < off then clrBit r.pins 4 else r.pins
    { r with gainHeld := some pwr, pins := pins }

/-- A new detection as a frame in progress. -/
def newDet (p : Detect) (cls : Nat) (det : Time) : RxDet := ⟨p.pwr, p.start, none, false, 0, 0, 0, 0, 0, 0, cls, det, none, []⟩

/-- A detection is the current frame's own STF: while that lasts, within one symbol of one of the eight instants of its
grid. -/
def ownStf (b : Band) (c : RxDet) (start now : Time) : Bool :=
  let sym : Int := spreadF b c.cls * symQ b c.cls
  let off : Int := ((start : Int) - c.start) * qPerHn
  decide (now < c.start + symsHn b c.cls 64) && (List.range 8).any fun k => decide (off - 8 * k * sym ≤ sym ∧ 8 * k * sym - off ≤ sym)

/-- The current frame's payload has ended. -/
def payloadEnded (b : Band) (c : RxDet) (t : Time) : Bool :=
  c.hdrOk && decide (c.start + qToHn (frameQ b c.cls (hdrRate c.hdr) (hdrLength c.hdr)) ≤ t)

/-- capture_margin in 0.25 dB. -/
def Device.captureMargin (d : Device) (b : Band) : Int := 4 * max 3 (min 20 (d.cf (Reg.RAD_RX_CTRL b) 12 8))

/-- The radio is in RX and stays there. -/
def Radio.receiving (r : Radio) (t : Time) : Bool := r.st == .rx && !r.leaving t && r.cal.isNone

/-- pd_threshold in 1/256 (Table 3.14). -/
def Device.pdThreshold (d : Device) (b : Band) : Nat := max 0x10 (min 0xC0 (d.cf (Reg.RAD_RX_CTRL b) 23 16))

/-- The 802.15.4 channel lies wholly inside the Sesia channel in use, and the detector is on (R77). -/
def Device.tuned154 (d : Device) : Bool :=
  let ch := d.cf Reg.RADM_F154_CTRL 4 0
  let r := d.rad.m
  d.cb Reg.RADM_F154_CTRL 31 && decide (11 ≤ ch ∧ ch ≤ 26) && (match r.chan with
    | some c => Span.inside (span154 ch) (chanSpan .m c (classKHz .m r.rxCls))
    | none => false)

/-- A Sesia preamble has been detected: it is counted, and an 802.15.4 frame in progress is abandoned (R77). -/
def Device.detSeen (d : Device) (b : Band) (p : Detect) : Device :=
  let cut := b == .m && p.cuts154 && d.tuned154 && d.rad.m.cur.isNone
  let d := if cut then d.inc Reg.RADM_F154_DROP_CNT else d
  (d.inc (Reg.RAD_RX_PD_CNT b)).onRad b fun r => { r with detAt := some d.clk.now }

/-- PREAMBLE_DETECT: procedure on_detect, for a correlation that reaches pd_threshold (R70, R71). -/
def preambleDetect (b : Band) (p : Detect) (d : Device) : Device :=
  let d := d.rxSync b
  let r := d.radio b
  if !r.receiving d.clk.now || decide (d.clk.now < p.start ∨ p.corr < d.pdThreshold b) then d
  else
    let x := newDet p r.rxCls d.clk.now
    match r.cur with
    | none => ((d.detSeen b p).onRad b fun r => { r with cur := some x, cand := none }).settleGain b p.pwr
    | some c =>
      if ownStf b c p.start d.clk.now then d
      else if c.pwr + d.captureMargin b ≤ r.measured p.pwr ∧ !payloadEnded b c d.clk.now then
        let d := (((d.detSeen b p).rxResult b c 5).inc (Reg.RAD_CAPTURE_CNT b))
        (d.onRad b fun r => { r with cur := some x, cand := none }).settleGain b p.pwr
      else if !c.hdrOk && (r.cand.all fun k => decide (k.pwr < p.pwr)) then
        (d.detSeen b p).onRad b fun r => { r with cand := some x }
      else d.detSeen b p

/-- Procedure on_header_fail. A candidate's samples were taken at the gain held, which stays (log 79). -/
def Device.headerFail (d : Device) (b : Band) (c : RxDet) (res : Nat) : Device :=
  let d := d.rxResult b c res
  let k := (d.radio b).cand
  let d := d.onRad b fun r => { r with cur := k, cand := none, gainHeld := if k.isSome then r.gainHeld else none }
  if k.isSome then d.inc (Reg.RAD_RELOCK_CNT b) else d.winsOver b

/-- The end of the sync search: 80 symbols after the detection (R70). -/
def syncLimit (b : Band) (c : RxDet) : Time := c.det + symsHn b c.cls 80

/-- SYNC_SEARCH_TIMEOUT: 80 symbols have passed without the sync word. -/
def syncSearchTimeout (b : Band) (d : Device) : Device :=
  let d := d.rxSync b
  match (d.radio b).cur with
  | none => d
  | some c => if c.sync.isSome ∨ d.clk.now < syncLimit b c then d else d.headerFail b c 1

/-- Equaliser taps of a radio (Table 3.10), and the exponents of its steps as RADx_EQ_CTRL sets them (R68). -/
def eqTaps (b : Band) : Nat × Nat :=
  match b with
  | .h => (64, 32)
  | .m => (32, 16)
  | .l => (16, 8)
def Device.eqRun (d : Device) (b : Band) : EqRun :=
  let lim (n : Nat) : Nat := max 1 (min 10 n)
  ⟨(eqTaps b).1, (eqTaps b).2, (eqTaps b).1 / 2, lim (d.cf (Reg.RAD_EQ_CTRL b) 11 8), lim (d.cf (Reg.RAD_EQ_CTRL b) 7 4)⟩

/-- The Lantern notes an uplink that has been detected in a grant's window: a REPLY is aligned to it whether or not it is
decoded (R96). -/
def Device.upHeard (d : Device) (b : Band) (c : RxDet) (sync : Time) : Device :=
  let stamp := d.lampAt sync - d.cf (Reg.RAD_FE_LAT b) 15 0 - syncQ b c.cls / qPerHn
  let mine (n : GrantNote) : Bool :=
    gBand n.plan.bits == bandNum b && gType n.plan.bits != gtDown && !n.skipped && !n.void && !n.lost && n.heard.isNone
      && (let w := d.grantWindow n.plan n.sf
          decide (w.1 ≤ d.lampAt c.det ∧ d.lampAt c.det ≤ w.2.1))
  let mark (n : GrantNote) : GrantNote := if mine n then { n with heard := some stamp } else n
  d.onLant fun l => { l with notes := l.notes.map mark }

/-- HEADER_RECEIVED: the sync word was found at `sync`, and 32 header bits came with their complements, as soft values (R59,
R70, R72). A sync word found after the search has ended is none. -/
def headerReceived (b : Band) (sync : Time) (soft : List (Int × Int)) (d : Device) : Device :=
  let d := d.rxSync b
  match (d.radio b).cur with
  | none => d
  | some c =>
    if c.sync.isSome then d
    else if syncLimit b c < sync then d.headerFail b c 1
    else
      let bits := hdrWord soft d.freeVal
      let d := d.freeNext.upHeard b c sync
      let c := { c with sync := some sync }
      if !hdrOk bits then d.headerFail b c 2
      else if hdrInvalid b c.cls bits then ((d.rxResult b { c with hdrOk := true, hdr := bits } 3).rxIdle b).winsOver b
      else
        let n := (cwPlan b (hdrLength bits) (codeIndex b (hdrRate bits))).cws.length
        d.onRad b fun r => { r with cur := some { c with hdrOk := true, hdr := bits, cwTotal := n, eq := some (d.eqRun b) } }

/-! ## Codewords (R66, R67) -/

/-- Codewords in flight at most, and max_iter. -/
def flightLimit (b : Band) : Nat :=
  match b with
  | .l => 4
  | .m => 12
  | .h => 48
def Device.maxIter (d : Device) (b : Band) : Nat := max 1 (min 20 (d.cf (Reg.RAD_LDPC_CTRL b) 12 8))

/-- The oldest codeword in flight stops after at most `layers` layers, or at max_iter (R66). -/
def Device.cwEnd (d : Device) (b : Band) (layers : Nat) : Device :=
  match (d.radio b).flight, (d.radio b).cur with
  | x :: rest, some c =>
    let ri := codeIndex b (hdrRate c.hdr)
    let p := cwPlan b (hdrLength c.hdr) ri
    let r := decodeCw p ri (d.cf (Reg.RAD_LDPC_CTRL b) 1 0) x.idx (min layers (d.maxIter b * codeMb ri)) x.soft
    let d := (d.inc (Reg.RAD_CW_CNT b)).addCnt (Reg.RAD_ITER_CNT b) r.2.2 0xFFFFFFFF
    let d := if r.2.1 then d else d.inc (Reg.RAD_CW_FAIL_CNT b)
    let c := { c with cwDone := c.cwDone + 1, cwFail := c.cwFail + b2n (!r.2.1), iterMax := max c.iterMax r.2.2, bits := c.bits.put x.idx r.1 }
    d.onRad b fun k => { k with flight := rest, cur := some c }
  | _, _ => d

/-- CODEWORD_READY: a codeword is ready, as soft bits; with the limit reached, the oldest in flight stops first, after the
`layers` layers it has run. -/
def codewordReady (b : Band) (soft : List Int) (layers : Nat) (d : Device) : Device :=
  let d := d.rxSync b
  match (d.radio b).cur with
  | none => d
  | some c =>
    if !c.hdrOk ∨ c.cwTotal ≤ c.cwReady then d
    else
      let d := if flightLimit b ≤ (d.radio b).flight.length then
          ((d.cwEnd b layers).inc (Reg.RAD_FORCED_STOP_CNT b)).raiseRad b 6 0
        else d
      let upd (c : RxDet) : RxDet := { c with cwReady := c.cwReady + 1 }
      d.onRad b fun r => { r with flight := r.flight ++ [⟨c.cwReady, soft⟩], peakFlight := max r.peakFlight (r.flight.length + 1), cur := r.cur.map upd }

/-- CODEWORD_DECODED: the oldest codeword in flight has been decoded. -/
def codewordDecoded (b : Band) (d : Device) : Device :=
  let d := d.rxSync b
  d.cwEnd b (d.maxIter b * 24)

/-! ## RX_FRAME_END (R74) -/

/-- A frame that has ended with result OK, as the MAC takes it (log 55). -/
def Device.rxFrame (d : Device) (b : Band) (c : RxDet) (data : Bytes) : RxFrame where
  band := b
  data := padTo (hdrLength c.hdr) data
  rate := hdrRate c.hdr
  cls := c.cls
  sf := d.lampAt c.start / sfLen
  stamp := d.lampAt (c.sync.getD d.clk.now) - d.cf (Reg.RAD_FE_LAT b) 15 0
  start := c.start
  rssi := c.pwr
  alarm := hdrAlarm c.hdr
  win := none
  eclipse := false
  det := c.det
  ended := d.clk.now

/-- The payload of a frame, descrambled from its codewords' bits (R60, R61). -/
def RxDet.payload (c : RxDet) : Bytes :=
  descrambled (hdrLength c.hdr) ((List.range c.cwTotal).flatMap fun j => c.bits.get [] j)

/-- RX_FRAME_END: every codeword has ended, and the frame with it. -/
def rxFrameEnd (b : Band) (d : Device) : Device :=
  let d := d.rxSync b
  match (d.radio b).cur with
  | none => d
  | some c =>
    if !c.hdrOk ∨ c.cwDone < c.cwTotal then d
    else
      let ok := c.cwFail == 0
      let f := d.rxFrame b c c.payload
      let d := (d.rxResult b c (if ok then 0 else 4)).rxIdle b
      let d := if ok && d.domSt 2 == 3 then d.macRx f else d
      d.winsOver b

/-! ## RADIO_TRANSITION_END and LOCK_LOSS (R22, R41) -/

/-- RADIO_TRANSITION_END. -/
def radioTransitionEnd (b : Band) (d : Device) : Device := (d.rxSync b).transEnd b

/-- LOCK_LOSS: a frame being received is dropped as DECODE_FAIL, and RX ends for the windows; a frame being sent is charged
for what has gone out. -/
def lockLoss (b : Band) (d : Device) : Device :=
  let d := d.rxSync b
  let d := match (d.radio b).cur with
    | some c => (d.rxResult b c 4).rxIdle b
    | none => d
  let d := match (d.radio b).st, (d.radio b).tx with
    | .tx, some x => d.dutyCut b x d.clk.now
    | _, _ => d
  d.lockLossRadio b

/-! ## IEEE 802.15.4 (R76 to R78) -/

/-- The detector listens on its channel: Radio M is in RX, and stays there. -/
def Device.listens154 (d : Device) : Bool := d.tuned154 && d.rad.m.receiving d.clk.now

/-- FRAME_154_RX: a PPDU has been received, the first chip of its SFD at `sfd`; one that a Sesia preamble cut has been
counted then (log 83). -/
def frame154Rx (phr : Byte) (psdu : Bytes) (fcsOk : Bool) (rssi : Int) (sfd : Time) (d : Device) : Device :=
  let d := d.rxSync .m
  let cut := match d.rad.m.detAt with
    | some t => decide (sfd ≤ t)
    | none => false
  if !d.listens154 || cut then d
  else if d.rad.m.cur.isSome || (!fcsOk && d.cb Reg.RADM_F154_CTRL 30) then d
  else if 64 ≤ d.rad.m.ring154.length then (d.inc Reg.RADM_F154_DROP_CNT).raise 103 0
  else
    let stamp := d.lampAt sfd - d.cf (Reg.RAD_FE_LAT .m) 15 0
    (d.onRad .m fun r => { r with ring154 := r.ring154 ++ [⟨phr, psdu, fcsOk, rssi, stamp⟩] }).inc Reg.RADM_F154_RX_CNT

/-! ## TEMP_SAMPLE (R32, R392) -/

/-- Groups whose last calibration lies temp_threshold or more away become pending. -/
def Device.tempGroups (d : Device) (temp : BitVec 16) : Device :=
  [Band.l, Band.m, Band.h].foldl (fun d b =>
    if d.domDown (bandDom b) then d
    else
      let th := d.tempThresh b
      let far (g : Nat) : Bool :=
        let k := (d.radio b).group g
        k.valid && decide (th ≤ temp.toInt - k.temp.toInt ∨ th ≤ k.temp.toInt - temp.toInt)
      d.onRad b fun r => { r with pend := ((List.range (groupCount b)).filter far).foldl (fun l g => addPend g l) r.pend }) d

/-- TEMP_SAMPLE: every 16 ms in Run; in the low-power states the sequencer samples (R324). -/
def tempSample (temp : BitVec 16) (d : Device) : Device :=
  if !d.start.powered || d.pwr.st == 2 || d.pwr.st == 3 || d.pwr.st == 4 then d
  else (d.thermSample temp).tempGroups temp

/-! ## The relay's scan and its parent windows (R137 to R139) -/

/-- Channels of a band that the profile permits for its beacon class, stepping by the class bandwidth. -/
def Device.scanChans (d : Device) (b : Band) : List Nat :=
  let p := d.prof b
  let kHz := classKHz b p.beaconCls
  let ok (i : Nat) : Bool :=
    p.subs.any (fun s => Span.inside (chanSpan b i kHz) s.span) && p.restr.all fun r => !Span.overlaps (chanSpan b i kHz) (restrSpan b r)
  let all := (List.range ((bandHi b - bandLo b) / chanStep b + 1)).filter ok
  let by_ := ceilDiv (2 * kHz) (chanStep b)
  (all.foldl (fun l i => match l with
    | [] => [i]
    | j :: r => if j + by_ ≤ i then i :: j :: r else j :: r) []).reverse

/-- The channels in turn: those of Radio H, then of Radio M where it is a parent-link band. -/
def Device.scanRing (d : Device) : List (Bool × Nat) :=
  (d.scanChans .h).map (fun c => (false, c))
    ++ (if d.parentBand .m then (d.scanChans .m).map (fun c => (true, c)) else [])

/-- The scan moves to its next channel, wrapping. -/
def Device.scanStep (d : Device) : Device :=
  let rel := d.lant.relay
  let ring := d.scanRing
  let later := ring.dropWhile fun x => !(x.1 == rel.scanM && x.2 == rel.scanChan)
  match (later.drop 1).head?.orElse fun _ => ring.head? with
  | some (m, c) => (d.onRelay fun r => { r with scanM := m, scanChan := c }).useGroup (if m then .m else .h) c
  | none => d

/-- The scan begins at the first channel. -/
def Device.scanStart (d : Device) : Device :=
  match d.scanRing.head? with
  | some (m, c) =>
    (d.onRelay fun r => { r with st := 3, scanM := m, scanChan := c, joining := false, asked := none, barred := none }).useGroup (if m then .m else .h) c
  | none => d.onRelay fun r => { r with st := 3, joining := false, asked := none, barred := none }

/-- One missed parent beacon (R137 to R139, R231). -/
def Device.parentMissed (d : Device) : Device :=
  let n := min 255 (d.lant.relay.miss + 1)
  let d := (d.onRelay fun r => { r with miss := n }).inc Reg.LANT_PARENT_MISS_CNT
  let d := if n = 3 then
      [RefDom.a, RefDom.b].foldl (fun d x => if d.refSrc x = 3 then d.refLoss x else d) d
    else d
  if n = 3 ∧ d.lant.relay.st = 1 then ((d.onRelay fun r => { r with st := 2 }).setDepth 0xFF).raise 60 0
  else if n = 64 ∧ d.lant.relay.st = 2 then d.scanStart.raise 62 0
  else d

/-- A relay, a station of its parent, has missed the beacon of a band: its link there is unhealthy after three (R105). -/
def Device.bandMissed (d : Device) (b : Band) : Device :=
  let was := if b = .m then d.lant.relay.badM else d.lant.relay.badH
  let n := min 255 ((if b = .m then d.lant.relay.missM else d.lant.relay.missH) + 1)
  let bad := was || decide (3 ≤ n)
  let d := d.onRelay fun r => if b = .m then { r with missM := n, badM := bad } else { r with missH := n, badH := bad }
  if bad && !was then d.raise 57 0 else d

/-- PARENT_WINDOW_CLOSE: the windows on all parent-link bands of a superframe have closed. A superframe with a lost window counts
no miss (log 78), and superframes in Eclipse are not counted (R137, R141). -/
def parentWindowClose (d : Device) : Device :=
  let rel := d.lant.relay
  if !d.cb Reg.LANT_RELAY_CTRL 31 || d.domSt 2 != 3 || (rel.st != 1 && rel.st != 2) then d
  else
    let d := d.onRelay fun r => { r with heard := false, heardM := false, heardH := false, lostM := false, lostH := false }
    if d.lant.eclipseFlag then d
    else
      let d := if d.parentBand .m && !rel.heardM && !rel.lostM then d.bandMissed .m else d
      let d := if d.parentBand .h && !rel.heardH && !rel.lostH then d.bandMissed .h else d
      if rel.heard || rel.lostM || rel.lostH then d else d.parentMissed

/-! ## The Bell (R134, R135) -/

/-- Bits in which two codes differ (log 103). -/
def codeErrors (a b : Word) : Nat := (bitsOf (a ^^^ b) 32).length

/-- A code that may be sent and may match (R131). -/
def codeSent (w : Word) : Bool := w != 0 && w != 0xFFFFFFFF

/-- The code that a received word matches: the lowest enabled one that has not matched within 1 s (log 103). -/
def Device.bellHit (d : Device) (code : Word) : Option Nat :=
  (List.range 8).find? fun i =>
    d.cb Reg.MOOR_BELL_CTRL (24 + i) && codeSent code && codeSent (d.cfg (Reg.MOOR_BELL_CODE i)) && decide (codeErrors code (d.cfg (Reg.MOOR_BELL_CODE i)) ≤ d.cf Reg.MOOR_BELL_CTRL 15 14)
      && (match d.pwr.bellAt.find? (fun x => x.1 == i) with
        | some (_, t) => decide (t + sec ≤ d.clk.now)
        | none => true)

/-- BELL_MATCH: the preamble, the delimiter and 32 code bits have been received (log 103). -/
def bellMatch (code : Word) (d : Device) : Device :=
  if !d.start.powered || (!d.domDown 3 && bitOf (d.rad.l.pinsAt d.clk.now) 0) then d
  else match d.bellHit code with
    | none => d
    | some i =>
      let n := codeErrors code (d.cfg (Reg.MOOR_BELL_CODE i))
      let d := d.onPwr fun p =>
        { p with bellAt := p.bellAt.put i d.clk.now, bellLast := w32 (i * 0x20000000 + n * 0x08000000 + d.rtcTicks % 0x08000000) }
      let d := (d.inc Reg.MOOR_BELL_MATCH_CNT).raise 8 0
      if d.cb Reg.MOOR_BELL_CTRL (16 + i) then d.latchSet 3 else d

/-! ## Meanings -/

/-- RX_COMMAND (R40). -/
def execRxCommand (t : Time) (b : Band) (w : RxWin) (s : State) : Host.Outcome State Fault Refusal := s.act t (rxCommand b w)

/-- RX_WINDOW_CLOSE (R73). -/
def execRxWindowClose (t : Time) (b : Band) (w : RxWin) (s : State) : Host.Outcome State Fault Refusal := s.act t (rxWindowClose b w)

/-- RADIO_TRANSITION_END (R22). -/
def execRadioTransitionEnd (t : Time) (b : Band) (s : State) : Host.Outcome State Fault Refusal := s.act t (radioTransitionEnd b)

/-- PREAMBLE_DETECT (R71). -/
def execPreambleDetect (t : Time) (b : Band) (p : Detect) (s : State) : Host.Outcome State Fault Refusal := s.act t (preambleDetect b p)

/-- SYNC_SEARCH_TIMEOUT (R70). -/
def execSyncSearchTimeout (t : Time) (b : Band) (s : State) : Host.Outcome State Fault Refusal := s.act t (syncSearchTimeout b)

/-- HEADER_RECEIVED (R70). -/
def execHeaderReceived (t : Time) (b : Band) (sync : Time) (soft : List (Int × Int)) (s : State) : Host.Outcome State Fault Refusal :=
  s.act t (headerReceived b sync soft)

/-- CODEWORD_READY (R67). -/
def execCodewordReady (t : Time) (b : Band) (soft : List Int) (layers : Nat) (s : State) : Host.Outcome State Fault Refusal :=
  s.act t (codewordReady b soft layers)

/-- CODEWORD_DECODED (R66). -/
def execCodewordDecoded (t : Time) (b : Band) (s : State) : Host.Outcome State Fault Refusal :=
  s.act t (codewordDecoded b)

/-- RX_FRAME_END (R74). -/
def execRxFrameEnd (t : Time) (b : Band) (s : State) : Host.Outcome State Fault Refusal := s.act t (rxFrameEnd b)

/-- FRAME_154_RX (R78). -/
def execFrame154Rx (t : Time) (phr : Byte) (psdu : Bytes) (fcsOk : Bool) (rssi : Int) (sfd : Time) (s : State) : Host.Outcome State Fault Refusal :=
  s.act t (frame154Rx phr psdu fcsOk rssi sfd)

/-- LOCK_LOSS (R41). -/
def execLockLoss (t : Time) (b : Band) (s : State) : Host.Outcome State Fault Refusal := s.act t (lockLoss b)

/-- TEMP_SAMPLE (R32). -/
def execTempSample (t : Time) (temp : BitVec 16) (s : State) : Host.Outcome State Fault Refusal := s.act t (tempSample temp)

/-- PARENT_WINDOW_CLOSE (R137). -/
def execParentWindowClose (t : Time) (s : State) : Host.Outcome State Fault Refusal := s.act t parentWindowClose

/-- BELL_MATCH (R134). -/
def execBellMatch (t : Time) (code : Word) (s : State) : Host.Outcome State Fault Refusal := s.act t (bellMatch code)

end Sys2Proof.Machine
end

