-- ==== Sys2Proof/Machine/Assoc.lean ====
section
/-! DEFINITION. Keeper's answer to a joining client: the order of outcomes, placement of grants, the epoch of an
association, and the response (R101, R102, R160 to R162, R336 to R338). -/

namespace Sys2Proof.Machine

/-! ## Settings (Tables 5.8, 16.12) -/

def Device.joinEn (d : Device) : Bool := d.cb Reg.KEEP_PLAN_CTRL 31
def Device.defaultK (d : Device) : Nat := min 12 (d.cf Reg.KEEP_PLAN_CTRL 27 24)
def Device.reportLen (d : Device) : Nat := max 16 (d.cf Reg.KEEP_PLAN_CTRL 23 16)
def Device.stnSlots (d : Device) (b : Band) : Nat :=
  match b with
  | .l => 0
  | .m => d.cf Reg.KEEP_PLAN_CTRL 15 8
  | .h => d.cf Reg.KEEP_PLAN_CTRL 7 0
def Device.leaseDefault (d : Device) : Nat := max 4 (min 4096 (d.cf Reg.LANT_SLEEPY_CTRL 12 0))

/-! ## Placement (R337) -/

/-- Superframes up to which every schedule repeats: the longest grant and beacon interval. -/
def planPeriod : Nat := 4096

/-- The superframes of a phase. -/
def phaseSfs (k phase : Nat) : List Nat := (List.range (planPeriod / 2 ^ k)).map fun i => phase + i * 2 ^ k

/-- The guard, in µs, that Keeper plans for a grant of a client that tracks the long-range beacon: by the last one planned before it
(R120, R121). -/
def Device.planGuard (d : Device) (b : Band) (k : Client) (n first : Nat) : Nat :=
  let m := n - n % 2 ^ d.lrExp
  let elapsed := (slotLamp b n first - slotLamp b m (d.nb b)) / usec
  min (d.guardMax b) (d.cf Reg.LANT_SLEEPY_CTRL 31 24 + ceilDiv ((2 * d.tolOf k + 1) * elapsed) 1000000)

/-- A slot lies wholly inside the long guard of a grant active in superframe `n` (R121) (log 20). -/
def Device.guardCovers (d : Device) (b : Band) (n j : Nat) : Bool :=
  d.cb Reg.LANT_BEACON_CTRL 0 && (d.activeOn b n).any fun x =>
    let k := d.client x.2.client
    let g := d.planGuard b k n (gFirst x.2.bits) * usec
    let from_ := slotLamp b n (gFirst x.2.bits)
    let till := slotLamp b n (gFirst x.2.bits + gCount x.2.bits)
    k.lr && ((decide (from_ - g ≤ slotLamp b n j ∧ slotLamp b n (j + 1) ≤ from_)) || decide (till ≤ slotLamp b n j ∧ slotLamp b n (j + 1) ≤ till + g))

/-- `w` slots from `j` are free in every superframe of the phase, and inside no long guard. -/
def Device.runFree (d : Device) (b : Band) (k phase j w : Nat) : Bool :=
  (phaseSfs k phase).all fun n => (List.range w).all fun i => d.slotFree b n (j + i) && !d.guardCovers b n (j + i)

/-- Slots covered by grants in the superframes of a phase. -/
def Device.phaseUsed (d : Device) (b : Band) (k phase : Nat) : Nat :=
  ((List.range (slotCount b)).filter fun j => (phaseSfs k phase).any fun n => d.granted b n j).length

/-- The lowest slot from 1 at which `w` slots are free in a phase. -/
def Device.placeAt (d : Device) (b : Band) (k w phase : Nat) : Option (Nat × Nat × Nat) :=
  (((List.range (slotCount b)).filter fun j => decide (1 ≤ j)).find? fun j => d.runFree b k phase j w).map fun j => (k, phase, j)

/-- Procedure place, for `w` slots and interval exponents from `lo` to `hi`: exponent, phase and first slot. -/
def Device.place (d : Device) (b : Band) (w lo hi : Nat) : Option (Nat × Nat × Nat) :=
  ((List.range (hi + 1)).filter fun k => decide (lo ≤ k)).findSome? fun k =>
    ((List.range (2 ^ k)).foldl (fun l p => insertStep (d.phaseUsed b k) p l) []).findSome? fun p => d.placeAt b k w p

/-- The plan that a new grant joins: the one scheduled, else the one in force. -/
def Device.basePlan (d : Device) : List PlanRec :=
  match d.lant.commit with
  | some c => c.plan
  | none => d.lant.plan

/-- The grants among which Keeper places: those of that plan, and those that GRANT records will bring (R94). -/
def Device.takenPlan (d : Device) : List PlanRec := d.basePlan ++ d.grantsComing

/-- The device with a plan in force, as placement sees it (log 20). -/
def Device.withPlan (d : Device) (l : List PlanRec) : Device := d.onLant fun x => { x with plan := l, commit := none }

/-! ## What a client is offered (R336, R337) -/

/-- The highest Radio L rate that the declared one and the permitted classes allow. -/
def Device.tagRate (d : Device) (caps : Word) : Option Nat :=
  ((List.range (min 6 (capRateL caps) + 1)).reverse).find? fun r => rateDefined .l r && (d.prof .l).permits (rateClassL r)

/-- Bands that Keeper offers. -/
def Device.offered (d : Device) (caps : Word) : List Band :=
  if capStation caps then [Band.m, Band.h].filter fun b => capBand caps b && decide (0 < d.stnSlots b)
  else if capBand caps .l && (d.tagRate caps).isSome then [.l] else []

/-- The lowest client ID that no client holds: all 8,192 values are assignable (R2). -/
def Device.freeId (d : Device) : Option Nat := (List.range 8192).find? fun c => !(d.client c).assoc

/-- The `n` lowest free link handles. -/
def Device.freeLinks (d : Device) (n : Nat) : List Nat :=
  ((List.range 8192).filter fun h => !(d.linkOf h).used).take n

/-- Grants of a new tag: one UPLINK_REPLY grant. -/
def Device.tagGrants (d : Device) (c h : Nat) (caps : Word) : Option (List PlanRec) :=
  match d.tagRate caps with
  | none => none
  | some rate =>
    let n := slotsOf .l (frameQ .l (rateClassL rate) rate d.reportLen)
    match (d.withPlan d.takenPlan).place .l (n + 1) d.defaultK 12 with
    | some (k, phase, j) => some [⟨c, h, mkGrant 0 j n k phase rate gtUplink 0 0⟩]
    | none => none

/-- Class and rate of a station's grants, which R337 does not give: one pair that the profile permits (log 2)
(log 67). -/
def Device.stnRate (d : Device) (b : Band) : Nat × Nat :=
  let all := (List.range 8).flatMap fun c =>
    if (d.prof b).permits c then ((List.range 64).filter fun r => rateInClass b c r).map fun r => (c, r) else []
  (all[d.freeVal % max 1 all.length]?).getD (0, 0)

/-- Grants of a new station: one up and one down in every superframe on each band it takes (log 67). -/
def Device.stnGrants (d : Device) (c : Nat) : List (Band × Nat × Nat) → List PlanRec → Option (List PlanRec)
  | [], acc => some acc
  | (b, h, order) :: rest, acc =>
    let w := d.stnSlots b
    let cr := d.stnRate b
    let one (acc : List PlanRec) (ty : Nat) : Option (List PlanRec) :=
      match (d.withPlan (d.takenPlan ++ acc)).place b w 0 0 with
      | some (k, phase, j) => some (acc ++ [⟨c, h, mkGrant (bandNum b) j w k phase cr.2 ty order cr.1⟩])
      | none => none
    match (one acc gtUp).bind fun acc => one acc gtDown with
    | some acc => d.stnGrants c rest acc
    | none => none

/-! ## The epoch of an association (R160, R161) -/

/-- The epoch that a derivation in hand for a client makes. -/
def Device.derivingEpoch (d : Device) (c : Nat) : Option Nat :=
  (d.ciph.jobs ++ d.ciph.waiting).findSome? fun j => match j.kind with
    | .derive c' _ e _ => if c' = c then some e else none
    | _ => none

/-- The number of the new epoch: one more than the newest that the client holds, or that is being derived for it. -/
def Device.newEpoch (d : Device) (c : Nat) : Nat :=
  match d.derivingEpoch c with
  | some e => (e + 1) % 65536
  | none => match ((d.slotIn c .next).orElse fun _ => d.slotIn c .current).orElse fun _ => d.slotIn c .retiring with
    | some s => ((d.key c s).epoch + 1) % 65536
    | none => 0

/-- Prepares the slots and has the keys of epoch `e` derived; the switch is due in superframe `r` (R146, R161). -/
def Device.assocKeys (d : Device) (c e r : Nat) : Device :=
  let d := d.deriveDrop c
  let d := match d.slotIn c .next with
    | some s => d.onKey c s fun _ => KeyEntry.empty
    | none => d
  let d := match d.slotIn c .retiring with
    | some s => d.emptySlot c s
    | none => d
  let d := d.onClient c fun k => { k with epochAt := none, retireAt := none, assocRetire := false }
  let s := match d.slotIn c .current with
    | some s => 1 - s
    | none => 0
  (d.mirrorNow mcKeys [d.keyRec c 0, d.keyRec c 1]).kdfGo c s e (.assoc r)

/-! ## Answers -/

/-- Queues a response (log 88). -/
def Device.respond (d : Device) (a : AssocReq) (status client epoch lease : Nat) (grants : List DWord) : Device :=
  d.onLant fun l => { l with assocResps := l.assocResps ++ [⟨a.band, a.slot, a.sf + 1, a.serial, status, client, epoch, lease, a.nonce, a.counter, a.seq, grants⟩] }

/-- An answer other than ACCEPTED. Its epoch and lease fields are not given (log 2) (log 67). -/
def Device.deny (d : Device) (a : AssocReq) (status : Nat) : Device :=
  (d.respond a status noClient (d.freeVal % 65536) (d.freeVal / 65536 % 65536) []).freeNext

/-- FULL, with EV248. -/
def Device.full (d : Device) (a : AssocReq) : Device := (d.deny a 1).raise 248 0

/-- The client takes up its association: a fresh context, its keys, the ASSIGN entry, the response, and GRANT
records for the grants that the response has no room for. -/
def Device.accept (d : Device) (a : AssocReq) (c : Nat) (links : List Nat) (grants : List DWord) (fit : Nat) : Device :=
  let e := d.newEpoch c
  let k := match grants with
    | g :: _ => gK g
    | [] => 0
  let lease := d.leaseDefault
  let later := (grants.drop fit).map fun g => (⟨1, beBytes 8 g.toNat ++ zeros 4⟩ : CtrlRec)
  let ctx : Client :=
    { Client.none_ with assoc := true, serial := a.serial, caps := a.caps, links := links, k := k, lease := lease, ctrl := later }
  let d := (d.onClient c fun _ => ctx).assocKeys c e (a.sf + 1)
  let d := d.spoolRoster 2 a.band c (links.headD 0) (beBytes 8 a.serial.toNat ++ beBytes 2 e ++ beBytes 4 a.caps.toNat)
  let d := d.mirrorNow mcRoster (.client c (d.client c) :: links.map fun h => .link h (d.linkOf h))
  d.respond a 0 c e lease grants

/-- A new client. The grants that the response carries enter the plan with it, the others as GRANT records name them (R94, R101). -/
def Device.acceptNew (d : Device) (a : AssocReq) : Device :=
  let bands := d.offered a.caps
  if !d.joinEn then d.full a
  else if !bands.any d.gatesOpen then d.deny a 3
  else
    let links := d.freeLinks bands.length
    -- link_order of a station's links is not given (log 2)
    let orders := if d.freeVal % 2 = 0 then [0, 1] else [1, 0]
    match d.freeId with
    | none => d.full a
    | some c =>
      if links.length < bands.length then d.full a
      else
        let rows := (bands.zip links).zip orders |>.map fun x => (x.1.1, x.1.2, if bands.length = 1 then 0 else x.2)
        let placed := if capStation a.caps then d.stnGrants c rows [] else d.tagGrants c (links.headD 0) a.caps
        match placed with
        | none => d.full a
        | some recs =>
          let grants := recs.map fun p => p.bits
          match d.assocGrants a.band grants.length with
          | none => d.raise 249 0
          | some fit =>
            if a.sf + 1 < d.boundary2ms then d.raise 249 0
            else
              let base := d.basePlan
              let d := rows.foldl (fun d x =>
                let t := d.bandTarget x.1
                d.onLink x.2.1 fun _ => ⟨true, c, x.1, x.2.2, t.1, t.2, false, 0⟩) d
              let d := d.freeNext.accept a c links grants fit
              d.commitAt (base ++ recs.take fit) (a.sf + 1)

/-- A serial that already holds a client ID: the same ID and grants (R102). A released client's grants come back into the plan. Where
not even a response without grants fits, Keeper returns what the client holds, with EV249 (R101); the reason that its RELEASE entry
names is open (log 2). -/
def Device.acceptAgain (d : Device) (a : AssocReq) (c : Nat) : Device :=
  let mine (l : List PlanRec) : List PlanRec := l.filter fun p => p.client == c
  let held := if (mine d.basePlan).isEmpty then mine d.lant.plan else mine d.basePlan
  let grants := held.map fun p => p.bits
  match d.assocGrants a.band grants.length with
  | none => (d.freeNext.release c (1 + d.freeVal % 3)).raise 249 0
  | some fit =>
    let back := (mine d.basePlan).isEmpty && !held.isEmpty
    let base := d.basePlan
    if back ∧ a.sf + 1 < d.boundary2ms then d.raise 249 0
    else
      let d := d.accept a c (d.client c).links grants fit
      if back then d.commitAt (base ++ held) (a.sf + 1) else d

/-- ASSOC_ANSWER: Keeper answers the oldest checked request. -/
def assocAnswer (d : Device) : Device :=
  match d.lant.assocReqs with
  | [] => d
  | a :: rest =>
    if !d.keeperUp || !d.cipherOpen then d
    else
      let d := d.onLant fun l => { l with assocReqs := rest }
      match d.rootOf a.serial with
      | none => (d.deny a 2).raise 174 0
      | some _ =>
        match d.lant.clients.find? fun x => x.2.assoc && x.2.serial == a.serial with
        | some (c, _) => d.acceptAgain a c
        | none => d.acceptNew a

/-! ## Meanings -/

/-- ASSOC_ANSWER (R336). -/
def execAssocAnswer (t : Time) (s : State) : Host.Outcome State Fault Refusal := s.act t assocAnswer

end Sys2Proof.Machine
end

