-- ==== Sys2Proof/Machine/EventsLog.lean ====
section
/-! DEFINITION. The event fabric's registers, the Log unit's commits and its scan, and ALERT_N (chapter 17). -/

namespace Sys2Proof.Machine

/-! ## The event fabric -/

/-- A write of `v` to KEEP_EV_PEND_i clears the pending bits written as 1 (R355). -/
def Events.clearPend (e : Events) (i : Nat) (v : Word) : Events :=
  { e with pending := e.pending &&& ~~~ (BitVec.setWidth 256 v <<< (32 * i)) }

/-- EV_PEND_CLEAR (R355). -/
def evPendClear (i : Fin 8) (v : Word) (d : Device) : Device :=
  d.keeperAccess (Reg.KEEP_EV_PEND i) fun d => let w := d.w1c (Reg.KEEP_EV_PEND i) v; d.onEv fun e => e.clearPend i w

/-- EV_OCC_READ: returns and clears the counter of the event in KEEP_EV_SEL (R354). -/
def evOccRead (d : Device) : Device :=
  d.keeperAccess Reg.KEEP_EV_OCC fun d =>
    let ev := d.cf Reg.KEEP_EV_SEL 7 0
    let x := d.takeInc ev (d.ev.occ.get 0 ev)
    ((d.emit (.data (w32 x.1))).onEv fun e => { e with occ := e.occ.set 0 ev (min 0xFFFF x.2) }).incRead ev

/-- EV_POP: the head entry leaves the queue (R357). -/
def evPop (d : Device) : Device :=
  d.keeperAccess Reg.KEEP_EV_POP Device.evDrop

/-- Queues one DEFERRED entry for each event of the mask, lowest first, with its counter (R358, R396) (log 49). -/
def Device.evDeferred (d : Device) : List Nat → Device
  | [] => d
  | ev :: rest => (d.evEntry ⟨d.stampNs, ev, 2, d.ev.occ.get 0 ev, 0⟩ true).evDeferred rest

/-- D1 leaves reset: group-0 raises kept in Mooring are queued once, as DEFERRED (R396). -/
def Device.evOpen (d : Device) : Device :=
  let l := bitsOf d.ev.defer 24
  (d.onEv fun e => { e with defer := 0 }).evDeferred l

/-- The pending bits that ALERT_N looks at, by power state (R359). -/
def Device.alertBits (d : Device) : BitVec 256 :=
  let groups023 : BitVec 256 := (BitVec.ofNat 256 (2 ^ 24 - 1)) ||| ((BitVec.ofNat 256 (2 ^ 48 - 1)) <<< 48)
  if d.pwr.st = 2 then d.ev.pending &&& d.ev.alertCopy &&& groups023
  else if d.pwr.st = 3 ∨ d.pwr.st = 4 then d.ev.pending &&& d.ev.alertCopy &&& BitVec.ofNat 256 (2 ^ 24 - 1)
  else (List.range 8).foldl (fun a i =>
    a ||| ((BitVec.setWidth 256 (d.cfg (Reg.KEEP_EV_ALERT i)) <<< (32 * i)) &&& d.ev.pending)) 0

/-- ALERT_N is driven low (R359): from D0 release until the D1 sections are applied, while an unmasked
event is pending, or while the ladder is halted. -/
def Device.alertLow (d : Device) : Bool :=
  d.start.powered && (d.start.alertInit || d.tender.halted || d.alertBits != 0)

/-! ## The Log unit -/

/-- The 256 bytes of a slot: seq filled in and the crc appended (Table 17.2). -/
def logRecord (r : LogRec) (seq : Word) : Bytes :=
  let b := splice r.bytes 4 (beBytes 4 seq.toNat)
  b ++ beBytes 4 (crc32c b)

/-- The sequence number after `s`: it wraps from 0xFFFF_FFFF to 1 and is never 0 (R360). -/
def seqAfter (s : Word) : Word := if s + 1 = 0 then 1 else s + 1

/-- Writes one record to the MRAM slot of its sequence number (R360). -/
def Log.store (l : Log) (r : LogRec) : Log :=
  { l with slots := l.slots.put (l.nextSeq.toNat % 8192) (logRecord r l.nextSeq), nextSeq := seqAfter l.nextSeq }

/-- A firmware record waits: KEEP_LOG_STATUS.busy (Table 17.12). -/
def Log.busy (l : Log) : Bool :=
  (l.cur.toList ++ l.exempt ++ l.wait ++ l.held.toList).any LogRec.fw

/-- The bytes of the KEEP_LOG_DATA buffer. -/
def Device.logBuffer (d : Device) : Bytes :=
  (List.range 64).flatMap fun i => beBytes 4 (d.cfg (Reg.KEEP_LOG_DATA i)).toNat

/-- LOG_COMMIT: a firmware record with kind from byte 3 and data from bytes 24 to 251 is requested; a
commit written while busy is ignored and sets error (R361). -/
def logCommit (d : Device) : Device :=
  d.keeperAccess Reg.KEEP_LOG_CMD fun d =>
    if d.log.busy then (d.onLog fun l => { l with error := true }).hwSet Reg.KEEP_LOG_STATUS 29
    else
      let b := d.logBuffer
      d.logReq (fieldAt b 3 1) (slice b 24 228) true

/-- LOG_COMMIT_DONE: the commit in progress is in the MRAM, and the next one starts (R361). -/
def logCommitDone (d : Device) : Device :=
  match d.log.cur with
  | none => d
  | some r => d.onLog fun l => Log.pump ({ l with cur := none }.store r)

/-- LOG_SECOND_END (R362) (log 94). -/
def logSecondEnd (d : Device) : Device := d.logSecond

/-- A slot's crc holds. -/
def slotOk (b : Bytes) : Bool := decide (fieldAt b 252 4 = crc32c (slice b 0 252))

/-- `a` is newer than `b` by comparison modulo 2^32 (R360). -/
def newerSeq (a b : Word) : Bool := decide ((a - b).toNat < 0x80000000) && a != b

/-- The scan over the slots that hold bytes: bad ones are counted and raise EV028, and the newest valid
sequence number is found (R360). -/
def Device.scanSlots (d : Device) (best : Option Word) : Tab Bytes → Device × Option Word
  | [] => (d, best)
  | (slot, b) :: rest =>
    if slotOk b then
      let s := w32 (fieldAt b 4 4)
      let best' := match best with
        | none => some s
        | some m => if newerSeq s m then some s else some m
      d.scanSlots best' rest
    else ((d.inc Reg.KEEP_LOG_BAD_CNT).raise 28 (w32 slot)).scanSlots best rest

/-- The scan when D1 loads; on a blank MRAM the next sequence number is 1 (R360). -/
def Device.logScan (d : Device) : Device :=
  let r := d.scanSlots none d.log.slots
  r.1.onLog fun l => { l with nextSeq := match r.2 with
    | none => 1
    | some m => seqAfter m }

/-! ## Meanings -/

/-- EV_PEND_CLEAR (R355). -/
def execEvPendClear (t : Time) (i : Fin 8) (v : Word) (s : State) : Host.Outcome State Fault Refusal :=
  s.act t (evPendClear i v)

/-- EV_OCC_READ (R354). -/
def execEvOccRead (t : Time) (s : State) : Host.Outcome State Fault Refusal := s.act t evOccRead

/-- EV_POP (R357). -/
def execEvPop (t : Time) (s : State) : Host.Outcome State Fault Refusal := s.act t evPop

/-- LOG_COMMIT (R361). -/
def execLogCommit (t : Time) (s : State) : Host.Outcome State Fault Refusal := s.act t logCommit

/-- LOG_COMMIT_DONE (R361). -/
def execLogCommitDone (t : Time) (s : State) : Host.Outcome State Fault Refusal := s.act t logCommitDone

/-- LOG_SECOND_END (R362). -/
def execLogSecondEnd (t : Time) (s : State) : Host.Outcome State Fault Refusal := s.act t logSecondEnd

end Sys2Proof.Machine
end

