-- ==== Sys2Proof/Machine/Plan.lean ====
section
/-! DEFINITION. Writes that a boundary makes effective: open maps, plan commits and profile switches, and the
profile's application at superframe C (R88, R93, R111 to R114). -/

namespace Sys2Proof.Machine

/-- LANT_OPEN_x. -/
def openReg (b : Band) : Nat :=
  match b with
  | .l => Reg.LANT_OPEN_L
  | .m => Reg.LANT_OPEN_M
  | .h => Reg.LANT_OPEN_H

/-- A write of an open map: effective at the first boundary at least 2 ms ahead; of several for one boundary the last. -/
def Device.openPut (d : Device) (b : Band) (v : Word) : Device :=
  let n := d.boundary2ms
  (d.setCfg (openReg b) v).onLant fun l => { l with openPend := l.openPend.set b ((l.openPend.get b).filter (fun x => x.2 != n) ++ [(v, n)]) }

/-- OPEN_MAP_WRITE. -/
def openMapWrite (b : Band) (v : Word) (d : Device) : Device := d.keeperAccess (openReg b) fun d => d.openPut b v

/-- The open maps of a boundary take effect and are mirrored. -/
def Device.openApply (d : Device) (sf : Nat) : Device :=
  [Band.l, Band.m, Band.h].foldl (fun d b =>
    let due := (d.lant.openPend.get b).filter fun x => decide (x.2 ≤ sf)
    match due.getLast? with
    | none => d
    | some (v, _) =>
      (d.onLant fun l =>
        { l with openMap := l.openMap.set b v, openPend := l.openPend.set b ((l.openPend.get b).filter fun x => decide (sf < x.2)) }).mirrorNow mcPlan [.openMap b v]) d

/-- A write of commit = 1 (R93) (log 89). -/
def Device.planGo (d : Device) (ahead : Nat) : Device :=
  let n := d.lampSf + max 1 ahead
  let late := decide (n * sfLen < d.lampHn + 2 * msec)
  let d := if late then (d.inc Reg.LANT_COMMIT_LATE_CNT).raise 49 0 else d
  d.commitAt d.lant.shadow (if late then n + 1 else n)

/-- PLAN_COMMIT. -/
def planCommit (sfAhead : BitVec 8) (d : Device) : Device :=
  d.keeperAccess Reg.LANT_PLAN_CMD fun d => d.planGo sfAhead.toNat

/-- A pending plan takes effect at its boundary. -/
def Device.planApply (d : Device) (sf : Nat) : Device :=
  match d.lant.commit with
  | some c =>
    if c.at_ ≤ sf then
      let d := d.onLant fun l => { l with plan := c.plan, shadow := c.plan, commit := none, version := (l.version + 1) % 65536 }
      d.mirrorNow mcPlan [.plan d.lant.plan d.lant.version]
    else d
  | none => d

/-! ## Profile switches -/

/-- The bands whose channel, classes, limits or sub-bands differ; restricted ranges are none of these (R111). -/
def Device.bandsChanged (d : Device) (p : Nat) : BitVec 3 :=
  [Band.l, Band.m, Band.h].foldl (fun w b => if ({ d.prof b with restr := [] } : ProfBand) = { d.profBandOf p b with restr := [] } then w else setBit w (bandNum b)) 0

/-- A request for profile `p` is refused: it is not valid, a switch is announced, or a start or a reload is under way
(R111, R282, R294). -/
def Device.profileRefused (d : Device) (p : Nat) : Bool :=
  !bitOf d.lant.validMask p || d.lant.switch_.isSome || d.start.stage != stageDone || decide (3 ≤ d.ll.stage)

/-- Announces profile `p` with countdown `c`, or refuses with EV054. -/
def Device.profileGo (d : Device) (p c : Nat) : Device :=
  if d.profileRefused p then d.raise 54 0
  else
    let at_ := d.lampSf + max 1 c + 1
    let bands := d.bandsChanged p
    let d := d.onLant fun l => { l with switch_ := some ⟨1, p, at_, bands⟩ }
    if d.mirrors then d.control (.profile p at_) else d

/-- PROFILE_SWITCH_GO. -/
def profileSwitchGo (p : Fin 16) (countdown : BitVec 6) (d : Device) : Device :=
  d.keeperAccess Reg.LANT_PROFILE_CMD fun d => d.profileGo p.val countdown.toNat

/-- PROFILE_SWITCH_CANCEL. -/
def profileSwitchCancel (d : Device) : Device :=
  d.keeperAccess Reg.LANT_PROFILE_CMD fun d =>
    match d.lant.switch_ with
    | some s => if s.phase = 1 ∧ d.lampHn < s.c * sfLen then d.onLant fun l => { l with switch_ := none } else d
    | none => d

/-! ## Meanings -/

/-- OPEN_MAP_WRITE (R88). -/
def execOpenMapWrite (t : Time) (b : Band) (v : Word) (s : State) : Host.Outcome State Fault Refusal := s.act t (openMapWrite b v)

/-- PLAN_COMMIT (R93). -/
def execPlanCommit (t : Time) (sfAhead : BitVec 8) (s : State) : Host.Outcome State Fault Refusal := s.act t (planCommit sfAhead)

/-- PROFILE_SWITCH_GO (R111). -/
def execProfileSwitchGo (t : Time) (p : Fin 16) (countdown : BitVec 6) (s : State) : Host.Outcome State Fault Refusal :=
  s.act t (profileSwitchGo p countdown)

/-- PROFILE_SWITCH_CANCEL (R114). -/
def execProfileSwitchCancel (t : Time) (s : State) : Host.Outcome State Fault Refusal := s.act t profileSwitchCancel

end Sys2Proof.Machine
end

