-- ==== Sys2Proof/Machine/Twin.lean ====
section
/-! DEFINITION. Twin operation: roles, heartbeat, lamp changes, the air check, and what a twin does with the records
that its peer mirrors (chapter 14). -/

namespace Sys2Proof.Machine

/-! ## Settings and roles (Tables 14.1, 14.2, 14.10) -/

/-- twin_en, hb_loss and start_wait. -/
def Device.twinEn (d : Device) : Bool := d.cb Reg.MOOR_TWIN_CTRL 31
def Device.hbLoss (d : Device) : Time := max 2 (min 500 (d.cf Reg.MOOR_TWIN_CTRL 24 16)) * msec
def Device.startWait (d : Device) : Time := max 1 (d.cf Reg.MOOR_TWIN_CTRL 15 8) * 100 * msec

/-- What TWIN_HB_OUT shows in a role (log 77). -/
def hbOf (role : Nat) : HbPattern :=
  match role with
  | 1 => .starting
  | 2 => .lit
  | 3 => .standby
  | 4 => .standby
  | _ => .off

/-- Half-period of a pattern, in µs; OFF has none (Table 14.2). -/
def hbHalf : HbPattern → Option Nat
  | .lit => some 250
  | .standby => some 500
  | .starting => some 1000
  | .yield => some 50
  | .off => none

/-- What the pin TWIN_HB_OUT toggles as now: YIELD for 2 ms, and then STARTING (R300). -/
def Device.hbPin (d : Device) : HbPattern :=
  if d.twin.hbOut = .yield ∧ d.twin.yieldAt + 2 * msec ≤ d.clk.now then .starting else d.twin.hbOut

/-- The pattern of three half-periods, in half ns: each within ±20 % of one value of Table 14.2 (R300). -/
def hbClass (h1 h2 h3 : Time) : Option HbPattern :=
  let near (us h : Nat) : Bool := decide (us * usec * 4 ≤ h * 5 ∧ h * 5 ≤ us * usec * 6)
  [HbPattern.lit, .standby, .starting, .yield].find? fun p => (hbHalf p).any fun us => near us h1 && near us h2 && near us h3

/-- A KEEPALIVE frame has passed its checks within hb_loss (link_ok). -/
def Device.keepOk (d : Device) : Bool :=
  match d.twin.keepAt with
  | some t => decide (d.clk.now ≤ t + d.hbLoss)
  | none => false

/-- Every note of the superframe in hand whose window has opened is void: a twin serves only what opens while it is
lit (R299, R308) (log 76). -/
def Device.voidNotes (d : Device) (all : Bool) : Device :=
  d.onLant fun l =>
    { l with notes := l.notes.map fun n => if all || decide ((d.grantWindow n.plan n.sf).1 ≤ d.lampHn) then { n with void := true } else n }

/-- Takes a role: the pin shows it, the gate of Table 13.4 follows it, the time domains are selected anew (R232), and
the peer is told. -/
def Device.setRole (d : Device) (r : Nat) : Device :=
  let d := d.onTwin fun t => { t with role := r, hbOut := hbOf r, yielding := false, takeAt := none, handover := none }
  let d := (d.voidNotes (r != 2 && r != 0)).reselect false
  d.gateWatch.control (.role r)

/-- The air check starts at the next boundary (R312) (log 76). -/
def Device.airStart (d : Device) : Device :=
  d.onTwin fun t => { t with airCheck := true, airHeard := false, silentSf := 0, silentRun := 0, checkFrom := d.lampSf + 1 }

/-- Becomes STANDBY, and starts in RESYNC (R306, R309). -/
def Device.becomeStandby (d : Device) : Device :=
  let d := d.onTwin fun t => { t with airCheck := false, wasLit := false }
  ((d.setRole 3).raise 13 0).enterResync

/-- Becomes LIT: a standby, once there is one, is brought up anew. -/
def Device.becomeLit (d : Device) : Device :=
  let d := (d.onTwin fun t => { t with sync := 0, airCheck := false, wasLit := false }).setRole 2
  if d.twin.peerRole = 3 ∧ d.lanes.rng.st = 2 then (d.onTwin fun t => { t with sync := 1 }).resyncCopies else d

/-- Becomes ISOLATED and checks the air (R311). -/
def Device.becomeIsolated (d : Device) (wasLit : Bool) : Device :=
  ((d.setRole 4).raise 15 0).airStart.onTwin fun t => { t with wasLit := wasLit }

/-- A stale twin lights: every client is released, as at the end of a lease (R312) (log 75). -/
def Device.staleLight (d : Device) : Device :=
  let d := (d.lant.clients.map Prod.fst).foldl (fun d c => d.release c 0) d
  let d := d.onTwin fun t => { t with mirrorStale := false, lastTrigger := 7 }
  let d := (d.onLant fun l => { l with lampChangeAt := some (d.lampSf + 1) }).becomeLit
  (d.inc Reg.MOOR_LAMP_CHANGE_CNT).raise 12 0

/-- What the peer reports of its role (R298). -/
def Device.peerReports (d : Device) (x : Nat) : Device :=
  let was := d.twin.peerRole
  let d := d.onTwin fun t => { t with peerRole := x }
  if d.twin.role = 1 then
    if x = 2 then d.becomeStandby
    else if x = 3 ∨ x = 4 then d.becomeLit
    else d
  else if d.twin.role = 2 ∧ x = 3 ∧ was ≠ 3 ∧ d.lanes.rng.st = 2 then (d.onTwin fun t => { t with sync := 1 }).resyncCopies
  else d

/-- D9 has reached READY after a start (R298) (log 76). -/
def Device.twinStart (d : Device) : Device :=
  let senior := bitOf d.start.straps 1
  let d := d.onTwin fun t =>
    { t with senior := senior, peerRole := 0, peerSenior := false, keepAt := none, pinsOk := false, conflict := false, syncedOnce := false, sync := 0, spoolBehind := false, startedAt := d.clk.now, lastHb := d.clk.now, lost := false, wasLit := false, airCheck := false, silentSf := 0, silentRun := 0, lastTx := [] }
  if d.twinEn then
    let d := d.setRole 1
    if !senior || d.twin.mirrorStale then d.airStart else d
  else d.setRole 0

/-- START_WAIT_EXPIRY: a senior twin whose mirror is not stale, with no peer reporting LIT. -/
def startWaitExpiry (d : Device) : Device :=
  if d.twin.role = 1 ∧ d.twin.senior ∧ d.twin.peerRole ≠ 2 ∧ !d.twin.mirrorStale ∧ d.twin.startedAt + d.startWait ≤ d.clk.now then d.becomeLit
  else d

/-! ## Lamp changes (R307 to R309) -/

/-- Domains D2 to D7 in one of some states. -/
def Device.servingAll (d : Device) (ok : Nat → Bool) : Bool := [2, 3, 4, 5, 6, 7].all fun n => ok (d.domSt n)

/-- The conditions of R307 but for the domains. -/
def Device.mayTake (d : Device) : Bool :=
  d.twin.syncedOnce && !d.twin.mirrorStale && (d.ll.twinMatch || d.cb Reg.KEEP_LL_AGREE 31)

/-- A trigger is refused. -/
def Device.refuseTake (d : Device) : Device := ((d.onTwin fun t => { t with takeAt := none }).control .refuse).raise 16 0

/-- A trigger of Table 14.5: the twin becomes LIT at an instant, or refuses; a domain that is RELOADING is waited for
(log 75). -/
def Device.trigger (d : Device) (at_ : Time) (code : Nat) : Device :=
  if d.mayTake && d.servingAll (fun s => s == 3 || s == 4) then d.onTwin fun t => { t with takeAt := some (at_, code) }
  else d.refuseTake

/-- Counters, usage and windows jump (R308). -/
def Device.jump (d : Device) : Device :=
  let keys := d.ciph.keys.map Prod.fst
  let step (d : Device) (e : Nat) : Device :=
    let c := e / 2
    let s := e % 2
    let d := d.onKey c s fun k => { k with usage := max k.usage (min d.keyLimit (k.usage + 33554432)) }
    let d := d.keyWatch e
    (d.client c).links.foldl (fun d h =>
      let d := d.onRwin h s fun w => { w with tx := min 0xFFFFFFFF (w.tx + 65536) }
      if 0xFFFF0000 ≤ (d.rwin h s).tx then d.keyAnnounced e else d) d
  keys.foldl step d

/-- Becomes LIT by a lamp change (log 75). -/
def Device.takeOver (d : Device) (code : Nat) : Device :=
  let d := d.jump.onTwin fun t => { t with lastTrigger := code, silentSf := if code = 4 then 3 else t.silentSf }
  let d := (d.onLant fun l => { l with lampChangeAt := some (d.lampSf + 1) }).becomeLit
  let d := (d.inc Reg.MOOR_LAMP_CHANGE_CNT).raise 12 0
  if code = 1 ∨ code = 2 then d.control .accept else d

/-- LAMP_CHANGE: at the trigger's time. A trigger waits while a named domain reloads (log 75). -/
def lampChange (d : Device) : Device :=
  match d.twin.takeAt with
  | none => d
  | some (at_, code) =>
    if d.clk.now < at_ then d
    else if d.twin.role ≠ 3 ∧ d.twin.role ≠ 4 ∧ d.twin.role ≠ 1 then d.onTwin fun t => { t with takeAt := none }
    else if code = 4 ∧ d.twin.airHeard then d.onTwin fun t => { t with takeAt := none }
    else if d.twin.role = 4 ∧ d.twin.wasLit ∧ code = 4 then d.takeOver code
    else if d.servingAll (fun s => s == 3) && d.mayTake then d.takeOver code
    else if d.servingAll (fun s => s == 3 || s == 4) && d.mayTake then d
    else d.refuseTake

/-- The lit twin names boundary H: at least so many boundaries and 4 ms away, and one at a time (R307, R314). -/
def Device.nameHandover (d : Device) (ahead : Nat) : Device :=
  if d.twin.handover.isSome then d
  else if !d.twinPresent || d.lanes.rng.st ≠ 2 || d.twin.yielding then d.raise 16 0
  else
    let n := d.lampSf + max 1 ahead
    let h := if n * sfLen < d.lampHn + 4 * msec then n + 1 else n
    (d.onTwin fun t => { t with handover := some h }).control (.handover h)

/-- A write of handover = 1. -/
def Device.handoverGo (d : Device) (ahead : Nat) : Device :=
  if d.twin.role = 2 then d.nameHandover ahead
  else if d.twin.role = 3 ∧ d.lanes.rng.st = 2 then d.control (.handoverReq ahead)
  else if d.twin.role = 0 then d
  else d.raise 16 0

/-- HANDOVER_CMD. -/
def handoverCmd (sfAhead : BitVec 8) (d : Device) : Device :=
  d.keeperAccess Reg.MOOR_TWIN_CMD fun d => d.handoverGo sfAhead.toNat

/-- A write of force = 1. -/
def Device.forceGo (d : Device) : Device :=
  if d.twin.role = 3 ∨ d.twin.role = 4 then d.trigger (d.clk.now + msec) 5 else d

/-- FORCE_CMD. -/
def forceCmd (d : Device) : Device := d.keeperAccess Reg.MOOR_TWIN_CMD fun d => d.forceGo

/-- HANDOVER_BOUNDARY: at H − 1 ms the lit twin deasserts PA_EN and stops serving. -/
def handoverBoundary (d : Device) : Device :=
  match d.twin.handover with
  | some h =>
    if d.twin.role = 2 ∧ h * sfLen ≤ d.lampHn + msec then ((d.onTwin fun t => { t with yielding := true }).voidNotes true).gateWatch
    else d
  | none => d

/-- Drives YIELD: PA_EN is deasserted at once, and a pending HANDOVER gives way (R309, R314). -/
def Device.sendYield (d : Device) : Device :=
  if d.twin.role ≠ 2 then d
  else
    let d := (d.onTwin fun t => { t with hbOut := .yield, yieldAt := d.clk.now, yielding := true, handover := none }).voidNotes true
    (d.control .yield_).gateWatch

/-- YIELD received, on CONTROL or on the pin; the first receipt counts. -/
def Device.yieldSeen (d : Device) : Device :=
  let again := match d.twin.takeAt with
    | some (_, c) => c == 2
    | none => false
  if d.twin.role = 3 ∧ again = false then d.trigger (d.clk.now + msec) 2 else d

/-- ACCEPT received: STARTING, and from there as R298 has it (log 75). -/
def Device.accepted (d : Device) : Device :=
  if d.twin.role = 2 ∧ (d.twin.yielding ∨ d.twin.handover.isSome) then
    let d := (d.onTwin fun t => { t with startedAt := d.clk.now }).setRole 1
    d.peerReports d.twin.peerRole
  else d

/-- REFUSE received: to a HANDOVER, the twin stays LIT; after a YIELD it proceeds regardless. -/
def Device.refused (d : Device) : Device :=
  if d.twin.handover.isSome then (d.onTwin fun t => { t with handover := none, yielding := false }) else d

/-! ## Heartbeat (R300, R302, R311, R313) -/

/-- HB_PATTERN_CLASSIFY: three half-periods have passed between edges of TWIN_HB_IN. A pattern conveys the peer's role where no
KEEPALIVE does; that of STANDBY is that of ISOLATED too: which of the two it is, is open (log 77). -/
def hbPatternClassify (h1 h2 h3 : Time) (d : Device) : Device :=
  let p := hbClass h1 h2 h3
  let d := d.onTwin fun t => { t with pinsOk := p.isSome, lastHb := d.clk.now }
  match p with
  | some .yield => d.yieldSeen
  | some .lit => if d.keepOk then d else d.peerReports 2
  | some .starting => if d.keepOk then d else d.peerReports 1
  | some .standby =>
    if d.keepOk ∨ d.twin.peerRole = 3 ∨ d.twin.peerRole = 4 then d
    else (d.freeNext).peerReports (if d.freeVal % 2 = 0 then 3 else 4)
  | _ => d

/-- HEARTBEAT_LOSS. A pending HANDOVER is void (R314). -/
def heartbeatLoss (d : Device) : Device :=
  if !d.twinEn || d.twin.lost || d.twin.role = 0 || decide (d.clk.now < d.twin.lastHb + d.hbLoss) then d
  else
    let void := d.twin.handover.isSome
    let d := d.onTwin fun t => { t with lost := true, pinsOk := false, keepAt := none, handover := none, yielding := t.yielding && !void, takeAt := match t.takeAt with
      | some (_, 1) => none
      | x => x }
    let d := (d.inc Reg.MOOR_TWIN_HB_LOSS_CNT).raise 14 0
    match d.twin.role, d.twin.senior with
    | 2, false => d.becomeIsolated true
    | 3, true => d.trigger (d.clk.now + msec) 3
    | 3, false => d.becomeIsolated false
    | _, _ => d

/-- HEARTBEAT_RETURN. -/
def heartbeatReturn (d : Device) : Device :=
  if !d.twin.lost || decide (d.twin.lastHb + d.hbLoss ≤ d.clk.now) then d
  else
    let d := d.onTwin fun t => { t with lost := false, takeAt := match t.takeAt with
      | some (_, 3) => none
      | some (_, 4) => none
      | x => x }
    if d.twin.role = 4 ∨ (d.twin.role = 2 ∧ d.twin.peerRole = 2 ∧ !d.twin.senior) then
      (d.onTwin fun t => { t with lastTrigger := 6 }).becomeStandby
    else d

/-! ## The air check at a boundary (R298, R312) -/

/-- The superframe that ends here was silent or not. -/
def Device.airStep (d : Device) (sf : Nat) : Device :=
  let t := d.twin
  let d := d.onTwin fun t => { t with airHeard := false }
  if !t.airCheck ∨ sf ≤ t.checkFrom then d
  else if t.airHeard then d.onTwin fun t => { t with mirrorStale := true, silentSf := 0, silentRun := 0, takeAt := none }
  else
    let d := d.onTwin fun t => { t with silentSf := min 3 (t.silentSf + 1), silentRun := t.silentRun + 1 }
    if t.role = 4 ∧ !t.mirrorStale ∧ d.twin.silentSf = 2 then
      let at_ := d.devAt ((sf + 1) * sfLen) - msec
      if t.wasLit then d.onTwin fun t => { t with takeAt := some (at_, 4) } else d.trigger at_ 4
    else if t.role = 1 ∧ d.twin.silentSf = 3 ∧ t.peerRole ≠ 2 then (if t.mirrorStale then d.staleLight else if t.senior then d else d.becomeLit)
    else if t.role = 4 ∧ t.mirrorStale ∧ 64 ≤ d.twin.silentRun then d.staleLight
    else d

/-! ## KEEPALIVE received (R297, R301, Table 14.3) -/

/-- Seniority, by the straps, and by the serials where those agree. -/
def Device.seniority (d : Device) (peer : Bool) (serial : DWord) : Device :=
  let own := bitOf d.start.straps 1
  let was := d.twin.conflict
  let d := d.onTwin fun t =>
    { t with peerSenior := peer, peerSerial := serial, conflict := own == peer, senior := if own = peer then decide (d.otp.serial.toNat < serial.toNat) else own }
  if own = peer ∧ !was then d.raise 19 0 else d

/-- The content of a KEEPALIVE frame whose tag has been checked. -/
def Device.keepRx (d : Device) (p : Bytes) : Device :=
  let nonce : DWord := BitVec.ofNat 64 (fieldAt p 16 8)
  let flags : BitVec 8 := BitVec.ofNat 8 (fieldAt p 1 1)
  let fresh := !d.lanes.rng.peerKnown || d.lanes.rng.peerNonce != nonce
  let d := d.onRng fun r => { r with peerKnown := true, peerNonce := nonce }
  let d := d.onTwin fun t => { t with lastHb := d.clk.now, keepAt := some d.clk.now }
  let d := d.onLL fun l => { l with twinChar := BitVec.ofNat 64 (fieldAt p 8 8), twinNow := true }
  let d := d.seniority (bitOf flags 7) (BitVec.ofNat 64 (fieldAt p 24 8))
  let was := d.twin.peerRole
  let d := d.peerReports (fieldAt p 0 1 % 8)
  let d := if fresh then [0, 1, 2, 3, 4, 5].foldl (fun d ch => d.mirrorPump ch 256) d else d
  if d.twin.role = 2 ∧ d.twin.peerRole = 3 then
    if fresh ∧ was = 3 then (d.onTwin fun t => { t with sync := 1 }).resyncCopies
    else if bitOf flags 6 then d.onTwin fun t => { t with sync := 2 }
    else if d.twin.sync = 2 then ((d.onTwin fun t => { t with sync := 1 }).raise 18 0).resyncCopies
    else d
  else d

/-! ## Mirrored records (R305, R306) -/

/-- A mirrored slot whose keys the standby has not derived yet. -/
def KeyEntry.underived (k : KeyEntry) : Bool := k.st != .empty && k.kMac == 0 && k.kEnc == 0

/-- The engine derives, from the standby's own root table, the keys of the mirrored slots of a client that it holds; each then takes
the state and usage mirrored (R146, R305). -/
def Device.mirrorKeys (d : Device) (c : Nat) : Device :=
  if !(d.client c).assoc then d
  else [0, 1].foldl (fun d s =>
    let k := d.key c s
    if k.underived then (d.onKey c s fun _ => KeyEntry.empty).kdfGo c s k.epoch (.mirrored k.st k.usage) else d) d

/-- A mirrored slot whose derivation is under way. -/
def derivesTo (c s epoch : Nat) (j : Job) : Bool :=
  match j.kind with
  | .derive c' s' e' (.mirrored _ _) => c' == c && s' == s && e' == epoch
  | _ => false

/-- A mirrored key slot: keys are derived for CURRENT and NEXT; a RETIRING slot that was not held is not taken. -/
def Device.mirrorKey (d : Device) (c s : Nat) (st : KeySt) (epoch usage : Nat) (encReq : Bool) : Device :=
  let coming := (d.ciph.jobs ++ d.ciph.waiting).any (derivesTo c s epoch)
  let held := (d.key c s).st != .empty && (d.key c s).epoch == epoch
  if coming then
    let set (j : Job) : Job := if derivesTo c s epoch j then { j with kind := .derive c s epoch (.mirrored st usage) } else j
    d.onCiph fun k => { k with jobs := k.jobs.map set, waiting := k.waiting.map set }
  else if st = .empty ∨ (st = .retiring ∧ !held) then d.onKey c s fun _ => KeyEntry.empty
  else if held then (d.onKey c s fun k => { k with st := st, usage := usage, encReq := encReq }).keyWatch (2 * c + s)
  else (d.onKey c s fun _ => ⟨st, 0, 0, epoch, usage, encReq, false⟩).mirrorKeys c

/-- A mirrored spool entry: written at its own index, and its counter applied to the link's replay window. -/
def Device.mirrorSpool (d : Device) (i : Nat) (e : Bytes) : Device :=
  let d := (d.spoolWriteAt i e).onKeep fun k => { k with wr := max k.wr (i + 1) }
  let kind := fieldAt e 16 1 / 32
  let c := fieldAt e 12 2 % 8192
  let h := fieldAt e 14 2 % 8192
  if kind = 0 then
    match d.slotIn c .current with
    | some s => if (d.rwin h s).passes (fieldAt e 8 4) then d.onRwin h s fun w => w.take (fieldAt e 8 4) else d
    | none => d
  else d

/-- The entries that lie in a 1 MiB block of the spool, each under its latest index. -/
def Device.spoolOf (d : Device) (block : Nat) : List MirRec :=
  let lo := block * 0x100000 / 72
  let hi := ((block + 1) * 0x100000 - 1) / 72
  (((List.range (hi + 1 - lo)).map fun i => lo + i).filter fun p => decide (p < min d.keep.wr spoolSize)).map fun p =>
    let i := p + spoolSize * ((d.keep.wr - 1 - p) / spoolSize)
    .spool i (readBytes d.mem.bytes (spoolAddr i) 68)

/-- The copy of a channel is complete. IN_SYNC when every channel but SPOOL is. -/
def Device.copyDone (d : Device) (ch : Nat) : Device :=
  if ch = mcSpool then
    let n := d.twin.spoolLeft - 1
    d.onTwin fun t => { t with spoolLeft := n, spoolBehind := t.spoolBehind && decide (0 < n) }
  else
    let d := d.onMirror ch fun c => { c with done := true }
    if d.twin.sync = 1 ∧ [0, 1, 2, 3, 4].all (fun i => (d.mirror i).done) then
      (d.onTwin fun t => { t with sync := 2, syncedOnce := true, mirrorStale := false }).raise 17 0
    else d

/-- What a standby does with a record of mirrored state. -/
def Device.standbyApply (d : Device) (ch : Nat) (r : MirRec) : Device :=
  match r with
  | .done => d.copyDone ch
  | .resync => if d.twin.sync = 2 then d.enterResync else d
  | .profile p c => d.onLant fun l => { l with switch_ := some ⟨1, p, c, d.bandsChanged p⟩ }
  | .client c k => (d.onClient c fun _ => k).mirrorKeys c
  | .link h l => d.onLink h fun _ => l
  | .key c s st epoch usage encReq => d.mirrorKey c s st epoch usage encReq
  | .counter h s w => d.onRwin h s fun _ => w
  | .plan l v => d.onLant fun x => { x with plan := l, shadow := l, version := v }
  | .commit c => d.onLant fun x => { x with commit := some c }
  | .openMap b w => (d.setCfg (openReg b) w).onLant fun l => { l with openMap := l.openMap.set b w }
  | .depth n => d.setDepth n
  | .spool i e => d.mirrorSpool i e
  | .spoolPos wr fwd chain => d.onKeep fun k => { k with wr := max k.wr wr, fwd := fwd, chain := chain, sendNext := fwd, unacked := [] }
  | .spoolSum i crc =>
    if d.spoolBlock i = crc then d
    else (d.onTwin fun t => { t with spoolLeft := t.spoolLeft + 1 }).mirrorQueue mcSpool [.spoolWant i]
  | _ => d

/-- What a twin does with a record of CONTROL that concerns the pair, and with a request for a spool block; a
LADDER_REQ is Tender's (log 30). -/
def Device.mirrorApply (d : Device) (ch : Nat) (r : MirRec) : Device :=
  match r with
  | .role x => d.peerReports x
  | .handoverReq n => if d.twin.role = 2 then d.nameHandover n else d
  | .handover h => if d.twin.role = 3 then d.trigger (d.devAt (h * sfLen) - msec) 1 else d
  | .yield_ => d.yieldSeen
  | .accept => d.accepted
  | .refuse => d.refused
  | .spoolWant i => if d.twin.role = 2 then d.mirrorQueue mcSpool (d.spoolOf i ++ [.done]) else d
  | r => if d.twin.role = 3 then d.standbyApply ch r else d

/-! ## Meanings -/

/-- START_WAIT_EXPIRY (R298). -/
def execStartWaitExpiry (t : Time) (s : State) : Host.Outcome State Fault Refusal := s.act t startWaitExpiry

/-- HB_PATTERN_CLASSIFY (R300). -/
def execHbPatternClassify (t : Time) (h1 h2 h3 : Time) (s : State) : Host.Outcome State Fault Refusal :=
  s.act t (hbPatternClassify h1 h2 h3)

/-- HEARTBEAT_LOSS (R302, R311). -/
def execHeartbeatLoss (t : Time) (s : State) : Host.Outcome State Fault Refusal := s.act t heartbeatLoss

/-- HEARTBEAT_RETURN (R313). -/
def execHeartbeatReturn (t : Time) (s : State) : Host.Outcome State Fault Refusal := s.act t heartbeatReturn

/-- HANDOVER_CMD (R307). -/
def execHandoverCmd (t : Time) (sfAhead : BitVec 8) (s : State) : Host.Outcome State Fault Refusal := s.act t (handoverCmd sfAhead)

/-- FORCE_CMD (R307). -/
def execForceCmd (t : Time) (s : State) : Host.Outcome State Fault Refusal := s.act t forceCmd

/-- LAMP_CHANGE (R308). -/
def execLampChange (t : Time) (s : State) : Host.Outcome State Fault Refusal := s.act t lampChange

/-- HANDOVER_BOUNDARY (R309). -/
def execHandoverBoundary (t : Time) (s : State) : Host.Outcome State Fault Refusal := s.act t handoverBoundary

end Sys2Proof.Machine
end

