-- ==== Sys2Proof/Machine/Ladder.lean ====
section
/-! DEFINITION. The recovery ladder's instances: what starts them, which step comes next, and when one has recovered
(R365 to R370). -/

namespace Sys2Proof.Machine

/-! ## Watches (Table 17.12) -/

def Device.watchOn (d : Device) (w : Nat) : Bool := d.cb (Reg.MOOR_WATCH_CFG w) 31
def Device.watchDom (d : Device) (w : Nat) : Nat := if d.cf (Reg.MOOR_WATCH_CFG w) 27 24 = 0 then 1 else d.cf (Reg.MOOR_WATCH_CFG w) 27 24
def Device.watchFirst (d : Device) (w : Nat) : Nat := d.cf (Reg.MOOR_WATCH_CFG w) 21 20 + 1
def Device.watchRetry (d : Device) (w : Nat) : Time := max 1 (d.cf (Reg.MOOR_WATCH_CFG w) 19 12) * 10 * msec
def Device.watchPeriod (d : Device) (w : Nat) : Time := max 1 (d.cf (Reg.MOOR_WATCH_CFG w) 11 0) * 10 * msec
def Device.watch (d : Device) (w : Nat) : Watch := d.tender.watches.get Watch.reset w
def Device.onWatch (d : Device) (w : Nat) (f : Watch → Watch) : Device :=
  d.onTender fun t => { t with watches := t.watches.upd Watch.reset w f }

/-- The enabled watches of a domain. -/
def Device.watchesOf (d : Device) (n : Nat) : List Nat := (List.range 16).filter fun w => d.watchOn w && d.watchDom w == n

/-- Watches pause until the stage is DONE, all of them while the ladder is halted, and those of D1 while a core is
halted by debug (R365, R368). -/
def Device.watchPaused (d : Device) (w : Nat) : Bool :=
  d.start.stage != stageDone || d.pwr.st != 0 || d.tender.halted || (d.watchDom w == 1 && d.dbg.cores.any fun c => c.2.halted)

/-- A watch starts its period anew. -/
def Device.watchFresh (d : Device) (w : Nat) : Device := d.onWatch w fun _ => ⟨d.clk.now, false, false, 0⟩

/-- The halt of the ladder ends, if there is one: the watches that it disabled start their periods (R368) (log 70). -/
def Device.haltEnd (d : Device) : Device :=
  if d.tender.halted then ((List.range 16).foldl Device.watchFresh d).onTender fun t => { t with halted := false } else d

/-! ## Instances -/

/-- The instance of a domain. -/
def Device.ladderOf (d : Device) (n : Nat) : Option Ladder := d.tender.ladders.find? fun l => l.dom == n

/-- Puts an instance in the place of its domain's. -/
def Device.ladderPut (d : Device) (l : Ladder) : Device :=
  d.onTender fun t => { t with ladders := t.ladders.filter (fun x => x.dom != l.dom) ++ [l] }

/-- Runs of a step without a request in the last 3,600 s. -/
def recentRuns (l : List Time) (now : Time) : Nat := (l.filter fun t => decide (now < t + 3600 * sec)).length

/-- MOOR_LADDER_STATUS (log 70). -/
def Device.ladderStatus (d : Device) : Word :=
  let t := d.tender
  w32 (b2n (!t.ladders.isEmpty) * 0x80000000 + b2n t.halted * 0x40000000 + t.lastDom * 0x1000000 + t.lastStep * 0x100000
    + t.lastTrigger * 0x10000 + t.lastWatch * 0x1000 + t.lastResult)

/-- The ladder halts (R368). -/
def Device.ladderHalt (d : Device) : Device :=
  (d.onTender fun t => { t with ladders := [], halted := true, lastResult := 3 }).raise 23 0

/-- The head of the loop of R367: the step to run, YIELD before step 3 or 4 of a lit twin, or the halt. -/
def Device.ladderPlan (d : Device) (l : Ladder) : Device :=
  let s := if !l.requested ∧ l.step = 3 ∧ 3 ≤ recentRuns d.tender.runs3 d.clk.now then 4 else l.step
  if !l.requested ∧ s = 4 ∧ 3 ≤ recentRuns d.tender.runs4 d.clk.now then d.ladderHalt
  else
    let d := d.ladderPut { l with step := s, running := false, since := d.clk.now, ready := none }
    if 3 ≤ s then d.sendYield else d

/-- A watch's expiry or a FAULT starts the ladder of its domain, or joins its instance (R370). -/
def Device.ladderStart (d : Device) (n : Nat) (w : Option Nat) (step trigger : Nat) : Device :=
  if d.tender.halted || (d.ladderOf n).isSome then d
  else d.ladderPlan ⟨n, w, step, trigger, false, d.clk.now, false, none⟩

/-- A requested step (R369, R370); none where it is refused. -/
def Device.ladderAsk (d : Device) (trigger n step : Nat) : Option Device :=
  let known := decide (1 ≤ n ∧ n ≤ 9 ∧ 1 ≤ step ∧ step ≤ 4)
  let above := match d.ladderOf n with
    | some l => decide (l.step < step)
    | none => true
  if !known || !above || (d.domSt n == 2 && step != 4) then none
  else
    let w := (d.ladderOf n).bind fun l => l.watch
    some (d.haltEnd.ladderPlan ⟨n, w, step, trigger, false, d.clk.now, true, none⟩)

/-- The end of a halt (R368). -/
def Device.haltClear (d : Device) : Device := d.haltEnd

/-- A domain enters FAULT: the ladder takes it at step 2 once the stage is DONE (R290, R366). -/
def Device.domFault (d : Device) (n : Nat) : Device :=
  let d := d.onDom n fun x => { x with st := 5, reloadPending := false }
  if d.start.stage = stageDone ∧ d.pwr.st = 0 then d.ladderStart n none 2 2
  else d.onTender fun t => { t with faultWait := insertNat t.faultWait n }

/-! ## Recovery -/

/-- An instance has recovered (Table 17.5). -/
def Device.ladderDone (d : Device) (l : Ladder) : Bool :=
  let kickedIn (w : Nat) (from_ to_ : Time) : Bool := decide (from_ ≤ (d.watch w).kicked ∧ (d.watch w).kicked ≤ to_)
  if !l.running then false
  else if l.step = 1 then
    (match l.watch with
    | some w => kickedIn w l.since d.clk.now
    | none => !(d.watchesOf l.dom).isEmpty && (d.watchesOf l.dom).all fun w => kickedIn w l.since d.clk.now)
  else match l.ready with
    | none => false
    | some r => match l.watch with
      | none => true
      | some w => kickedIn w r (r + d.watchPeriod w)

/-- Instances that have recovered end. -/
def Device.ladderReap (d : Device) : Device :=
  if d.tender.ladders.any d.ladderDone then
    d.onTender fun t => { t with ladders := t.ladders.filter (fun l => !d.ladderDone l), lastResult := 1 }
  else d

/-- A domain is READY after step 2. -/
def Device.ladderReady (d : Device) (n : Nat) : Device :=
  (d.onTender fun t =>
    { t with ladders := t.ladders.map fun l => if l.dom = n ∧ l.running ∧ l.step = 2 then { l with ready := some d.clk.now } else l }).ladderReap

/-- The stage is DONE: watches start their periods, steps 3 and 4 see their domain READY or not, and faults that
waited start the ladder (R365, R366). -/
def Device.ladderStage (d : Device) : Device :=
  let d := (List.range 16).foldl Device.watchFresh d
  let d := d.onTender fun t =>
    { t with ladders := t.ladders.map fun l => if l.running ∧ 3 ≤ l.step ∧ d.domSt l.dom = 3 then { l with ready := some d.clk.now } else l }
  let d := d.ladderReap
  let wait := d.tender.faultWait
  let d := d.onTender fun t => { t with faultWait := [] }
  wait.foldl (fun d n => if d.domSt n = 5 then d.ladderStart n none 2 2 else d) d

end Sys2Proof.Machine
end

