-- ==== Sys2Proof/Machine/Lanes.lean ====
section
/-! DEFINITION. Lanes and the Range link: Ethernet frames and links, bring-up, frames by type and channel, idle, test
loops, timestamps and time exchanges (chapters 9, 10, 14). -/

namespace Sys2Proof.Machine

/-! ## Lanes (Table 9.9, R212, R220) -/

def Device.lane (d : Device) (n : Nat) : Lane := d.lanes.lanes.get Lane.reset n
def Device.onLane (d : Device) (n : Nat) (f : Lane → Lane) : Device :=
  d.onLanes fun l => { l with lanes := l.lanes.upd Lane.reset n f }

/-- The taps in use for given ones: main is reduced, and has its least value (R212). -/
def tapsUsed (w : Word) : Word :=
  let pre := fld w 19 16
  let post := fld w 4 0
  let main := if 63 < pre + fld w 13 8 + post then 63 - pre - post else fld w 13 8
  w32 (pre * 65536 + max 16 main * 256 + post)

/-- A lane runs a loop, a generator or a checker, out of service. -/
def Device.laneTest (d : Device) (n : Nat) : Bool := d.cf (Reg.LANE_TEST n) 31 26 != 0

/-- test_rate; codes above 4 act as OFF. -/
def Device.testRate (d : Device) (n : Nat) : Nat := let r := d.cf (Reg.LANE_CFG n) 26 24; if r ≤ 4 then r else 0

/-- The loop code of a lane, and the sequence its generator and its checker run (Tables 9.4, 9.9). -/
def Device.laneLoop (d : Device) (n : Nat) : Nat := d.cf (Reg.LANE_TEST n) 31 30
def Device.laneGen (d : Device) (n : Nat) : Nat := d.cf (Reg.LANE_TEST n) 29 28
def Device.laneChk (d : Device) (n : Nat) : Nat := d.cf (Reg.LANE_TEST n) 27 26

/-- The lane's output reaches its own receiver. -/
def Device.nearLoop (d : Device) (n : Nat) : Bool := d.laneLoop n == 1 || d.laneLoop n == 2

/-- A lane takes a rate; a lane powered down shows no signal (Table 9.2). -/
def Lane.setRate (rate : Nat) (l : Lane) : Lane :=
  if rate = 0 then { l with rate := 0, sig := false, cdr := false, block := false, hiBer := false, hiSince := none }
  else { l with rate := rate }

/-! ## Ethernet ports (R209, R211) -/

def Device.ethEn (d : Device) (e : Nat) : Bool := d.cb (Reg.LANE_ETH_CFG e) 31
def Device.maxFrame (d : Device) (e : Nat) : Nat := max 1518 (min 9022 (d.cf (Reg.LANE_ETH_CFG e) 13 0))

/-- What a lane's transmit pair carries: in a near loop electrical idle, in a far loop what it receives, else the generator's
sequence; an Ethernet port answers a local fault by remote fault and a remote fault by idle (R211, Table 9.4). -/
def Device.laneTx (d : Device) (n : Nat) : LaneTx :=
  if (d.lane n).rate = 0 || d.nearLoop n then .electricalIdle
  else if d.laneLoop n = 3 then .looped
  else if d.laneGen n ≠ 0 then .prbs (d.laneGen n)
  else if n < 6 then
    let p := d.ethPort n
    if p.localFault then .remoteFault else if p.remoteFault || !p.linkUp then .idle else .frames
  else if d.lanes.rng.txIdle then .electricalIdle
  else .frames

/-- A transmit pair is inverted by tx_inv (R207). -/
def Device.txInv (d : Device) (n : Nat) : Bool := d.cb (Reg.LANE_CFG n) 30
def Device.rxInv (d : Device) (n : Nat) : Bool := d.cb (Reg.LANE_CFG n) 29

/-- A change, and what each lane's transmit pair carries from then on where that differs. -/
def Device.shown (d : Device) (f : Device → Device) : Device :=
  (List.range 8).foldl (fun x n => if (f d).laneTx n = d.laneTx n then x else x.emit (.lane n ((f d).laneTx n) ((f d).txInv n))) (f d)

/-- link_up takes a value: a change is an event, a fall is counted. -/
def Device.setLink (d : Device) (e : Nat) (up : Bool) : Device :=
  let was := (d.ethPort e).linkUp
  let d := d.onLanes fun l => { l with eth := l.eth.upd Eth.reset e fun p => { p with linkUp := up } }
  if was = up then d
  else
    let d := if was then d.inc (Reg.LANE_ETH_LINK_DOWN_CNT e) else d
    d.raise 216 0

/-- A received event message is timestamped at the first bit after the SFD, which the frame, its FCS and a lane's
latency precede (R224, R225) (log 17). -/
def Device.stampRx (d : Device) (e : Nat) (data : Bytes) : Device :=
  match ptpEvent data with
  | some (mt, seq) =>
    let dur := (rdiv (8 * (data.length + 4) * 2000 * 33) (d.portRate33 (e + 3))).toNat
    d.tsPush ⟨false, e, d.laneStamp e (d.ethRate e) false (d.lampHn - dur), mt, seq⟩
  | none => d

/-- ETH_FRAME_RX: the frame's bytes, FCS included, at the instant its last bit has arrived (log 17, 100). -/
def ethFrameRx (e : Fin 6) (data : Bytes) (d : Device) : Device :=
  let n := e.val
  let b := data.take (data.length - 4)
  if d.domSt 9 ≠ 3 ∨ !(d.ethPort n).linkUp then d
  else if data.length < 4 ∨ data.drop (data.length - 4) ≠ fcsBytes b then d.inc (Reg.LANE_ETH_RX_FCS_CNT n)
  else if data.length < 64 then d.inc (Reg.LANE_ETH_RX_RUNT_CNT n)
  else if d.maxFrame n < data.length then d.inc (Reg.LANE_ETH_RX_OVERSIZE_CNT n)
  else if fieldAt b 12 2 = 0x8808 then d.inc (Reg.LANE_ETH_RX_MACCTL_CNT n)
  else if d.domSt 6 = 4 then d.inc Reg.KEEP_LL_RELOAD_DISC_CNT
  else ((d.inc (Reg.LANE_ETH_RX_OK_CNT n)).stampRx n b).ingressPush (Pkt.fresh (n + 3) b)

/-- LINK_UP_CHANGE: what the PCS and the fault signalling now show. link_up needs 1 ms since the last fault ordered set; a
signal behind a block lock is present, and without one its detection is open (log 16, 72). -/
def linkUpChange (e : Fin 6) (blockLock hiBer localFault remoteFault : Bool) (d : Device) : Device :=
  let n := e.val
  if d.domSt 9 ≠ 3 then d
  else d.shown fun d =>
    let f := d.freeVal
    let d := d.freeNext
    let d := d.onLane n fun l => { l with sig := blockLock || f % 2 == 1, cdr := blockLock || f / 2 % 2 == 1, block := blockLock, hiBer := hiBer }
    let p := d.ethPort n
    let last := if localFault || remoteFault || p.localFault || p.remoteFault then some d.clk.now else p.faultAt
    let d := d.onLanes fun l => { l with eth := l.eth.upd Eth.reset n fun p => { p with localFault := localFault, remoteFault := remoteFault, faultAt := last } }
    let quiet := match last with
      | some t => decide (t + msec ≤ d.clk.now)
      | none => true
    d.setLink n (d.ethEn n && blockLock && !hiBer && quiet && !d.laneTest n)

/-! ## The Range link: bring-up (R213, R215 to R218) -/

def Device.rngLanes (d : Device) : Nat := min 2 (d.cf Reg.LANE_RNG_CTRL 31 30)
def Device.rngMax (d : Device) : Nat := let m := d.cf Reg.LANE_RNG_CTRL 26 24; if 1 ≤ m ∧ m ≤ 4 then m else 4

/-- A configured lane is in a loop. -/
def Device.rngTest (d : Device) : Bool := (d.laneTest 6 && decide (1 ≤ d.rngLanes)) || (d.laneTest 7 && decide (d.rngLanes = 2))

/-- The lanes of the link run at a rate. -/
def Device.rngRate (d : Device) (rate : Nat) : Device :=
  let d := if d.lanes.rng.lane6 then d.onLane 6 (Lane.setRate rate) else d
  if d.lanes.rng.lane7 then d.onLane 7 (Lane.setRate rate) else d

/-- Lanes 6 and 7 take taps. -/
def Device.rngTaps (d : Device) (t6 t7 : Word) : Device :=
  (d.onLane 6 fun l => { l with taps := tapsUsed t6 }).onLane 7 fun l => { l with taps := tapsUsed t7 }

/-- Lanes 6 and 7 take the taps of LANE_CFG, with which each training step starts (R212). -/
def Device.rngTaps0 (d : Device) : Device := d.rngTaps (d.cfg (Reg.LANE_CFG 6)) (d.cfg (Reg.LANE_CFG 7))

/-- The link and its lanes are off. -/
def Device.rngOff (d : Device) : Device :=
  let d := (d.settleRng.rngRate 0).rngTaps0
  d.onRng fun r => { r with st := 0, lane6 := false, lane7 := false, rate := 0, step := 0, txIdle := false, checkedAt := none, ready := false, checkFrom := none, peer := none, closing := false, clean := false, peerKnown := false }

/-- The changes of taps that a TRAIN frame asks for: the adaptation is not given (log 31) (log 16). -/
def trainAsk (f : Nat) : Int × Int × Int := ((f % 16 : Nat) - 8, (f / 16 % 16 : Nat) - 8, (f / 256 % 16 : Nat) - 8)

/-- Sends a TRAIN frame with this end's lane map, state, requests and result (R215); one frame stands for those that an
end repeats (log 72). -/
def Device.trainSend (d : Device) (result : Option Bool) : Device :=
  let r := d.lanes.rng
  d.rngSend rtTrain 0 (Config.trainEncode ⟨r.lane6, r.lane7, r.ready, result, trainAsk d.freeVal, trainAsk (d.freeVal / 4096)⟩)

/-- Bring-up starts, with the configured lanes at R1G25 and the taps of LANE_CFG (log 72). -/
def Device.bringStart (d : Device) : Device :=
  if d.rngLanes = 0 || d.rngTest then d.rngOff
  else
    let d := d.settleRng.onRng fun r =>
      { r with st := 1, lane6 := true, lane7 := decide (d.rngLanes = 2), rate := 1, step := 1, clean := false, checkedAt := none, ready := false, checkFrom := none, peer := none, closing := false, since := d.clk.now, txIdle := false, peerKnown := false }
    ((d.rngTaps0.rngRate 1).inc Reg.LANE_RNG_RETRAIN_CNT).trainSend none

/-- Bring-up has failed: a wait of 100 ms begins. -/
def Device.rngFail (d : Device) : Device :=
  let d := d.settleRng.rngRate 0
  d.onRng fun r => { r with st := 3, lane6 := false, lane7 := false, rate := 0, step := 0, checkedAt := none, ready := false, checkFrom := none, peer := none, since := d.clk.now }

/-- The link leaves UP: what is in flight is discarded, and the twin-source domains lose their source. -/
def Device.rngLeave (d : Device) : Device :=
  if d.lanes.rng.st ≠ 2 then d
  else
    let d := d.settleRng
    let d := match (d.egressOf portRng).busy with
      | some (n, x) => ((d.settle (pqKey portRng n)).onEgress portRng fun _ => Egress.idle).freeCells x
      | none => d
    let d := (d.onTime fun t => { t with t1 := none }).onRng fun r => { r with st := 0, peerKnown := false }
    let d := [RefDom.a, RefDom.b].foldl (fun d x => if d.refSrc x = 4 then d.refLoss x else d) d
    d.raise 218 0

/-- The link goes down and bring-up starts. -/
def Device.rngDown (d : Device) : Device := if d.lanes.rng.st = 2 then d.rngLeave.bringStart else d

/-- The link is UP at the kept rate: sessions, channels and sequence numbers start anew (log 73). -/
def Device.rngUp (d : Device) : Device :=
  let nonce : DWord := BitVec.ofNat 64 d.freeVal
  let locked (l : Lane) : Lane := { l with sig := true, cdr := true, block := true, hiBer := false, hiSince := none }
  let d := if d.lanes.rng.lane6 then d.onLane 6 locked else d
  let d := if d.lanes.rng.lane7 then d.onLane 7 locked else d
  let d := d.settleRng.freeNext.onRng fun r =>
    { r with st := 2, step := 0, checkedAt := none, ready := false, checkFrom := none, peer := none, closing := false, since := d.clk.now, txIdle := false, lastTx := d.clk.now, lastKeep := d.clk.now, nonce := nonce, peerNonce := 0, peerKnown := false, seqs := [], mirror := [] }
  let d := (d.rngRate d.lanes.rng.rate).raise 217 0
  let full := d.lanes.rng.rate == d.rngMax && (b2n d.lanes.rng.lane6 + b2n d.lanes.rng.lane7 == d.rngLanes)
  let d := if full then d else d.raise 219 0
  if d.twin.role = 3 then d.enterResync else d

/-- RNG_BRINGUP_START: a link that is off, in domain READY, starts (log 72). -/
def rngBringupStart (d : Device) : Device := if d.domSt 9 = 3 ∧ d.lanes.rng.st = 0 then d.shown Device.bringStart else d

/-- RNG_TRAIN_TIMEOUT: both ends have not reported READY_TO_TEST within 100 ms. -/
def rngTrainTimeout (d : Device) : Device :=
  let r := d.lanes.rng
  if r.st = 1 ∧ r.step = 1 ∧ r.checkFrom = none ∧ r.since + 100 * msec ≤ d.clk.now then d.shown Device.rngFail else d

/-- RNG_RETRY_EXPIRY. -/
def rngRetryExpiry (d : Device) : Device :=
  if d.lanes.rng.st = 3 ∧ d.lanes.rng.since + 100 * msec ≤ d.clk.now then d.shown Device.bringStart else d

/-- A checker's counts over checked bits (R221); how LANE_PRBS_BITS goes on past its 48 bits is open (log 16, 72). -/
def Device.prbsCount (d : Device) (n errs bits : Nat) : Device :=
  let total := (d.lane n).bits + bits
  let f := d.freeVal
  let d := (d.addCnt (Reg.LANE_PRBS_ERR_CNT n) errs 0xFFFFFFFF).onLane n fun l => { l with bits := if total < 2 ^ 48 then total else f % 2 ^ 48 }
  if total < 2 ^ 48 then d else d.freeNext

/-- The time of a check of 2^24 bits at a rate, in half ns. -/
def checkTime (rate : Nat) : Time := 16777216 * 64000 / laneRate33 rate

/-- When the check of the step in hand may end: from the second step the taps adapt for 1 ms before it (R215). -/
def Rng.checkDue (r : Rng) : Option Time :=
  r.checkFrom.map fun t => t + (if r.step = 1 then 0 else msec) + checkTime r.step

/-- RNG_CHECK_END: a check has run its 2^24 bits; at R1G25 lanes with errors leave the link. TRAIN frames carry the result
(R216, R217). -/
def rngCheckEnd (errs6 errs7 : Nat) (d : Device) : Device :=
  let r := d.lanes.rng
  let due := match r.checkDue with
    | some t => decide (t ≤ d.clk.now)
    | none => false
  if r.st ≠ 1 ∨ r.checkedAt.isSome ∨ !due then d
  else d.shown fun d =>
    let d := if r.lane6 then d.prbsCount 6 errs6 16777216 else d
    let d := if r.lane7 then d.prbsCount 7 errs7 16777216 else d
    let bad6 := r.lane6 && decide (0 < errs6)
    let bad7 := r.lane7 && decide (0 < errs7)
    if r.step = 1 then
      let d := if bad6 then d.onLane 6 (Lane.setRate 0) else d
      let d := if bad7 then d.onLane 7 (Lane.setRate 0) else d
      let d := d.onRng fun r => { r with lane6 := r.lane6 && !bad6, lane7 := r.lane7 && !bad7, clean := true, checkedAt := some d.clk.now }
      if d.lanes.rng.lane6 || d.lanes.rng.lane7 then d.trainSend (some true) else d.rngFail
    else (d.onRng fun r => { r with clean := !bad6 && !bad7, checkedAt := some d.clk.now }).trainSend (some (!bad6 && !bad7))

/-- The next step of bring-up: another rate, whose lanes start from the taps of LANE_CFG and then adapt, or UP (R212). -/
def Device.rngNext (d : Device) : Device :=
  let r := d.lanes.rng
  if r.rate < d.rngMax then
    let d := d.onRng fun r => { r with step := r.rate + 1, clean := false, checkedAt := none, checkFrom := some d.clk.now, peer := none }
    (d.rngTaps0.rngRate (r.rate + 1)).trainSend none
  else d.rngUp

/-- RNG_STEP_RESULT: 100 µs after the check's end the step is kept, or the end returns to the last kept rate and its taps
and exchanges TRAIN frames there. At R1G25 the lanes stay that both ends hold in the link (R216, R217) (log 72). -/
def rngStepResult (d : Device) : Device :=
  let r := d.lanes.rng
  match r.checkedAt with
  | none => d
  | some t =>
    if r.st ≠ 1 ∨ d.clk.now < t + 100 * usec then d
    else d.shown fun d =>
      let keep (d : Device) : Device := (d.onRng fun r => { r with rate := r.step, kept6 := (d.lane 6).taps, kept7 := (d.lane 7).taps }).rngNext
      if r.step = 1 then
        let far6 := match r.peer with | some m => m.lane6 | none => true
        let far7 := match r.peer with | some m => m.lane7 | none => true
        let d := if far6 then d else d.onLane 6 (Lane.setRate 0)
        let d := if far7 then d else d.onLane 7 (Lane.setRate 0)
        let d := d.settleRng.onRng fun r => { r with lane6 := r.lane6 && far6, lane7 := r.lane7 && far7 }
        if d.lanes.rng.lane6 || d.lanes.rng.lane7 then keep d else d.rngFail
      else if r.clean ∧ r.peer.bind Train.result = some true then keep d.settleRng
      else (((d.rngTaps r.kept6 r.kept7).rngRate r.rate).trainSend none).rngUp.onRng fun r => { r with closing := true }

/-- A tap field changed by a request, within its field. -/
def tapAsk (x : Nat) (by_ : Int) (top : Nat) : Nat := (max 0 (min (top : Int) (x + by_))).toNat

/-- The taps in use after a request of the far end (R215). -/
def tapsAsked (w : Word) (a : Int × Int × Int) : Word :=
  tapsUsed (w32 (tapAsk (fld w 19 16) a.1 15 * 65536 + tapAsk (fld w 13 8) a.2.1 63 * 256 + tapAsk (fld w 4 0) a.2.2 31))

/-- A TRAIN frame in bring-up: the exchange before the first check, the requests of the 1 ms of adaptation, or the far end's
result within 100 µs of the check's end (R215, R216) (log 72). -/
def Device.trainRx (d : Device) (m : Train) : Device :=
  let r := d.lanes.rng
  match r.checkedAt, r.checkFrom with
  | some t, _ => if d.clk.now ≤ t + 100 * usec ∧ m.result.isSome then d.onRng fun r => { r with peer := some m } else d
  | none, none =>
    let d := if r.ready then d else (d.onRng fun r => { r with ready := true }).trainSend none
    if m.ready then d.onRng fun r => { r with checkFrom := some d.clk.now } else d
  | none, some t =>
    if r.step = 1 ∨ t + msec ≤ d.clk.now then d
    else
      let d := if r.lane6 then d.onLane 6 fun l => { l with taps := tapsAsked l.taps m.ask6 } else d
      if r.lane7 then d.onLane 7 fun l => { l with taps := tapsAsked l.taps m.ask7 } else d

/-- What the PCS of a Range lane now shows. -/
def Device.laneSees (d : Device) (n : Nat) (block hiBer : Bool) : Device :=
  d.onLane n fun l =>
    if l.rate = 0 then l
    else { l with sig := l.sig || block, cdr := l.cdr || block, block := block, hiBer := hiBer, hiSince := if hiBer then some (l.hiSince.getD d.clk.now) else none }

/-- A lane in use has lost block lock, or has shown hi_ber for more than 64 µs (R218) (log 72). -/
def Device.laneLost (d : Device) (n : Nat) : Bool :=
  !(d.lane n).block || (match (d.lane n).hiSince with
    | some t => decide (t + 64 * usec < d.clk.now)
    | none => false)

/-- RNG_LINK_DOWN: block lock and hi_ber of lanes 6 and 7 as they now are. -/
def rngLinkDown (block6 hiBer6 block7 hiBer7 : Bool) (d : Device) : Device :=
  if d.domSt 9 ≠ 3 then d
  else
    let d := (d.laneSees 6 block6 hiBer6).laneSees 7 block7 hiBer7
    if (d.lanes.rng.lane6 && d.laneLost 6) || (d.lanes.rng.lane7 && d.laneLost 7) then d.shown Device.rngDown else d

/-- A write of retrain: ignored while a bring-up runs (log 72). -/
def Device.retrain (d : Device) : Device :=
  if d.lanes.rng.st = 2 then d.rngDown else if d.lanes.rng.st = 1 ∨ d.domSt 9 ≠ 3 then d else d.bringStart

/-- RNG_RETRAIN_CMD. -/
def rngRetrainCmd (d : Device) : Device := d.keeperAccess Reg.LANE_RNG_CMD fun d => d.shown Device.retrain

/-! ## Idle, keepalive and retransmission (R219, R301, R304) -/

def Device.idleGap (d : Device) : Nat := d.cf Reg.LANE_RNG_CTRL 15 0

/-- A queue of the Range link holds a frame. -/
def Device.rngWaits (d : Device) : Bool := (List.range 8).any fun n => !(d.queue (pqKey portRng n)).pkts.isEmpty

/-- RNG_IDLE_ENTRY: idle_gap has passed with no frame to send (log 73). -/
def rngIdleEntry (d : Device) : Device :=
  if d.lanes.rng.st = 2 ∧ d.idleGap ≠ 0 ∧ d.lanes.rng.lastTx + d.idleGap * usec ≤ d.clk.now ∧ (d.egressOf portRng).busy.isNone ∧ d.rngWaits = false then
    d.shown fun d => d.onRng fun r => { r with txIdle := true }
  else d

/-- KEEPALIVE_TIMER: 1 ms after the last KEEPALIVE frame. -/
def keepaliveTimer (d : Device) : Device := if d.lanes.rng.lastKeep + msec ≤ d.clk.now then d.keepSend mcControl else d

/-- MIRROR_RETX_TIMEOUT: everything unacknowledged goes again, from the oldest. -/
def mirrorRetxTimeout (ch : Fin 6) (d : Device) : Device :=
  let c := d.mirror ch.val
  if !d.mirrorOpen || c.unacked.isEmpty || decide (d.clk.now < c.sentAt + 200 * usec) then d
  else
    let d := (d.inc Reg.LANE_RNG_RETX_CNT).onMirror ch.val fun c => { c with sentAt := d.clk.now }
    c.unacked.foldl (fun d f => d.mirrorEmit ch.val f) d

/-! ## Frames received (R214, R303, R304) -/

/-- An acknowledgement of a MIRROR channel: everything up to that frame is delivered. -/
def Device.ackTake (d : Device) (ch a : Nat) : Device :=
  if (d.mirror ch).unacked.any fun f => f.seq == a then
    (d.onMirror ch fun c =>
      { c with unacked := (c.unacked.dropWhile fun f => f.seq != a).drop 1, sentAt := d.clk.now }).mirrorPump ch 256
  else d

/-- A record in order: a LADDER_REQ is Tender's (R369), the rest the pair's. -/
def Device.mirrorTake (d : Device) (ch : Nat) (payload : Bytes) : Device :=
  match Config.mirrorDecode payload with
  | some (.ladder n step) => (d.ladderAsk 4 n step).getD d
  | some r => d.mirrorApply ch r
  | none => d

/-- A MIRROR frame: its tag is over the receiver's nonce; it is taken in order, and acknowledged. -/
def Device.mirrorRx (d : Device) (ch seq ack : Nat) (p : Bytes) : Device :=
  let body := p.take (p.length - 8)
  let ok := match d.pairKey with
    | some k => decide (8 ≤ p.length ∧ ch < 6) && mirrorTag k d.lanes.rng.nonce ch p.length seq body == p.drop (p.length - 8)
    | none => false
  if !ok then d.inc Reg.LANE_RNG_CRC_CNT
  else
    let d := (d.onTwin fun t => { t with lastHb := d.clk.now }).ackTake ch ack
    let d := if seq = (d.mirror ch).rxNext then
        (d.onMirror ch fun c => { c with rxNext := (c.rxNext + 1) % 4294967296 }).mirrorTake ch body
      else d
    d.keepSend ch

/-- A KEEPALIVE frame: its tag is keyed to the sender's nonce, which it carries (log 74). -/
def Device.keepFrame (d : Device) (ch ack : Nat) (p : Bytes) : Device :=
  let ok := match d.pairKey with
    | some k => p.length == 40 && tag8 k (p.take 32) == p.drop 32
    | none => false
  if ok then (d.ackTake ch ack).keepRx p else d.inc Reg.LANE_RNG_CRC_CNT

/-- The lamp time of a TIME frame's first bit, sent or received now (Table 10.1) (log 90). -/
def Device.rngStamp (d : Device) (sent : Bool) : Nat := d.laneStamp 6 d.lanes.rng.rate sent d.lampHn

/-- A TIME frame: a request is answered with t2 and t3, and an answer measures o (R229) (log 31). -/
def Device.timeRx (d : Device) (p : Bytes) : Device :=
  match Config.timeDecode p with
  | some (1, _, _) => d.rngSend rtTime 0 (Config.timeEncode 2 (d.rngStamp false) (d.rngStamp true))
  | some (2, t2, t3) =>
    match d.time.t1 with
    | none => d
    | some t1 =>
      let t4 := d.rngStamp false
      let o : Int := ((t2 : Int) - t1) - ((t4 : Int) - t3)
      let d := d.onTime fun t => { t with t1 := none }
      [RefDom.a, RefDom.b].foldl (fun d x => if d.refSrc x = 4 then d.measure x o else d) d
  | _ => d

/-- RNG_FRAME_RX: the CRC, and then by type and channel. -/
def rngFrameRx (data : Bytes) (d : Device) : Device :=
  let n := data.length
  let ty := fieldAt data 0 1
  let ch := fieldAt data 1 1
  let seq := fieldAt data 4 4
  let p := (data.drop 8).take (n - 16)
  let ack := fieldAt data (n - 8) 4
  if d.domSt 9 ≠ 3 ∨ d.lanes.rng.st = 0 ∨ d.lanes.rng.st = 3 then d
  else if n < 16 ∨ fieldAt data 2 2 ≠ n - 16 ∨ 9216 < n - 16 ∨ fieldAt data (n - 4) 4 ≠ crc32c (data.take (n - 4)) then d.inc Reg.LANE_RNG_CRC_CNT
  else if d.lanes.rng.st = 1 then
    (if ty = rtTrain then (match Config.trainDecode p with
      | some m => d.trainRx m
      | none => d) else d)
  else if ty = rtTrain then
    (if d.lanes.rng.closing then d.onRng fun r => { r with closing := false } else d.shown Device.rngDown)
  else if ty = rtData then
    (if ch < 8 then (d.ackTake ch ack).ingressPush (Pkt.fresh portRng p) else d)
  else if ty = rtMirror then d.mirrorRx ch seq ack p
  else if ty = rtTime then (d.ackTake ch ack).timeRx p
  else if ty = rtKeep then d.keepFrame ch ack p
  else d

/-- TIME_EXCHANGE_TIMER: 62.5 ms after the last one's, a TIME frame leaves at t1 (log 31). -/
def timeExchangeTimer (d : Device) : Device :=
  let due := match d.lanes.rng.lastTime with
    | some t => decide (t + 62500 * usec ≤ d.clk.now)
    | none => true
  if d.lanes.rng.st ≠ 2 ∨ d.domDown 2 ∨ !due then d
  else
    let t1 := d.rngStamp true
    ((d.onTime fun t => { t with t1 := some t1 }).onRng fun r => { r with lastTime := some d.clk.now }).rngSend rtTime 0 (Config.timeEncode 1 t1 0)

/-! ## Tests of a lane (R220, R221) -/

/-- What a write to LANE_TEST does to the lane's service: the lane runs at test_rate while it is tested, and a lane of the
Range link ends the link, or the bring-up it is in (R220, R221) (log 16). -/
def Device.laneTestGo (d : Device) (n : Nat) (v : Word) : Device :=
  d.shown fun d =>
    let seed := d.freeVal % 2147483647 + 1
    let d := ((d.setCfg (Reg.LANE_TEST n) (v &&& 0xFC000000)).onLane n fun l =>
      { l with chkSync := false, run := 0, errs := 0, chk := 0, gen := BitVec.ofNat 31 seed }).freeNext
    if n < 6 then
      let rate := if d.laneTest n then d.testRate n else if d.ethEn n then d.ethRate n else 0
      let d := d.onLane n (Lane.setRate rate)
      if d.laneTest n then d.setLink n false else d
    else
      let r := d.lanes.rng
      let used := (n == 6 && r.lane6) || (n == 7 && r.lane7)
      let d := if (d.rngTest ∧ r.st ≠ 0) ∨ (r.st = 1 ∧ used) then d.rngLeave.rngOff else d
      let d := d.onLane n fun l => if d.laneTest n then l.setRate (d.testRate n) else if d.lanes.rng.st = 0 ∨ !used then l.setRate 0 else l
      if d.lanes.rng.st = 0 ∧ d.domSt 9 = 3 ∧ !d.laneTest n then d.bringStart else d

/-- LANE_TEST_WRITE. -/
def laneTestWrite (lane : Fin 8) (v : Word) (d : Device) : Device :=
  d.keeperAccess (Reg.LANE_TEST lane.val) fun d => d.laneTestGo lane.val v

/-- The delays whose bits a PRBS sequence adds (R221). -/
def prbsTaps (k : Nat) : Nat × Nat := if k = 1 then (6, 5) else if k = 2 then (14, 13) else (30, 27)

/-- The next bit of a sequence, from its last 31 bits, the newest bit 0. -/
def prbsBit (k : Nat) (reg : BitVec 31) : Bool := reg.getLsbD (prbsTaps k).1 != reg.getLsbD (prbsTaps k).2

/-- A register with one more bit. -/
def prbsShift (reg : BitVec 31) (b : Bool) : BitVec 31 := reg <<< 1 ||| BitVec.ofNat 31 (b2n b)

/-- One received bit at a checker: before sync it follows what it receives, and after sync the sequence itself (log 72). -/
def Lane.check (k : Nat) (l : Lane) (b : Bool) : Lane × Nat × Nat :=
  let want := prbsBit k l.chk
  let bad := b != want
  if l.chkSync then
    let e := l.errs <<< 1 ||| BitVec.ofNat 64 (b2n bad)
    let lost := decide (16 ≤ ((List.range 64).filter fun i => e.getLsbD i).length)
    ({ l with chk := prbsShift l.chk want, errs := if lost then 0 else e, chkSync := !lost, run := 0 }, b2n bad, 1)
  else
    let run := if bad then 0 else l.run + 1
    ({ l with chk := prbsShift l.chk b, run := if run = 64 then 0 else run, chkSync := decide (run = 64), errs := 0 }, 0, 0)

/-- A checker takes bits: the lane after them, the errors and the bits counted. -/
def Lane.checkAll (k : Nat) (l : Lane) : List Bool → Lane × Nat × Nat
  | [] => (l, 0, 0)
  | b :: r =>
    let x := l.check k b
    let y := x.1.checkAll k r
    (y.1, x.2.1 + y.2.1, x.2.2 + y.2.2)

/-- So many bits of a generator, and its register after them. -/
def prbsRun (k : Nat) (reg : BitVec 31) : Nat → List Bool × BitVec 31
  | 0 => ([], reg)
  | n + 1 =>
    let b := prbsBit k reg
    let x := prbsRun k (prbsShift reg b) n
    (b :: x.1, x.2)

/-- PRBS_CHECKER_SYNC: the bits that have come to the lane's receive pair, or in a near loop as many of its own generator,
pass through an enabled checker, which gains or loses sync and counts (log 72). -/
def prbsCheckerSync (lane : Fin 8) (bits : List Bool) (d : Device) : Device :=
  let n := lane.val
  if d.laneChk n = 0 ∨ d.domSt 9 ≠ 3 then d
  else
    let own := prbsRun (d.laneGen n) (d.lane n).gen bits.length
    let near := d.nearLoop n && d.laneGen n != 0
    let x := (d.lane n).checkAll (d.laneChk n) (if near then own.1 else bits.map fun b => b != d.rxInv n)
    (d.onLane n fun _ => { x.1 with gen := if d.laneGen n = 0 then x.1.gen else own.2 }).prbsCount n x.2.1 x.2.2

/-! ## The timestamp FIFO (R225, Table 10.8) -/

/-- TS_POP. -/
def tsPop (d : Device) : Device :=
  d.keeperAccess Reg.LANE_TS_POP fun d =>
    match d.lanes.ts with
    | [] => d.emit (.data 0)
    | x :: r =>
      let ns := x.stamp / 2
      let d := d.onLanes fun l => { l with ts := r, tsLo := w32 ns, tsHi := w32 (ns / 4294967296) }
      d.emit (.data (w32 (0x80000000 + b2n x.sent * 0x40000000 + x.port * 0x8000000 + x.stamp % 2 * 0x4000000 + x.msgType * 0x400000 + x.tag % 65536)))

/-! ## D9 in and out of service (R215, R222) -/

/-- D9 has reached READY: enabled ports run at their speed, and the Range link's bring-up starts. -/
def Device.lanesReady (d : Device) : Device :=
  d.shown fun d =>
  let d := (List.range 6).foldl (fun d e =>
    let rate := if d.laneTest e then d.testRate e else if d.ethEn e then d.ethRate e else 0
    d.onLane e fun l => { (l.setRate rate) with taps := tapsUsed (d.cfg (Reg.LANE_CFG e)) }) d
  if d.lanes.rng.st = 0 then d.bringStart else d

/-- Every lane is out of service for a reload of D9. -/
def Device.lanesHold (d : Device) : Device :=
  d.shown fun d =>
  let d := (List.range 6).foldl (fun d e => (d.setLink e false).onLane e (Lane.setRate 0)) d
  d.rngLeave.rngOff

/-! ## Meanings -/

/-- ETH_FRAME_RX (R209). -/
def execEthFrameRx (t : Time) (e : Fin 6) (data : Bytes) (s : State) : Host.Outcome State Fault Refusal :=
  s.act t (ethFrameRx e data)

/-- LINK_UP_CHANGE (R211). -/
def execLinkUpChange (t : Time) (e : Fin 6) (blockLock hiBer localFault remoteFault : Bool) (s : State) : Host.Outcome State Fault Refusal :=
  s.act t (linkUpChange e blockLock hiBer localFault remoteFault)

/-- RNG_BRINGUP_START (R215). -/
def execRngBringupStart (t : Time) (s : State) : Host.Outcome State Fault Refusal := s.act t rngBringupStart

/-- RNG_TRAIN_TIMEOUT (R217). -/
def execRngTrainTimeout (t : Time) (s : State) : Host.Outcome State Fault Refusal := s.act t rngTrainTimeout

/-- RNG_CHECK_END (R216, R217). -/
def execRngCheckEnd (t : Time) (errs6 errs7 : Nat) (s : State) : Host.Outcome State Fault Refusal := s.act t (rngCheckEnd errs6 errs7)

/-- RNG_STEP_RESULT (R216). -/
def execRngStepResult (t : Time) (s : State) : Host.Outcome State Fault Refusal := s.act t rngStepResult

/-- RNG_RETRY_EXPIRY (R217). -/
def execRngRetryExpiry (t : Time) (s : State) : Host.Outcome State Fault Refusal := s.act t rngRetryExpiry

/-- RNG_LINK_DOWN (R218). -/
def execRngLinkDown (t : Time) (block6 hiBer6 block7 hiBer7 : Bool) (s : State) : Host.Outcome State Fault Refusal :=
  s.act t (rngLinkDown block6 hiBer6 block7 hiBer7)

/-- RNG_RETRAIN_CMD (R218). -/
def execRngRetrainCmd (t : Time) (s : State) : Host.Outcome State Fault Refusal := s.act t rngRetrainCmd

/-- RNG_FRAME_RX (R214). -/
def execRngFrameRx (t : Time) (data : Bytes) (s : State) : Host.Outcome State Fault Refusal := s.act t (rngFrameRx data)

/-- RNG_IDLE_ENTRY (R219). -/
def execRngIdleEntry (t : Time) (s : State) : Host.Outcome State Fault Refusal := s.act t rngIdleEntry

/-- KEEPALIVE_TIMER (R301). -/
def execKeepaliveTimer (t : Time) (s : State) : Host.Outcome State Fault Refusal := s.act t keepaliveTimer

/-- MIRROR_RETX_TIMEOUT (R304). -/
def execMirrorRetxTimeout (t : Time) (ch : Fin 6) (s : State) : Host.Outcome State Fault Refusal := s.act t (mirrorRetxTimeout ch)

/-- LANE_TEST_WRITE (R220). -/
def execLaneTestWrite (t : Time) (lane : Fin 8) (v : Word) (s : State) : Host.Outcome State Fault Refusal := s.act t (laneTestWrite lane v)

/-- TS_POP (R225). -/
def execTsPop (t : Time) (s : State) : Host.Outcome State Fault Refusal := s.act t tsPop

/-- PRBS_CHECKER_SYNC (R221). -/
def execPrbsCheckerSync (t : Time) (lane : Fin 8) (bits : List Bool) (s : State) : Host.Outcome State Fault Refusal :=
  s.act t (prbsCheckerSync lane bits)

/-- TIME_EXCHANGE_TIMER (R229). -/
def execTimeExchangeTimer (t : Time) (s : State) : Host.Outcome State Fault Refusal := s.act t timeExchangeTimer

end Sys2Proof.Machine
end

