-- ==== Sys2Proof/Machine/Read.lean ====
section
/-! DEFINITION. What a read of any register returns: the status words of every block, composed from the state, the
stored bits of the others, the capture of 64-bit registers (R9), and the counters that a read clears (R10). -/

namespace Sys2Proof.Machine

/-! ## Status words, by domain and row offset -/

/-- A mask of the numbers below `n` for which `p` holds. -/
def maskOf (n : Nat) (p : Nat → Bool) : Nat := ((List.range n).map fun i => b2n (p i) * 2 ^ i).sum

/-- A GPIO pin is active (R332). -/
def Device.gpio (d : Device) (i : Nat) : Gpio := d.pwr.gpio.get Gpio.reset i
def Device.gpioActive (d : Device) (i : Nat) : Bool := (d.gpio i).level != d.cb (Reg.MOOR_GPIO_CFG i) 30

/-- The voltage on VHOLD in mV, at most 16.3 V: no rule gives its value, and Mooring has none before power (R380)
(log 55). -/
def Device.vholdMv (d : Device) : Nat := if d.start.powered then d.freeVal % 16301 else 0

/-- Status words of D0 (Tables 5.11, 13.8, 14.10, 15.8, 15.9, 17.11, 17.12, 18.18). -/
def Device.moorWord (d : Device) (off : Nat) : Nat :=
  let p := d.pwr
  let t := d.twin
  match off with
  | 0x40030 => p.bellLast.toNat
  | 0x40 =>
    let s := d.start
    s.cause * 0x10000000 + s.straps.toNat * 0x1000000 + s.stage * 0x10000 + s.railFail * 0x100 + s.attempts
  | 0x50084 =>
    t.role * 0x20000000 + b2n t.senior * 0x10000000 + t.peerRole * 0x2000000 + b2n t.pinsOk * 0x1000000
      + b2n d.keepOk * 0x800000 + t.sync * 0x200000 + b2n t.spoolBehind * 0x100000 + b2n t.mirrorStale * 0x80000
      + min 3 t.silentSf * 0x20000 + b2n t.syncedOnce * 0x10000 + t.lastTrigger * 0x1000
  | 0x10014 => p.latch.toNat
  | 0x20000 => p.padHold.toNat
  | 0x30004 => p.st * 0x20000000 + p.target * 0x8000000 + b2n p.held * 0x4000000 + p.lastWake * 0x100
  | 0x30014 => p.sampleVin * 0x10000 + p.sampleTemp.toNat
  | 0x60044 => maskOf 16 (fun i => (d.gpio i).raw) * 0x10000 + maskOf 16 d.gpioActive
  | 0x60048 => maskOf 16 (fun i => (d.gpio i).stuck) * 0x10000 + maskOf 16 fun i => (d.gpio i).frozen
  | 0x50004 => d.ladderStatus.toNat
  | 0x50014 => maskOf 16 (fun w => (d.watch w).expired) * 0x10000 + maskOf 16 fun w => (d.watch w).retry
  | 0x30018 =>
    let mv := d.vholdMv
    b2n (decide (12000 ≤ mv)) * 0x80000000 + b2n (d.start.powered && decide (7600 ≤ p.vin)) * 0x40000000 + mv
  | _ => 0

/-- Status words of D1 (Tables 12.13, 12.14, 16.11, 17.11, 17.12, 18.18). -/
def Device.keepWord (d : Device) (off i : Nat) : Nat :=
  let l := d.ll
  match off with
  | 0x50100 =>
    b2n l.fallback * 0x80000000 + b2n l.bankB * 0x40000000 + b2n l.restartPending * 0x20000000 + b2n l.rejectA * 0x10000000
      + b2n l.rejectB * 0x8000000 + l.stage * 0x1000000 + l.reloadMask.toNat
  | 0x50104 => if l.fallback then 0 else l.seq
  | 0x50108 => l.epoch
  | 0x50120 => l.digestChk.toNat
  | 0x50128 => b2n l.twinSeen * 8 + b2n l.twinMatch * 4 + b2n l.parentSeen * 2 + b2n l.parentMatch
  | 0x40110 => b2n d.keep.fixValid * 0x80000000 + d.keep.region * 0x10000 + min 255 d.keep.run * 0x100
  | 0x20000 => fld d.ev.pending (32 * i + 31) (32 * i)
  | 0x20070 => b2n d.ev.overflowHeld * 0x80000000 + d.ev.queue.length
  | 0x20080 =>
    match d.ev.queue with
    | x :: _ => fieldAt x.bytes (4 * i) 4
    | [] => 0
  | 0x60104 => b2n d.log.busy * 0x80000000 + b2n d.log.held.isSome * 0x40000000 + b2n d.log.error * 0x20000000
  | 0x60108 => d.log.nextSeq.toNat
  | 0x60400 => fieldAt (d.log.slots.get [] (d.cf Reg.KEEP_LOG_RD_SEL 12 0)) (4 * i) 4
  | 0x200A4 => b2n d.pwr.warn * 0x80000000 + d.pwr.thermTemp.toNat
  | _ => 0

/-- LANT_PROFILE; `current` reads its reset value 0 while no profile is in force (R51, Table 4.23). A countdown of 64, in the
superframe of a command with countdown 63, reads 0 in its 6 bits (log 27). -/
def Device.profileWord (d : Device) : Nat :=
  let cur := d.lant.profile.getD 0
  let sw := match d.lant.switch_ with
    | some s => s.next * 0x100 + s.phase * 0x40 + (if s.phase = 1 then (s.c - d.lampSf) % 64 else 0)
    | none => 0
  d.lant.validMask.toNat * 0x10000 + cur * 0x1000 + sw

/-- A duty-cycle value of the window in LANT_DC_SEL (R115): band 3 names none (log 68). -/
def Device.dcWord (d : Device) (f : Band → Nat → Nat) : Nat :=
  let s := d.cfg Reg.LANT_DC_SEL
  if fld s 5 4 = 3 then 0
  else
    let b := bandOfNum (fld s 5 4)
    let k := fld s 3 0
    if k = bandTotal ∨ k < (d.prof b).subs.length then f b k else 0

/-- Airtime in whole µs (log 68). -/
def qUs (q : Nat) : Nat := (rdiv q qPerUs).toNat

/-- LANT_CTX_SLEEPY0 and LANT_CTX_SLEEPY1 of the selected client (Table 5.10, R142). -/
def Device.ctxWord (d : Device) (second : Bool) : Nat :=
  let k := d.client (d.cf Reg.LANT_CTX_SEL 12 0)
  if !k.assoc then 0
  else if second then min 0xFFFF k.guardLast * 0x10000 + k.lease
  else b2n k.adrift * 0x80000000 + b2n k.lr * 0x40000000 + b2n (capBell k.caps) * 0x20000000 + b2n k.released * 0x10000000
    + k.bellLeft * 0x1000000 + k.syncAge.getD 0 % 256 * 0x10000 + min 0x1FFF k.missRun

/-- Code of a reference domain's state (Table 10.8). -/
def domStCode : DomSt → Nat
  | .off => 0
  | .acquiring => 1
  | .tracking => 2
  | .locked => 3

/-- LANT_TX_GATES: a common gate has passed when it has for every band. -/
def Device.gatesWord (d : Device) : Nat :=
  d.txGates .l &&& d.txGates .m &&& d.txGates .h
    + b2n (d.gatesOpen .l) * 0x100 + b2n (d.gatesOpen .m) * 0x200 + b2n (d.gatesOpen .h) * 0x400

/-- Status words of D2 (Tables 4.20 to 4.23, 5.9, 5.10, 10.7, 10.8, 13.8, 15.8) (log 67). -/
def Device.lantWord (d : Device) (off i : Nat) : Nat :=
  let x : RefDom := if i = 0 then .a else .b
  let r := d.lant.relay
  match off with
  | 0x10014 => d.lant.version * 0x10000 + b2n d.lant.commit.isSome * 0x8000
  | 0x10050 => d.profileWord
  | 0x30004 => d.dcWord fun b k => qUs ((d.dutyWin b k).dataUsed d.lant.dutySec)
  | 0x30008 => d.dcWord fun b k => qUs ((d.dutyWin b k).bcnUsed d.lant.dutySec)
  | 0x3000C => d.dcWord fun b k => (d.dutyLimits b k).2
  | 0x30010 => d.dcWord fun b k => (d.dutyLimits b k).1
  | 0x40058 => r.st * 0x40000000 + r.chan * 0x100 + min 255 r.miss
  | 0x40084 => d.ctxWord false
  | 0x40088 => d.ctxWord true
  | 0x40094 =>
    let h := d.linkOf (d.cf Reg.LANT_LINK_SEL 12 0)
    if h.used then ofInt 16 h.txTarget * 0x10000 + h.ant else 0
  | 0x20008 => ofInt 32 (rdiv d.time.r servoUnit)
  | 0x2000C => ofInt 32 (rdiv d.time.f servoUnit)
  | 0x20014 =>
    let sel := match d.time.selected with
      | none => 0
      | some .a => 1
      | some .b => 2
    b2n d.time.gateOpen * 0x80000000 + b2n d.time.stepped * 0x40000000 + sel * 0x10000000 + d.timeQuality * 0x100
  | 0x2002C => domStCode (d.refDom x).st * 0x40000000 + b2n (d.time.selected == some x) * 0x20000000
  | 0x20030 => ofInt 32 (offsetNs (d.refDom x).offset)
  | 0x10058 => d.gatesWord
  | 0x50000 => d.lant.ring.length * 0x10000 + d.lant.ringUsed / 16
  | _ => 0

/-- Code of a radio state (Table 2.1). -/
def RState.code : RState → Nat
  | .off => 0
  | .sleep => 1
  | .idle => 2
  | .locked => 3
  | .rx => 4
  | .tx => 5
  | .cal => 6

/-- RADx_STATE (Table 2.13). The synthesiser is locked in LOCKED, RX and TX, but not while it changes the channel; a frame
that has not begun waits for LOCKED while it is not (R38). -/
def Device.radState (d : Device) (b : Band) : Nat :=
  let r := d.radio b
  let now := r.now d.clk.now
  let target := match r.moving d.clk.now with
    | some x => x.dest
    | none => now
  let relock := match r.moving d.clk.now with
    | some x => x.tune.isSome
    | none => false
  let locked := (now == .locked || now == .rx || now == .tx) && !relock
  let grp := match r.chan with
    | some c => groupOf b c
    | none => 0
  grp * 0x100000 + b2n (!r.pend.isEmpty || !r.forced.isEmpty) * 0x80000 + b2n r.bg.isSome * 0x40000
    + b2n (!(r.waiting d.clk.now).isEmpty && !locked) * 0x20000 + b2n locked * 0x10000 + target.code * 0x100 + now.code

/-- Status words of D3 to D5 (Tables 2.12, 2.13, 2.18, 3.15). -/
def Device.radWord (d : Device) (b : Band) (off i : Nat) : Nat :=
  let r := d.radio b
  match off with
  | 0x10000 => d.radState b
  | 0x10018 => d.pwr.dieTemp.toNat
  | 0x10040 => if i < groupCount b then b2n (r.group i).valid * 0x80000000 + (r.group i).temp.toNat else 0
  | 0x10084 => r.limit.toNat
  | 0x10090 => ((List.range 4).map fun s => ofInt 8 (r.off.get 0 s) * 256 ^ s).sum
  | 0x20084 => (r.pinsAt d.clk.now).toNat
  | 0x60004 => r.bgDone.toNat
  | 0x60040 => let c := r.dpd.get Coef.zero i; c.i.toNat * 0x10000 + c.q.toNat
  | 0x30010 => r.rxLast.toNat
  | 0x30014 => r.rxQual.toNat
  | 0x40004 => min 255 r.peakFlight * 0x100 + min 255 r.flight.length
  | _ => 0

/-- The oldest generation that a packet references, or the current one (Table 7.13). -/
def Packet.genOldest (p : Packet) : Nat := if p.refs p.genPrev then p.genPrev else p.gen

/-- Status words of D6 (Tables 7.11 to 7.13, 8.5, 8.7) (log 68). -/
def Device.pktWord (d : Device) (off i : Nat) : Nat :=
  let p := d.pkt
  let sel := d.cf Reg.PKT_Q_SEL 14 0
  let key := if d.cb Reg.PKT_Q_SEL 15 then 72 + sel else sel
  let none_ := if d.cb Reg.PKT_Q_SEL 15 then 16384 ≤ sel else 72 ≤ sel
  match off with
  | 0x10080 => p.parseLast.toNat
  | 0x20044 => b2n p.tblBusy * 0x80000000 + b2n p.tblError * 0x40000000 + p.tblB1 * 0x2000 + p.tblB0
  | 0x20060 => p.occ i
  | 0x20074 => p.popMac.toNat
  | 0x2007C => p.popBd.toNat
  | 0x20080 => p.popLink.toNat
  | 0x30204 => p.gen * 0x10000 + b2n p.commitWait.isSome * 0x8000 + b2n p.refused * 0x4000 + p.genOldest % 256
  | 0x40304 => b2n p.spilling * 0x80000000 + p.cells
  | 0x40314 => if none_ then 0 else min 0xFFFF (d.queue key).pkts.length * 0x10000 + (d.queue key).fill
  | 0x40318 => if none_ then 0 else ofInt 32 (d.credit16 key / 16)
  | 0x50440 => b2n (d.gate i).bankB * 0x80000000 + b2n (d.gate i).swapAt.isSome * 0x40000000 + (d.gate i).entry
  | _ => 0

/-- Code of a key slot's state (Table 6.8). -/
def KeySt.code : KeySt → Nat
  | .empty => 0
  | .current => 1
  | .next => 2
  | .retiring => 3

/-- The entry in CIPH_KS_SEL, and the window in CIPH_RW_SEL with the state of its key slot: an EMPTY slot reads 0
(R165). -/
def Device.ksEntry (d : Device) : KeyEntry := d.ciph.keys.get KeyEntry.empty (d.cf Reg.CIPH_KS_SEL 13 0)
def Device.rwEntry (d : Device) : Option RWin :=
  let h := d.cf Reg.CIPH_RW_SEL 12 0
  let s := d.cf Reg.CIPH_RW_SEL 16 16
  if (d.key (d.linkOf h).client s).st = .empty ∨ !(d.linkOf h).used then none else some (d.rwin h s)

/-- Status words of D7 (Tables 6.7, 6.8). -/
def Device.ciphWord (d : Device) (off : Nat) : Nat :=
  let c := d.ciph
  let e := d.ksEntry
  match off with
  | 0x10004 => c.peakJobs * 0x100 + c.jobs.length
  | 0x20004 =>
    if e.st = .empty then 0
    else e.st.code * 0x40000000 + b2n e.encReq * 0x20000000 + b2n (decide (d.keyLimit ≤ e.usage)) * 0x10000000
      + b2n e.announced * 0x8000000 + e.epoch
  | 0x20014 => b2n c.kdfBusy * 0x80000000 + b2n c.kdfError * 0x40000000
  | 0x30004 => (d.rwEntry.map RWin.high).getD 0
  | 0x30010 => (d.rwEntry.map RWin.tx).getD 0
  | _ => 0

/-- Status words of D8 (Table 11.8). -/
def Device.memWord (d : Device) (off i : Nat) : Nat :=
  let m := d.mem
  match off with
  | 0x10004 => (m.chan i).shows d.clk.now d.freeVal * 0x20000000 + min 128 ((m.chan i).reqs.length + (m.chan i).held.length)
  | 0x30004 => b2n m.trainDone * 0x80000000 + b2n m.trainWarm * 0x40000000 + b2n m.fail1 * 2 + b2n m.fail0
  | 0x30010 => let t := m.train.get LaneTrain.reset i; t.result * 0x20000000 + t.rd % 64 * 0x100 + t.wr % 64
  | 0x40004 => b2n m.retained * 0x80000000 + b2n (m.ch1.shows d.clk.now d.freeVal == 4) * 2 + b2n (m.ch0.shows d.clk.now d.freeVal == 4)
  | _ => 0

/-- Status words of D9 (Tables 9.8 to 9.10, R225). -/
def Device.laneWord (d : Device) (off i : Nat) : Nat :=
  let r := d.lanes.rng
  let l := d.lane i
  match off with
  | 0x10008 => r.st * 0x20000000 + b2n r.lane7 * 0x10000000 + b2n r.lane6 * 0x8000000 + r.rate * 0x1000000 + b2n r.txIdle
  | 0x80004 => l.taps.toNat
  | 0x8000C =>
    b2n l.sig * 0x80000000 + b2n l.cdr * 0x40000000 + b2n l.block * 0x20000000 + b2n l.hiBer * 0x10000000
      + b2n l.chkSync * 0x8000000 + l.rate
  | 0x100004 =>
    let e := d.ethPort i
    b2n e.linkUp * 0x80000000 + b2n e.localFault * 0x40000000 + b2n e.remoteFault * 0x20000000 + b2n (d.laneTest i) * 0x10000000
  | _ => 0

/-- Status words of the domain control block (Tables 1.4, 1.5, 11.5). -/
def Device.domWord (d : Device) (n off : Nat) : Nat :=
  let x := d.dom n
  match off with
  | 0 => n
  | 4 => x.sections % 256 * 0x100 + b2n x.charValid * 0x80 + b2n x.reloadPending * 0x40 + x.st
  | 0x28 => x.sramLast.toNat
  | _ => 0

/-- The status bits of a register, beside its stored bits. -/
def Device.statusWord (d : Device) (n off i : Nat) : Nat :=
  if off < 0x40 then d.domWord n off
  else match n with
    | 0 => d.moorWord off
    | 1 => d.keepWord off i
    | 2 => d.lantWord off i
    | 3 => d.radWord .l off i
    | 4 => d.radWord .m off i
    | 5 => d.radWord .h off i
    | 6 => d.pktWord off i
    | 7 => d.ciphWord off
    | 8 => d.memWord off i
    | 9 => d.laneWord off i
    | _ => 0

/-! ## 64-bit registers (R9) -/

/-- Value of the 64-bit register whose low word stands at a row offset. -/
def Device.wide (d : Device) (n off i : Nat) : Nat :=
  match n, off with
  | 1, 0x30020 => (d.cvUnit i).now.s.toNat
  | 1, 0x30028 => (d.cvResult i).toNat
  | 1, 0x50110 => d.ll.devChar.toNat
  | 1, 0x50118 => d.ll.expChar.toNat
  | 1, 0x50130 => d.ll.twinChar.toNat
  | 1, 0x50138 => d.ll.parentChar.toNat
  | 1, 0x50140 => d.cfg64 (Reg.KEEP_LL_PEER_LO i) (Reg.KEEP_LL_PEER_HI i)
  | 1, 0x50260 => d.keep.wr
  | 1, 0x50268 => d.keep.fwd
  | 2, 0x10000 => d.lant.sf
  | 2, 0x20000 => d.lampNs
  | 6, 0x30180 => (d.pkt.defs.get actionDrop i).toNat
  | 7, 0x20008 => if d.ksEntry.st = .empty then 0 else d.ksEntry.usage
  | 7, 0x30008 => (d.rwEntry.map fun w => w.map.toNat).getD 0
  | 9, 0x80014 => if bitOf d.regs.snap 9 then d.regs.snapBits.get 0 i else (d.lane i).bits
  | 9, 0x20024 => d.lanes.tsHi.toNat * 4294967296 + d.lanes.tsLo.toNat
  | _, 0x10 => (d.dom n).char.toNat
  | _, _ => 0

/-! ## Reads -/

/-- What a register shows: its stored RW and LL bits and its status bits. A cluster-meter setting that METER_READ
has returned shows the two fields above the map's mask too (Table 8.7). -/
def Device.regNow (d : Device) (addr : Nat) : Word :=
  if addr = Reg.PKT_MTR_CBS then d.cfg addr
  else match regAt addr with
    | none => 0
    | some (r, i) =>
      let n := (addr - 0x10000000) / 0x01000000
      (d.cfg addr &&& w32 (r.rw ||| r.ll)) ||| w32 (d.statusWord n r.off i)

/-- The counter that a register shows: that of the meter in PKT_MTR_SEL for the meter registers (R205). -/
def Device.cntAt (d : Device) (a : Nat) : Nat :=
  if a = Reg.PKT_MTR_GREEN_CNT ∨ a = Reg.PKT_MTR_YELLOW_CNT ∨ a = Reg.PKT_MTR_RED_CNT then mtrCnt a d.mtrSel else a

/-- The domain of a counter. -/
def cntDom (a : Nat) : Nat := (a % 4294967296 - 0x10000000) / 0x01000000

/-- Greatest value of a counter: its row's. -/
def cntMax (a : Nat) : Nat :=
  match regAt (a % 4294967296) with
  | some (r, _) => r.rcMax
  | none => 0

/-- An RC read: the captured copy while a snapshot is in progress, the live value otherwise, without an increment of the same
cycle (R20); the read clears what it returns (R10). -/
def Device.rcTake (d : Device) (addr : Nat) : Word × Device :=
  let n := cntDom addr
  let c := d.regs.cnt.get ⟨0, 0⟩ addr
  let snap := bitOf d.regs.snap n
  let x := d.takeInc addr c.live
  let c' : Cnt := if snap then { c with copy := 0 } else { c with live := min (cntMax addr) x.2 }
  let d' : Device := { d with regs := { d.regs with cnt := d.regs.cnt.set ⟨0, 0⟩ addr c' } }
  (w32 (if snap then c.copy else x.1), if snap then d' else d'.incRead addr)

/-- A read of the low word: all 64 bits are captured (R9). -/
def Device.lowTake (d : Device) (addr n off i : Nat) : Word × Device :=
  let v := d.wide n off i
  (w32 v, { d with regs := { d.regs with high := d.regs.high.set 0 addr (w32 (v / 4294967296)) } })

/-- The read of a pop or selected-item register, as its own row gives it: the value it puts out, taken back. -/
def Device.popTake (d : Device) (addr : Nat) : Word × Device :=
  let was := d.out
  let x := if addr = Reg.PKT_LEARN_POP then learnPop d
    else if addr = Reg.LANE_TS_POP then tsPop d
    else evOccRead d
  let v := match x.out.getLast? with
    | some (.data w) => w
    | _ => 0
  (v, { x with out := was })

/-- A read of any register address, with its effects. -/
def Device.regRead (d : Device) (addr : Nat) : Word × Device :=
  match regAt addr with
  | none => (0, d)
  | some (r, i) =>
    let n := (addr - 0x10000000) / 0x01000000
    if r.kind = 3 then d.popTake addr
    else if 0 < r.rcMax then d.rcTake (d.cntAt addr)
    else if r.kind = 1 then d.lowTake addr n r.off i
    else if r.kind = 2 then (d.regs.high.get 0 (addr - 4), d)
    else (d.regNow addr, if addr = Reg.MOOR_VHOLD then d.freeNext else d)

/-- A bus read of a register that Keeper may refuse: a refused read returns 0 (R11, R14) (log 12). -/
def Device.busRead (d : Device) (req addr width : Nat) : Word × Device :=
  match d.refusal req addr width with
  | some det => (0, d.raise 26 det)
  | none => d.regRead addr

/-- Puts the value of a bus read on the interfaces. -/
def Device.readOut (d : Device) (req addr width : Nat) : Device :=
  let x := d.busRead req addr width
  x.2.emit (.data x.1)

/-- RC_READ. -/
def rcRead (req addr width : Nat) (d : Device) : Device := d.readOut req addr width

/-- LOW_WORD_READ. -/
def lowWordRead (req addr width : Nat) (d : Device) : Device := d.readOut req addr width

/-! ## Snapshots (R10) -/

/-- An entry of the counter map, unlisted at 0. -/
def keepCnt (a : Nat) (c : Cnt) : Option (Nat × Cnt) := if c = ⟨0, 0⟩ then none else some (a, c)

/-- The capture: each live value moves into its copy, and the live counters restart from 0. -/
def Device.snapTake (d : Device) (n : Nat) : Device :=
  let own (a : Nat) : Bool := decide (cntDom a = n)
  let one (x : Nat × Cnt) : Option (Nat × Cnt) := if own x.1 then keepCnt x.1 ⟨0, min (cntMax x.1) (x.2.copy + x.2.live)⟩ else some x
  let bits : Tab Nat := if n = 9 then (List.range 8).foldl (fun t i => Tab.set t 0 i (d.lane i).bits) [] else d.regs.snapBits
  { d with regs := { d.regs with cnt := d.regs.cnt.filterMap one, snap := setBit d.regs.snap n, snapBits := bits }
           cycle := { d.cycle with incs := d.cycle.incs.filter fun x => !own x.1 } }

/-- The end: each unread copy goes back into its live counter. -/
def Device.snapDrop (d : Device) (n : Nat) : Device :=
  let own (a : Nat) : Bool := decide (cntDom a = n)
  let one (x : Nat × Cnt) : Option (Nat × Cnt) := if own x.1 then keepCnt x.1 ⟨min (cntMax x.1) (x.2.copy + x.2.live), 0⟩ else some x
  { d with regs := { d.regs with cnt := d.regs.cnt.filterMap one, snap := clrBit d.regs.snap n }
           cycle := { d.cycle with incs := d.cycle.incs.filter fun x => !own x.1 } }

/-- A write to DOM_SNAP: the end first, then the capture. -/
def Device.snapWrite (d : Device) (n : Nat) (v : Word) : Device :=
  let d := if bitOf v 1 && bitOf d.regs.snap n then d.snapDrop n else d
  if bitOf v 0 then d.snapTake n else d

/-- SNAP_CAPTURE. -/
def snapCapture (n : Fin 10) (d : Device) : Device := d.keeperAccess (Reg.DOM_SNAP n.val) fun d => d.snapWrite n.val 1

/-- SNAP_END. -/
def snapEnd (n : Fin 10) (d : Device) : Device := d.keeperAccess (Reg.DOM_SNAP n.val) fun d => d.snapWrite n.val 2

/-! ## Meanings -/

/-- RC_READ (R10, R11, R14). -/
def execRcRead (t : Time) (req addr width : Nat) (s : State) : Host.Outcome State Fault Refusal := s.act t (rcRead req addr width)

/-- LOW_WORD_READ (R9, R11, R14). -/
def execLowWordRead (t : Time) (req addr width : Nat) (s : State) : Host.Outcome State Fault Refusal := s.act t (lowWordRead req addr width)

/-- SNAP_CAPTURE (R10). -/
def execSnapCapture (t : Time) (n : Fin 10) (s : State) : Host.Outcome State Fault Refusal := s.act t (snapCapture n)

/-- SNAP_END (R10). -/
def execSnapEnd (t : Time) (n : Fin 10) (s : State) : Host.Outcome State Fault Refusal := s.act t (snapEnd n)

end Sys2Proof.Machine
end

