-- ==== Sys2Proof/Machine/Gpio.lean ====
section
/-! DEFINITION. GPIO pins: debouncing, chatter, stuck wake pins (R332 to R334). -/

namespace Sys2Proof.Machine

/-- Changes a pin. -/
def Device.onGpio (d : Device) (i : Nat) (f : Gpio → Gpio) : Device :=
  d.onPwr fun p => { p with gpio := p.gpio.upd Gpio.reset i f }

/-- Settings of a pin: an output, a wake pin (whose wake_en counts only for an input). -/
def Device.gpioOut (d : Device) (i : Nat) : Bool := d.cb (Reg.MOOR_GPIO_CFG i) 29
def Device.gpioWake (d : Device) (i : Nat) : Bool := d.cb (Reg.MOOR_GPIO_CFG i) 31 && !d.gpioOut i

/-- chatter_max and stuck_time. -/
def Device.chatterMax (d : Device) : Nat := max 1 (d.cf Reg.MOOR_GPIO_CTRL 7 0)
def Device.stuckTime (d : Device) : Time := d.cf Reg.MOOR_GPIO_CTRL 31 16 * sec

/-- After a change of a pin's level or settings: the span for which it has been an active wake pin, and the end of
stuck when it is inactive (R334). -/
def Device.gpioSync (d : Device) (i : Nat) : Device :=
  if d.gpioActive i then
    d.onGpio i fun g => { g with activeAt := if d.gpioWake i then some (g.activeAt.getD d.clk.now) else none }
  else
    let stuck := (d.gpio i).stuck
    let d := d.onGpio i fun g => { g with activeAt := none, stuck := false }
    if stuck then d.raise 20 0 else d

/-- debounce_ms of a pin. -/
def Device.debounce (d : Device) (i : Nat) : Time := max 1 (d.cf (Reg.MOOR_GPIO_CFG i) 7 0) * msec

/-- GPIO_DEBOUNCE: a pin is at a level that it took at an instant; once it has held it for debounce_ms the debounced level is that,
but for a frozen pin, which keeps its own (R332, R333) (log 69). -/
def gpioDebounce (pin : Fin 16) (level : Bool) (since : Time) (d : Device) : Device :=
  let i := pin.val
  if !d.start.powered then d
  else if (d.gpio i).frozen ∨ d.clk.now < since + d.debounce i then d.onGpio i fun g => { g with raw := level }
  else (d.onGpio i fun g => { g with raw := level, level := level }).gpioSync i

/-- A whole RTC second has ended with so many raw transitions of a pin that is not frozen. -/
def gpioChatterCheck (pin : Fin 16) (transitions : Nat) (d : Device) : Device :=
  let i := pin.val
  if d.start.powered && !(d.gpio i).frozen && decide (d.chatterMax < transitions) then
    (d.onGpio i fun g => { g with frozen := true, frozenAt := d.clk.now, frozenBefore := false }).raise 6 0
  else d

/-- The whole second in which a frozen pin is reassessed, 10 s on, has ended: it returns to service, debouncing from
its present level, or stays frozen for 10 s more (log 69). -/
def gpioReassess (pin : Fin 16) (transitions : Nat) (d : Device) : Device :=
  let i := pin.val
  let g := d.gpio i
  if !d.start.powered || !g.frozen || decide (d.clk.now < g.frozenAt + 11 * sec) then d
  else if d.chatterMax < transitions then d.onGpio i fun g => { g with frozenAt := d.clk.now }
  else ((d.onGpio i fun g => { g with frozen := false, frozenBefore := false, level := g.raw }).raise 20 0).gpioSync i

/-- A wake pin has been active for stuck_time (log 69). -/
def gpioStuck (pin : Fin 16) (d : Device) : Device :=
  let i := pin.val
  let g := d.gpio i
  let due := match g.activeAt with
    | some t => decide (t + d.stuckTime ≤ d.clk.now)
    | none => false
  if d.start.powered && due && !g.stuck && d.stuckTime != 0 then
    (d.onGpio i fun g => { g with stuck := true }).raise 7 0
  else d

/-- A write of a pin's settings: an output pin shows the level it drives. -/
def Device.gpioCfg (d : Device) (i : Nat) (v : Word) : Device :=
  let d := d.setCfg (Reg.MOOR_GPIO_CFG i) v
  let d := if d.gpioOut i then d.onGpio i fun g => { g with raw := d.cb (Reg.MOOR_GPIO_CFG i) 28 } else d
  d.gpioSync i

/-- A run of the sequencer finds an active wake pin (R324). -/
def Device.gpioFires (d : Device) : Bool :=
  (List.range 16).any fun i => d.gpioWake i && d.gpioActive i && !(d.gpio i).stuck && !(d.gpio i).frozenBefore

/-! ## Meanings -/

/-- GPIO_DEBOUNCE (R332). -/
def execGpioDebounce (t : Time) (pin : Fin 16) (level : Bool) (since : Time) (s : State) : Host.Outcome State Fault Refusal :=
  s.act t (gpioDebounce pin level since)

/-- GPIO_CHATTER_CHECK (R333). -/
def execGpioChatterCheck (t : Time) (pin : Fin 16) (transitions : Nat) (s : State) : Host.Outcome State Fault Refusal :=
  s.act t (gpioChatterCheck pin transitions)

/-- GPIO_REASSESS (R333). -/
def execGpioReassess (t : Time) (pin : Fin 16) (transitions : Nat) (s : State) : Host.Outcome State Fault Refusal :=
  s.act t (gpioReassess pin transitions)

/-- GPIO_STUCK (R334). -/
def execGpioStuck (t : Time) (pin : Fin 16) (s : State) : Host.Outcome State Fault Refusal := s.act t (gpioStuck pin)

end Sys2Proof.Machine
end

