-- ==== Sys2Proof/Machine/Store.lean ====
section
/-! DEFINITION. What storing a register does: the RW and LL bits, and the state behind those registers that are more
than stored bits. Who may store which bits (Table 0.4) is decided by the caller. -/

namespace Sys2Proof.Machine

/-- A read of a register without effects: what the register holds in its own island (R263). -/
def Device.peek (d : Device) (addr : Nat) : Word :=
  match regAt addr with
  | none => 0
  | some (r, i) =>
    let n := (addr - 0x10000000) / 0x01000000
    if r.kind = 1 then w32 (d.wide n r.off i)
    else if r.kind = 2 then w32 (d.wide n (r.off - 4) i / 4294967296)
    else if 0 < r.rcMax then w32 (d.cnt (d.cntAt addr))
    else d.regNow addr

/-- A watch's settings: a watch that becomes enabled starts its period (R365) (log 70). -/
def Device.watchCfg (d : Device) (w : Nat) (v : Word) : Device :=
  let was := d.watchOn w
  let d := d.setCfg (Reg.MOOR_WATCH_CFG w) v
  if d.watchOn w && !was then d.watchFresh w else d

/-- LANT_LINK_TX: the link in LANT_LINK_SEL; a handle not in use ignores it (R395). -/
def Device.linkTxPut (d : Device) (v : Word) : Device :=
  let h := d.cf Reg.LANT_LINK_SEL 12 0
  if (d.linkOf h).used then d.onLink h fun l => { l with txTarget := sfld v 31 16, ant := fld v 1 0 } else d

/-- PKT_GATE_CTRL_e: the bank lengths and gate_en, which takes effect at READY while D6 applies its sections (R263). -/
def Device.gateCtrlPut (d : Device) (e : Nat) (v : Word) : Device :=
  let d := (d.settlePort e).setCfg (Reg.PKT_GATE_CTRL e) (v &&& 0x81FF01FF)
  if d.domSt 6 = 3 then d.gateAdvance e else d

/-- Stores the value of a register with RW or LL bits. -/
def Device.regPut (d : Device) (addr : Nat) (v : Word) : Device :=
  match regAt addr with
  | none => d
  | some (r, i) =>
    match (addr - 0x10000000) / 0x01000000, r.off with
    | 0, 0x60000 => d.gpioCfg i v
    | 0, 0x50020 => d.watchCfg i v
    | 2, 0x10024 => d.openPut .l v
    | 2, 0x10028 => d.openPut .m v
    | 2, 0x1002C => d.openPut .h v
    | 2, 0x40094 => d.linkTxPut v
    | 6, 0x50400 => d.gateCtrlPut i v
    | 6, 0x50424 => d.gateDataPut v
    | 9, 0x80008 => d.laneTestGo i v
    | _, _ => d.setCfg addr v

/-- Stores the bits of `mask` alone: register := (old and not mask) or (value and mask). -/
def Device.regMerge (d : Device) (addr : Nat) (mask v : Word) : Device :=
  d.regPut addr ((d.peek addr &&& ~~~ mask) ||| (v &&& mask))

/-! ## A block's reset (R396, Table 13.1) -/

/-- Every register, counter and capture of a domain at its reset value, and no snapshot in progress. -/
def Device.regsReset (d : Device) (n : Nat) : Device :=
  let other (a : Nat) : Bool := decide ((a - 0x10000000) / 0x01000000 ≠ n)
  let r := d.regs
  { d with regs :=
      { cfg := r.cfg.filter fun x => other x.1, cnt := r.cnt.filter fun x => decide (cntDom x.1 ≠ n), snap := clrBit r.snap n,
        snapBits := if n = 9 then [] else r.snapBits, high := r.high.filter fun x => other x.1 } }

end Sys2Proof.Machine
end

