-- ==== Sys2Proof/Machine/LightList.lean ====
section
/-! DEFINITION. The Light List: images, sections and records, their checks, the choice of a bank, and what a record
does when it is applied (R257 to R278). -/

namespace Sys2Proof.Machine

/-! ## Images (R257 to R260) -/

/-- The image bytes at the start of a bank (log 9). -/
def Flash.bank (f : Flash) (bankB : Bool) : Bytes := if bankB then f.bankB else f.bankA

/-- A header valid under R258; without a readable SFDP table, or below 16 MiB, no bank is valid (R257) (log 9). -/
def Flash.hdrValid (f : Flash) (b : Bytes) : Bool :=
  f.sfdp && decide (0x1000000 ≤ f.size) && fieldAt b 0 4 == 0x444D4C4C && fieldAt b 4 2 == 2 && fieldAt b 6 2 == 0x80
    && decide (1 ≤ fieldAt b 8 4 ∧ fieldAt b 8 4 ≤ 0xFFFFFFFE)
    && decide (fieldAt b 12 4 % 4 = 0 ∧ 128 ≤ fieldAt b 12 4 ∧ fieldAt b 12 4 ≤ f.size / 2)
    && decide (1 ≤ fieldAt b 20 4)

/-- image_crc (R259). -/
def imageCrc (b : Bytes) : Nat := crc32c (slice b 0 24 ++ slice b 28 (fieldAt b 12 4 - 28))

/-- One section: type, domain, instance and records. -/
structure Sect where
  ty : Nat
  dom : Nat
  inst : Nat
  recs : Bytes
deriving DecidableEq, Repr

/-- The bytes of a section (Table 12.2). -/
def Sect.bytes (s : Sect) : Bytes :=
  let h := beBytes 1 s.ty ++ beBytes 1 s.dom ++ beBytes 2 s.inst ++ beBytes 4 s.recs.length
  h ++ beBytes 4 (crc32c (h ++ s.recs)) ++ zeros 4 ++ s.recs

/-- Two sections share domain, type and instance. -/
def Sect.same (a b : Sect) : Bool := a.ty == b.ty && a.dom == b.dom && a.inst == b.inst

/-- One record: its header and body. -/
structure Rcd where
  hdr : Word
  body : Bytes
deriving DecidableEq, Repr

def Rcd.ty (r : Rcd) : Nat := fld r.hdr 31 24
def Rcd.bytes (r : Rcd) : Bytes := beBytes 4 r.hdr.toNat ++ r.body

/-- The records of a section; none where they do not fill it exactly. `n` bounds their number. -/
def splitRcds : Nat → Bytes → Option (List Rcd)
  | 0, b => if b.isEmpty then some [] else none
  | n + 1, b =>
    if b.isEmpty then some []
    else
      let h := w32 (fieldAt b 0 4)
      let len := 4 * fld h 23 0
      if b.length < 4 + len then none
      else (splitRcds n (b.drop (4 + len))).map fun r => ⟨h, slice b 4 len⟩ :: r

/-- A record well formed for its type, and allowed in a section of type `ty` for domain `dom` (R261, R262). -/
def Rcd.ok (r : Rcd) (ty dom : Nat) : Bool :=
  let b := r.body
  let n := b.length
  match ty, r.ty with
  | 0x01, 0x01 => n % 12 == 0 && decide (0 < n)
  | 0x01, 0x02 => dom == 6 && decide (8 ≤ n) && decide (fieldAt b 0 1 ≤ 3) && fieldAt b 1 1 == 0 && n == 8 + 64 * fieldAt b 2 2
  | 0x02, 0x03 =>
    decide (20 ≤ n) && decide (fieldAt b 0 1 ≤ 15) && decide (fieldAt b 1 1 ≤ 2) && decide (fieldAt b 2 1 ≤ 8)
      && decide (fieldAt b 3 1 ≤ 8) && n == 20 + 16 * fieldAt b 2 1 + 4 * fieldAt b 3 1
  | 0x02, 0x04 => n == 4 && decide (fieldAt b 0 1 ≤ 15) && fieldAt b 1 3 == 0
  | 0x03, 0x05 => decide (36 ≤ n) && fieldAt b 16 4 % 4 == 0 && n == 36 + fieldAt b 16 4
  | 0x04, 0x08 => n == 8 || n == 16 || n == 24 || n == 32
  | _, _ => false

/-- The section type is allowed for the domain (Table 12.3). -/
def sectAllowed (ty dom : Nat) : Bool :=
  match ty with
  | 0x01 => decide (dom ≤ 9)
  | 0x02 => dom == 2
  | 0x03 => dom == 7
  | 0x04 => dom == 1
  | _ => false

/-- A section's records. -/
def Sect.rcds (s : Sect) : Option (List Rcd) := splitRcds s.recs.length s.recs

/-- A well-formed section, but for its CRC. -/
def Sect.ok (s : Sect) : Bool :=
  sectAllowed s.ty s.dom && s.recs.length % 4 == 0 && match s.rcds with
    | some l => l.all fun r => r.ok s.ty s.dom
    | none => false

/-- The sections that bytes hold back to back, each with a matching CRC; none where they do not fill them. -/
def splitSects : Nat → Bytes → Option (List Sect)
  | 0, b => if b.isEmpty then some [] else none
  | n + 1, b =>
    if b.isEmpty then some []
    else
      let len := fieldAt b 4 4
      if b.length < 16 + len ∨ len % 4 ≠ 0 ∨ fieldAt b 8 4 ≠ crc32c (slice b 0 8 ++ slice b 16 len) then none
      else (splitSects n (b.drop (16 + len))).map fun r => ⟨fieldAt b 0 1, fieldAt b 1 1, fieldAt b 2 2, slice b 16 len⟩ :: r

/-- Ascending domain order, and no two of one domain, type and instance. -/
def sectsOrdered : List Sect → Bool
  | [] => true
  | s :: r => (match r with
      | x :: _ => decide (s.dom ≤ x.dom)
      | [] => true) && !r.any s.same && sectsOrdered r

/-- The sections of a bank whose header is valid; none where one is not well formed (R260). -/
def imageSects (b : Bytes) : Option (List Sect) :=
  match splitSects (fieldAt b 20 4) ((slice b 0 (fieldAt b 12 4)).drop 128) with
  | some l => if l.length = fieldAt b 20 4 ∧ l.all Sect.ok ∧ sectsOrdered l then some l else none
  | none => none

/-! ## Factory defaults (R270, Table 12.7) -/

/-- One WRITE record as a CONFIG section of instance 0. -/
def writeSect (dom : Nat) (l : List (Nat × Nat × Nat)) : Sect :=
  let body := l.flatMap fun x => beBytes 4 x.1 ++ beBytes 4 x.2.1 ++ beBytes 4 x.2.2
  ⟨1, dom, 0, beBytes 4 (0x01000000 + 3 * l.length) ++ body⟩

/-- The factory sections. -/
def factorySects (serial : DWord) : List Sect :=
  [ writeSect 6 [ (0x16030118, 0xFFFFFFFF, 0), (0x1603011C, 0xFFFFFFFF, 0x54000000), (0x16030058, 0xFFFFFFFF, fld serial 31 0),
                  (0x1603005C, 0xFFFF, 0x0200 + fld serial 39 32) ],
    writeSect 9 [ (0x19100000, 0x80000000, 0x80000000) ] ]

/-- The sections that the active image gives; none where the bank does not read back well formed (log 71). -/
def Device.activeSects (d : Device) : Option (List Sect) :=
  if d.ll.fallback then some (factorySects d.otp.serial) else imageSects (d.ll.flash.bank d.ll.bankB)

/-! ## Applying records (R263 to R268, Table 12.8) -/

/-- One WRITE entry: the device after it and its digest bytes; none for an address that may not be written. -/
def Device.writeEntry (d : Device) (n : Nat) (b : Bytes) : Option (Device × Bytes) :=
  let addr := fieldAt b 0 4
  let mask := w32 (fieldAt b 4 4)
  match regAt addr with
  | none => none
  | some (r, _) =>
    if (addr - 0x10000000) / 0x01000000 ≠ n ∨ r.rw ||| r.ll = 0 then none
    else
      let keep := w32 (r.rw ||| r.ll)
      let d := d.regMerge addr (mask &&& keep) (w32 (fieldAt b 8 4))
      some (d, slice b 0 12 ++ beBytes 4 (d.peek addr &&& mask).toNat)

/-- The entries of a WRITE record, in order. -/
def Device.writeEntries (d : Device) (n : Nat) : Nat → Bytes → Option (Device × Bytes)
  | 0, _ => some (d, [])
  | k + 1, b =>
    match d.writeEntry n b with
    | none => none
    | some (d, x) => (d.writeEntries n k (b.drop 12)).map fun r => (r.1, x ++ r.2)

/-- A TABLE record: its entries go to consecutive indexes as a table write puts them (R178). -/
def Device.tableRcd (d : Device) (b : Bytes) : Option Device :=
  let t := fieldAt b 0 1
  let count := fieldAt b 2 2
  let first := fieldAt b 4 4
  if tblSize t < first + count then none
  else some ((List.range count).foldl (fun d i =>
    let e : Entry := BitVec.ofNat 512 (fieldAt b (8 + 64 * i) 64)
    d.onPkt fun p => p.setEntry t (first + i) (e.setHit false)) d)

/-- A PROFILE record's band (Table 12.5). -/
def profRcd (b : Bytes) : ProfBand where
  present := true
  chan := fieldAt b 4 2 % 4096
  beaconCls := fieldAt b 6 1
  classes := BitVec.ofNat 8 (fieldAt b 7 1)
  limit := BitVec.ofNat 16 (fieldAt b 8 2)
  reserve := fieldAt b 12 4
  share := fieldAt b 16 4
  subs := (List.range (fieldAt b 2 1)).map fun i =>
    ⟨fieldAt b (20 + 16 * i) 4, fieldAt b (24 + 16 * i) 4, fieldAt b (28 + 16 * i) 4, fieldAt b (32 + 16 * i) 4⟩
  restr := (List.range (fieldAt b 3 1)).map fun j =>
    (fieldAt b (20 + 16 * fieldAt b 2 1 + 4 * j) 2, fieldAt b (22 + 16 * fieldAt b 2 1 + 4 * j) 2)

/-- "LLSEAL". -/
def labelSeal : Bytes := [0x4C, 0x4C, 0x53, 0x45, 0x41, 0x4C]

/-- ROOT entries: each replaces its serial's record or is added, its key wrapped, without a join counter (R145, R267) (log 98). -/
def putRoots (otp : Block) (b : Bytes) : Nat → List Root → List Root
  | 0, l => l
  | k + 1, l =>
    let serial : DWord := BitVec.ofNat 64 (fieldAt b 0 8)
    let r : Root := ⟨serial, BitVec.ofNat 128 (fieldAt b 8 16) ^^^ Config.rootMask otp serial, decide (128 ≤ fieldAt b 24 1), none⟩
    let l' := if l.any (fun x => x.serial == r.serial) then l.map (fun x => if x.serial = r.serial then r else x) else l ++ [r]
    putRoots otp (b.drop 28) k l'

/-- One record inside a SEALED block. -/
def Device.innerRcd (d : Device) (r : Rcd) : Option Device :=
  if r.ty = 0x06 then
    let l := putRoots d.otp.key r.body (r.body.length / 28) d.ciph.roots
    if r.body.length % 28 ≠ 0 ∨ 65536 < l.length then none else some (d.onCiph fun c => { c with roots := l })
  else if r.ty = 0x07 then
    if r.body.length ≠ 20 ∨ fieldAt r.body 0 2 ≠ d.gateway then none
    else some (d.onCiph fun c => { c with beaconKey := some (fieldAt r.body 0 2, BitVec.ofNat 128 (fieldAt r.body 4 16)) })
  else none

/-- The records inside a SEALED block, in order. -/
def Device.innerRcds (d : Device) : List Rcd → Option Device
  | [] => some d
  | r :: l =>
    match d.innerRcd r with
    | some d => d.innerRcds l
    | none => none

/-- A SEALED record: the tag, the decryption, the records inside (R266, R267). -/
def Device.sealedRcd (d : Device) (s : Sect) (b : Bytes) : Option Device :=
  let n := fieldAt b 16 4
  let kMac := kdfBlock d.otp.key 1 labelSeal (beBytes 8 d.otp.serial.toNat) 256
  let kEnc := kdfBlock d.otp.key 2 labelSeal (beBytes 8 d.otp.serial.toNat) 256
  let input := beBytes 1 s.dom ++ beBytes 1 s.ty ++ beBytes 2 s.inst ++ slice b 0 (20 + n)
  if blockBytes (cmac kMac input) ≠ slice b (20 + n) 16 then none
  else
    let plain := ctrCrypt kEnc (slice b 8 8 ++ zeros 4) (slice b 20 n)
    match splitRcds n plain with
    | some l => d.innerRcds l
    | none => none

/-- A PEER body goes to KEEP_LL_PEER_0 onward; unused registers are 0 (R268). -/
def Device.peerRcd (d : Device) (b : Bytes) : Device :=
  (List.range 4).foldl (fun d i =>
    (d.setCfg (Reg.KEEP_LL_PEER_HI i) (w32 (fieldAt b (8 * i) 4))).setCfg (Reg.KEEP_LL_PEER_LO i) (w32 (fieldAt b (8 * i + 4) 4))) d

/-- One record of a section of domain `n`: the device after it, and what it feeds to the digest. -/
def Device.applyRcd (d : Device) (s : Sect) (r : Rcd) : Option (Device × Bytes) :=
  match r.ty with
  | 0x01 => (d.writeEntries s.dom (r.body.length / 12) r.body).map fun x => (x.1, beBytes 4 r.hdr.toNat ++ x.2)
  | 0x02 => (d.tableRcd r.body).map fun d => (d, r.bytes)
  | 0x03 =>
    some (d.onLant fun l => { l with profiles := l.profiles.set ProfBand.none_ (4 * fieldAt r.body 0 1 + fieldAt r.body 1 1) (profRcd r.body) }, r.bytes)
  | 0x04 => some (d, r.bytes)
  | 0x05 => (d.sealedRcd s r.body).map fun d => (d, beBytes 4 r.hdr.toNat ++ slice r.body 0 8)
  | 0x08 => some (d.peerRcd r.body, [])
  | _ => none

/-- The records of a section, in order. -/
def Device.applyRcds (d : Device) (s : Sect) : List Rcd → Option (Device × Bytes)
  | [] => some (d, [])
  | r :: l =>
    match d.applyRcd s r with
    | none => none
    | some (d, x) => (d.applyRcds s l).map fun y => (y.1, x ++ y.2)

/-- Sections of domain `n`, in image order: the digest goes on from its state, and each is counted. -/
def Device.applySects (d : Device) (n : Nat) : List Sect → Option Device
  | [] => some d
  | s :: l =>
    if s.dom ≠ n then d.applySects n l
    else match s.rcds.bind (d.applyRcds s) with
      | none => none
      | some (d, x) => (d.onDom n fun k => { k with digest := crc64 k.digest x, sections := min 255 (k.sections + 1) }).applySects n l

/-- A domain starts LOADING or RELOADING: the digest starts from its number, and its sections are applied (R272).
None where a section fails. -/
def Device.applyDom (d : Device) (n : Nat) (sects : Option (List Sect)) : Option Device :=
  sects.bind fun l => (d.onDom n fun k => { k with digest := crc64 0 (beBytes 1 n) }).applySects n l

/-- The profile that the last SELECT record names. -/
def selectOf (l : List Sect) : Option Nat :=
  ((l.filter fun s => s.ty == 2).flatMap fun s => ((s.rcds.getD []).filter fun r => r.ty == 4).map fun r => fieldAt r.body 0 1).getLast?

/-! ## Choosing a bank (R269) -/

/-- The bank that boot_select takes: header valid, not rejected, image_crc and sections good. -/
def Device.bankGood (d : Device) (bankB : Bool) : Bool :=
  let b := d.ll.flash.bank bankB
  imageCrc b == fieldAt b 24 4 && (imageSects b).isSome

/-- A bank's candidacy, and its seq. -/
def Device.bankOk (d : Device) (bankB : Bool) : Bool :=
  d.ll.flash.hdrValid (d.ll.flash.bank bankB) && !(if bankB then d.ll.rejectB else d.ll.rejectA)
def Device.bankSeq (d : Device) (bankB : Bool) : Nat := fieldAt (d.ll.flash.bank bankB) 8 4

/-- Sets a bank's reject mark. -/
def Device.rejectBank (d : Device) (bankB : Bool) : Device :=
  (d.onLL fun l => if bankB then { l with rejectB := true } else { l with rejectA := true }).raise 33 0

/-- What the header of the bank that is now active gives. -/
def Device.takeHeader (d : Device) (bankB : Bool) : Device :=
  let b := d.ll.flash.bank bankB
  d.onLL fun l =>
    { l with fallback := false, bankB := bankB, seq := fieldAt b 8 4, epoch := fieldAt b 16 4,
             expChar := BitVec.ofNat 64 (fieldAt b 112 8),
             expDigest := (List.range 10).foldl (fun t n => Tab.set t 0 n (BitVec.ofNat 64 (fieldAt b (32 + 8 * n) 8))) [] }

/-- Factory defaults (R270) (log 48). -/
def Device.takeFactory (d : Device) : Device :=
  (d.onLL fun l => { l with fallback := true, bankB := false, seq := 0, epoch := 0, expChar := 0, expDigest := [] }).raise 32 0

/-- The banks in the order of their seq; A first if seqs are equal. -/
def Device.bankOrder (d : Device) : List Bool :=
  (if d.bankSeq false < d.bankSeq true then [true, false] else [false, true]).filter d.bankOk

/-- Tries the banks in order. -/
def Device.selectFrom (d : Device) : List Bool → Device
  | [] => d.takeFactory
  | b :: r => if d.bankGood b then d.takeHeader b else (d.rejectBank b).selectFrom r

/-- boot_select. -/
def Device.bootSelect (d : Device) : Device := d.selectFrom d.bankOrder

/-! ## Characteristics (R274, R275) -/

/-- The device characteristic: over DOM_CHAR of a READY domain or the digest it last held in READY, then
config_epoch. -/
def Device.charNow (d : Device) : DWord :=
  crc64 0 ((List.range 10).flatMap (fun n => beBytes 8 (d.dom n).kept.toNat) ++ beBytes 4 d.ll.epoch)

/-- The inactive bank; bank A under LL_FALLBACK. -/
def Device.inactiveB (d : Device) : Bool := !d.ll.fallback && !d.ll.bankB

/-- The exp_digest against which a domain is compared: the staged image's while it reloads (Table 12.11) (log 71). -/
def Device.expDigestOf (d : Device) (n : Nat) : DWord :=
  if d.ll.stage = 3 then BitVec.ofNat 64 (fieldAt (d.ll.flash.bank d.inactiveB) (32 + 8 * n) 8)
  else d.ll.expDigest.get 0 n

/-- A domain's digest is written to DOM_CHAR, compared, and the device characteristic recomputed. -/
def Device.charReady (d : Device) (n : Nat) : Device :=
  let v := (d.dom n).digest
  let d := d.onDom n fun k => { k with char := v, charValid := true, kept := v }
  let e := d.expDigestOf n
  let bad := e ≠ 0 ∧ e ≠ v
  let d := d.onLL fun l => { l with digestChk := putBit l.digestChk n (decide bad) }
  let d := if bad then d.raise 34 0 else d
  let c := d.charNow
  (d.onLL fun l => { l with devChar := c }).onLant fun l => { l with charCopy := c }

/-! ## Staging (R277, R278) -/

/-- Writes the image bytes of a bank. -/
def Device.setBank (d : Device) (bankB : Bool) (b : Bytes) : Device :=
  d.onLL fun l => { l with flash := if bankB then { l.flash with bankB := b } else { l.flash with bankA := b } }

/-- A delta header that may be staged: Table 12.9, its CRC, and the characteristic it applies to. -/
def Device.deltaOk (d : Device) (h : Bytes) : Bool :=
  fieldAt h 0 4 == 0x444D4C44 && fieldAt h 4 2 == 2 && fieldAt h 6 2 == 0x78 && fieldAt h 116 4 == crc32c (slice h 0 116)
    && (fieldAt h 8 8 == 0 || fieldAt h 8 8 == d.ll.devChar.toNat)

/-- A begin: none where it is refused, which raises EV035. -/
def Device.stageOpen (d : Device) (h : Bytes) : Option Device :=
  if 3 ≤ d.ll.stage ∨ (!d.ll.fallback ∧ d.ll.seq = 0xFFFFFFFF - 1) ∨ !d.deltaOk h then none
  else some ((d.setBank d.inactiveB []).onLL fun l => { l with stage := 1, delta := h, staged := [], changed := 0 })

/-- Delta sections replace their matches, delete them where they are empty, or follow their domain's last; a section of no
domain, and a second one of a domain, type and instance, stay for the verification to find. -/
def mergeSects (active delta : List Sect) : List Sect :=
  (List.range 256).flatMap fun n =>
    let old := active.filter fun s => s.dom == n
    let new := delta.filter fun s => s.dom == n
    (old.flatMap fun s => match new.filter s.same with
      | [] => [s]
      | l => l.filter fun x => !x.recs.isEmpty) ++ new.filter fun x => !old.any x.same

/-- The new image (R278): its build tag is open (log 71). -/
def Device.buildImage (d : Device) (sects : List Sect) : Bytes :=
  let h := d.ll.delta
  let act := d.ll.flash.bank d.ll.bankB
  let seqs := [false, true].filterMap fun b => if d.ll.flash.hdrValid (d.ll.flash.bank b) then some (d.bankSeq b) else none
  let seq := seqs.foldl max 0 + 1
  let body := sects.flatMap Sect.bytes
  let dig (n : Nat) : Bytes :=
    if fieldAt h 20 2 / 2 ^ n % 2 = 1 then slice h (24 + 8 * n) 8 else if d.ll.fallback then zeros 8 else slice act (32 + 8 * n) 8
  let head := beBytes 4 0x444D4C4C ++ beBytes 2 2 ++ beBytes 2 0x80 ++ beBytes 4 seq ++ beBytes 4 (128 + body.length)
    ++ slice h 16 4 ++ beBytes 4 sects.length
  let tail := beBytes 4 (d.freeVal % 4294967296) ++ (List.range 10).flatMap dig ++ slice h 104 8 ++ zeros 8 ++ body
  head ++ beBytes 4 (crc32c (head ++ tail)) ++ tail

/-- The domains whose sections differ in any byte from the active image. -/
def changedDoms (old new : List Sect) : BitVec 10 :=
  (List.range 10).foldl (fun w n => if old.filter (fun s => s.dom == n) = new.filter (fun s => s.dom == n) then w else setBit w n) 0

/-- The end of staging: build and verification (R278). -/
def Device.stageClose (d : Device) : Device :=
  let active := (d.activeSects).getD []
  let base := if fieldAt d.ll.delta 8 8 = 0 then [] else active
  let fail (d : Device) : Device := ((d.setBank d.inactiveB []).onLL fun l => { l with stage := 0 }).raise 35 0
  match splitSects (fieldAt d.ll.delta 22 2) d.ll.staged with
  | none => fail d
  | some delta =>
    if delta.length ≠ fieldAt d.ll.delta 22 2 then fail d
    else
      let sects := mergeSects base delta
      let img := d.buildImage sects
      let d := (d.freeNext).setBank d.inactiveB img
      if d.ll.flash.hdrValid img && imageCrc img == fieldAt img 24 4 && (imageSects img).isSome then
        d.onLL fun l => { l with stage := 2, changed := changedDoms active sects }
      else fail d

end Sys2Proof.Machine
end

