-- ==== Sys2Proof/Machine/Reset.lean ====
section
/-! DEFINITION. What a reset clears: a domain's blocks and registers, what a re-initialisation keeps (Table 12.10), and
the beginning of a cold or warm start (R284 to R287, R329, R331). -/

namespace Sys2Proof.Machine

/-! ## A domain's blocks -/

/-- D1's blocks: shared SRAM, check-value units, services, requests to the Log that are not committed, cores. The
spool's indexes and custody chain stand in DRAM and stay. -/
def Device.keeperReset (d : Device) : Device :=
  let k := d.keep
  { d with
      cv := []
      mem := { d.mem with bytes := d.mem.bytes.filter fun c => decide (dramBase ≤ c.1) }
      keep := { Keeper.reset with wr := k.wr, fwd := k.fwd, chain := k.chain }
      log := { d.log with cur := none, exempt := [], wait := [], held := none, reqs := 0, error := false }
      dbg := { d.dbg with cores := [], haltAt := none, unlocked := false } }

/-- The Light List state that D1 holds beside the bank in use (Tables 12.13, 12.14). -/
def LightList.clear (l : LightList) : LightList :=
  { LightList.reset with flash := l.flash, rejectA := l.rejectA, rejectB := l.rejectB }

/-- D2's blocks; the retained ring and the duty-cycle buckets are kept (Table 13.1) (log 58). -/
def Device.lantReset (d : Device) : Device :=
  let l := d.lant
  { d with
      time := TimeBlk.reset
      lant := { Lantern.reset with ring := l.ring, ringUsed := l.ringUsed, ringPos := l.ringPos, duty := l.duty, dutySec := l.dutySec } }

/-- D8's channels; DRAM contents and the training results that Mooring keeps stay (R246, R250) (log 11). -/
def Mem.clear (m : Mem) : Mem :=
  { m with ch0 := Channel.reset, ch1 := Channel.reset, train := if m.keptTrain then m.train else [], trainDone := false,
           trainWarm := false, fail0 := false, fail1 := false }

/-- Every block of a domain at its reset state. -/
def Device.blocksReset (d : Device) (n : Nat) : Device :=
  match n with
  | 1 => d.keeperReset
  | 2 => d.lantReset
  | 3 => d.radReset .l
  | 4 => d.radReset .m
  | 5 => d.radReset .h
  | 6 => d.onPkt fun _ => Packet.reset
  | 7 => d.onCiph fun _ => Cipher.reset
  | 8 => d.onMem Mem.clear
  | 9 => d.rngLeave.onLanes fun _ => Lanes.reset
  | _ => d

/-- The record of a domain in a state that it enters by a reset; Mooring keeps its last digest (R274). -/
def Device.domEnter (d : Device) (n st : Nat) : Device :=
  d.onDom n fun x => { Domain.reset with st := st, kept := x.kept, since := d.clk.now }

/-- A domain is reset (`st` = 1) or switched off (`st` = 0). -/
def Device.domReset (d : Device) (st n : Nat) : Device := ((d.blocksReset n).regsReset n).domEnter n st

/-! ## Re-initialisation with what Table 12.10 keeps -/

/-- The bands of domains 2 to 5 named in a mask: D2 concerns every band. -/
def maskBands (mask : BitVec 10) : BitVec 3 :=
  if bitOf mask 2 then 7 else BitVec.ofNat 3 (fld mask 5 3)

/-- Grants of these bands in superframe `sf` are void, and no beacon is sent there in it. -/
def Device.bandsVoid (d : Device) (bands : BitVec 3) (sf : Nat) : Device :=
  d.onLant fun l =>
    { l with silent := l.silent ||| bands,
             notes := l.notes.map fun n => if n.sf = sf ∧ bitOf bands (gBand n.plan.bits) then { n with void := true } else n }

/-- D2 without what it does not keep: lamp time, its steering, the reference domains and the gate are not touched
(log 53). -/
def Device.lantHold (d : Device) : Device :=
  d.onLant fun l =>
    { Lantern.reset with
        sf := l.sf, plan := l.plan, shadow := l.shadow, version := l.version, commit := l.commit, duty := l.duty
        dutySec := l.dutySec, clients := l.clients, links := l.links, notes := l.notes, silent := l.silent, ring := l.ring
        ringUsed := l.ringUsed, ringPos := l.ringPos, sealer := l.sealer, charCopy := l.charCopy
        lampChangeAt := l.lampChangeAt, eclipseFlag := l.eclipseFlag }

/-- D6 without its rule set and pipeline; queues, the packet buffer and what waits at the ports are kept (log 53). -/
def Device.pktHold (d : Device) : Device :=
  let d := (d.pkt.queues.map Prod.fst).foldl (fun d k => d.settle k) d
  d.onPkt fun p =>
    { Packet.reset with ingress := p.ingress, queues := p.queues, cells := p.cells, dramCells := p.dramCells
                        spilling := p.spilling, egress := p.egress }

/-- D7 without its root table and beacon key; its jobs go on. -/
def Device.ciphHold (d : Device) : Device := d.onCiph fun c => { c with roots := [], beaconKey := none }

/-- A domain leaves service to apply its sections anew: what Table 12.10 keeps stays, everything else is reset. -/
def Device.domHold (d : Device) (st n : Nat) : Device :=
  let d := match n with
    | 1 => d.keeperReset
    | 2 => d.lantHold
    | 3 => (d.txAbort .l).radReset .l
    | 4 => (d.txAbort .m).radReset .m
    | 5 => (d.txAbort .h).radReset .h
    | 6 => d.pktHold
    | 7 => d.ciphHold
    | 8 => d.onMem Mem.clear
    | 9 => d.lanesHold.onLanes fun l => { Lanes.reset with rng := l.rng }
    | _ => d
  (d.regsReset n).domEnter n st

/-! ## Pads (R285, R329, R331) -/

/-- The radio of a pad group. -/
def padBand (g : Nat) : Band := bandOfNum g

/-- A pad group that is not yet held latches its electrical levels: PA_EN and TRSW that of logical 0 (log 47). -/
def Device.padHold (d : Device) (g : Nat) : Device :=
  if bitOf d.pwr.padHold g then d
  else
    let pol := BitVec.ofNat 8 (d.cf (Reg.RAD_PIN_POL (padBand g)) 7 0)
    let lv := ((d.radio (padBand g)).pins &&& 0xDE) ^^^ pol
    d.onPwr fun p => { p with padHold := setBit p.padHold g, padLevels := if g < 3 then p.padLevels.set 0 g lv else p.padLevels }

/-- All four pad groups are held (log 47). -/
def Device.padHoldAll (d : Device) : Device := (((d.padHold 0).padHold 1).padHold 2).padHold 3

/-! ## The beginning of a start -/

/-- Pending bits and occurrence counters are reset, but for the group-0 raises that Mooring keeps; the queue is kept
(R358, R396). -/
def Device.evReset (d : Device) : Device :=
  d.onEv fun e =>
    { e with pending := e.pending &&& BitVec.setWidth 256 e.defer, alertCopy := 0
             occ := e.occ.filter fun x => decide (x.1 < 24) && bitOf e.defer x.1 }

/-- What every start begins with, whatever its kind: pads held, the twin shows STARTING and a lit one sends nothing, and
a power state that was requested is no longer (R285, R300, R331). -/
def Device.startCommon (d : Device) (warm : Bool) (waking : Option Nat) : Device :=
  let d := if waking = some 2 then d else d.padHoldAll
  let d := d.onTwin fun t =>
    { t with hbOut := .starting, yielding := t.yielding || t.role == 2, handover := none, takeAt := none, airCheck := false, keepAt := none }
  let d := d.onStart fun s =>
    { s with warm := warm, waking := waking, todo := [], degraded := false, sfdpTries := 0, bringUp := false }
  match waking with
  | some _ => d
  | none =>
    (d.onPwr fun p => { p with st := 0, target := 0, held := false, entryAt := none }).onStart fun s => { s with alertInit := true }

/-- D1 leaves RESET: the fabric accepts raises, the Log unit scans, pad group 3 is released (R331, R347, R358, R360)
(log 19). -/
def Device.keeperRelease (d : Device) : Device :=
  let d := d.onDom 1 fun x => { x with st := 2, since := d.clk.now }
  let nonce : DWord := BitVec.ofNat 64 d.freeVal
  let d := (d.freeNext.onKeep fun k => { k with bootNonce := nonce }).onStart fun s => { s with stage := 1 }
  let d := d.onPwr fun p => { p with padHold := clrBit p.padHold 3 }
  d.evOpen.logScan

/-- A warm start that begins now: the rails stay on, and D1 is released (R284, Table 13.1) (log 45). -/
def Device.warmStart (d : Device) (cause : Nat) : Device :=
  let d := (d.startCommon true none).evReset
  let d := [9, 8, 7, 6, 5, 4, 3, 2, 1].foldl (fun d n => d.domReset 1 n) d
  let d := { d with clk := { d.clk with lampRun := false } }
  let d := (d.onLL LightList.clear).onStart fun s => { s with cause := cause, stage := 0 }
  (d.inc Reg.MOOR_WARM_CNT).keeperRelease

/-- The rails are off: every domain but D0 is OFF, and DRAM has lost its contents with all that stands in it. -/
def Device.railsOff (d : Device) : Device :=
  let d := [9, 8, 7, 6, 5, 4, 3, 2, 1].foldl (fun d n => d.domReset 0 n) d
  let d := { d.dramLost with clk := { d.clk with lampRun := false } }
  let d := d.onLant fun l => { l with ring := [], ringUsed := 0, ringPos := 0, duty := [], dutySec := 0 }
  let d := d.onKeep fun _ => Keeper.reset
  let d := d.onEv fun e => { e with queue := [] }
  d.onStart fun s => { s with pwrGood := false, stage := 0, rail := 0 }

/-- A cold start of a device whose Mooring has power: straps are sampled, the rails go off, and the delays of Table 13.2
run from now (R284, R287, R288). The cause of a start that is a wake is not changed (R327) (log 45). -/
def Device.coldStart (d : Device) (cause : Nat) (waking : Option Nat) : Device :=
  let d := d.startCommon false waking
  let d := (if waking.isSome then d else d.evReset).railsOff
  let d := d.onLL fun l => { l.clear with rejectA := false, rejectB := false }
  let d := d.onStart fun s =>
    { s with cause := if waking.isSome then s.cause else cause, straps := s.strapPins, rail := 1, railFault := false, t0 := d.clk.now }
  d.inc Reg.MOOR_COLD_CNT

end Sys2Proof.Machine
end

