-- ==== Sys2Proof/Machine/Ready.lean ====
section
/-! DEFINITION. What a domain does when it leaves LOADING or RELOADING for READY, and when it applies its sections
(R37, R147, R189, R215, R227, R265, R271, R272, R293, R298). -/

namespace Sys2Proof.Machine

/-! ## Sections -/

/-- The sections a domain applies: the staged bank's while a reload that names it runs, the active image's otherwise
(R280, R281). -/
def Device.sectsFor (d : Device) (n : Nat) : Option (List Sect) :=
  if d.ll.stage = 3 ∧ bitOf d.ll.reloadMask n then imageSects (d.ll.flash.bank d.inactiveB) else d.activeSects

/-- A domain enters LOADING (2) or RELOADING (4) and applies its sections; none where one of them fails. -/
def Device.domLoad (d : Device) (n st : Nat) : Option Device :=
  (d.onDom n fun x => { x with st := st, since := d.clk.now }).applyDom n (d.sectsFor n)

/-! ## D2 -/

/-- Lamp time starts from the RTC's value when D2 leaves LOADING at a start of the device (R227). -/
def Device.lampLoad (d : Device) : Device :=
  { d with clk := { d.clk with lampRun := true, lampFix := d.rtcTicks * (2000000000 * lampScale / 32768) } }

/-- Profiles are checked, and the one that SELECT names comes into force where it is valid (R110, R265). -/
def Device.profilesTake (d : Device) : Device :=
  let ok (p : Nat) : Bool := [Band.l, Band.m, Band.h].all fun b => (d.profBandOf p b).valid b
  let sel := (selectOf (((d.sectsFor 2).getD []).filter fun s => s.dom == 2)).filter ok
  d.onLant fun l => { l with validMask := BitVec.ofNat 16 (maskOf 16 ok), profile := sel }

/-- RADx_PWR_LIMIT shows the profile in force (R51). -/
def Device.limitsPut (d : Device) : Device :=
  [Band.l, Band.m, Band.h].foldl (fun d b => d.onRad b fun r => { r with limit := (d.prof b).limit }) d

/-- A relay begins attached to its first parent, on the profile's channels; an anchor is none (Table 5.9, R140)
(log 53). -/
def Device.relayReady (d : Device) : Device :=
  if d.cb Reg.LANT_RELAY_CTRL 31 then
    d.onRelay fun _ =>
      { Relay.reset with st := 1, chan := (d.prof .h).chan, chanM := (d.prof .m).chan, parent := d.cf Reg.LANT_PARENT_A 31 16 }
  else d.onRelay fun _ => Relay.reset

/-- The duty-cycle windows at a start: kept at a warm start, loaded at a cold one and after Deep Eclipse (R293, R327). -/
def Device.dutyStart (d : Device) : Device :=
  if d.start.warm ∧ d.start.waking ≠ some 3 then d else d.dutyCold

/-- D2 is READY: at a start lamp time runs from here and the time gate's timeout begins. -/
def Device.lantReady (d : Device) : Device :=
  let fresh := !d.clk.lampRun
  let d := if fresh then d.lampLoad else d
  let d := (d.onLant fun l => { l with sf := d.lampSf }).profilesTake
  let d := d.limitsPut.relayReady
  let d := (if fresh then d.dutyStart else d).timeReady fresh
  d.onLant fun l => { l with dutyReady := true }

/-! ## The other domains -/

/-- A radio is READY: LOCKED on the profile's channel with its used group calibrated, or IDLE (R37) (log 50). A calibration that ran on
through a profile switch leads there when it ends (R36). -/
def Device.radReady (d : Device) (b : Band) : Device :=
  let p := d.prof b
  let d := d.onRad b fun r => { r with limit := p.limit }
  if d.lant.profile.isNone then d.onRad b fun r => { r with st := .idle, chan := none }
  else
    let ch := d.chanOf b
    let g := groupOf b ch
    let temp := d.pwr.dieTemp
    d.onRad b fun r =>
      { r with st := if r.cal.isSome then r.st else .locked, chan := some ch, cls := p.beaconCls,
               cal := r.cal.map fun c => { c with hadChannel := true }
               groups := if (r.group g).valid then r.groups else r.groups.set GroupCal.reset g ⟨true, temp⟩ }

/-- D7 is READY: the beacon key goes to the sealer, beacons no longer say Eclipse, and the checks go on (R147, R328). -/
def Device.ciphReady (d : Device) : Device :=
  (d.onLant fun l => { l with sealer := d.ciph.beaconKey, eclipseFlag := false }).drainBuffered

/-- D6 is READY: its load ends with a commit, and gate_en takes effect (R189, R263). -/
def Device.pktReady (d : Device) : Device :=
  (List.range 6).foldl (fun d e => d.gateAdvance e) d.genAdvance

/-- What follows from a domain's READY. -/
def Device.readyHook (d : Device) (n : Nat) : Device :=
  match n with
  | 2 => d.lantReady
  | 3 => d.radReady .l
  | 4 => d.radReady .m
  | 5 => d.radReady .h
  | 6 => d.pktReady
  | 7 => d.ciphReady
  | 9 => if d.start.stage = stageDone then d.lanesReady else d.lanesReady.twinStart
  | _ => d

/-- A domain reaches READY: its digest is shown and compared, and its service begins (R272, R274, R275). -/
def Device.domGo (d : Device) (n : Nat) : Device :=
  ((((d.onDom n fun x => { x with st := 3 }).charReady n).readyHook n).ladderReady n).gateWatch

end Sys2Proof.Machine
end

