-- ==== Sys2Proof/Machine/Reload.lean ====
section
/-! DEFINITION. The staged reload: its command, its start, its completion and its failure (R279 to R282). -/

namespace Sys2Proof.Machine

/-- The domains a reload may name: D2 to D7 and D9. -/
def reloadable : BitVec 10 := 0x2FC

/-- Limit of a domain's reload (Table 12.10). -/
def reloadLimit (n : Nat) : Time := if n ≤ 5 then 20 * msec else 2 * sec

/-- A write of go = 1 is accepted (R279, R294). -/
def Device.reloadOk (d : Device) (mask : BitVec 10) : Bool :=
  d.start.stage == stageDone && d.ll.stage == 2 && (mask &&& ~~~ reloadable) == 0 && (d.ll.changed &&& reloadable &&& ~~~ mask) == 0
    && (d.lant.switch_.isNone || (mask &&& 0x3C) == 0)

/-- The domains named. -/
def Device.named (d : Device) : List Nat := bitsOf d.ll.reloadMask 10

/-- The named domains leave service together. -/
def Device.reloadHold (d : Device) : Device :=
  let d := d.bandsVoid (maskBands d.ll.reloadMask) d.lampSf
  (d.named.foldl (fun d n => (d.domHold 4 n).onDom n fun x => { x with reloadPending := true }) d).gateWatch

/-- The state returns to IDLE; on a standby the mirroring of the domains that reloaded resumes by RESYNC (R314). -/
def Device.reloadIdle (d : Device) : Device :=
  let d := if d.twin.role = 3 ∧ d.ll.reloadMask ≠ 0 then d.enterResync else d
  let d := d.named.foldl (fun d n => d.onDom n fun x => { x with reloadPending := false }) d
  d.onLL fun l => { l with stage := 0, reloadMask := 0, reloadAt := none }

/-- A rollback ends when no named domain is RELOADING any more. -/
def Device.rollbackEnd (d : Device) : Device :=
  if d.ll.stage = 4 ∧ d.named.all (fun n => d.domSt n != 4) = true then d.reloadIdle else d

/-- A reload has failed: the staged header is erased, and every named domain is reloaded from the active bank; one whose
sections fail again enters FAULT (R281) (log 52). -/
def Device.rollback (d : Device) : Device :=
  let d := (d.setBank d.inactiveB []).onLL fun l => { l with stage := 4, reloadAt := none }
  let d := (d.raise 37 0).reloadHold
  (d.named.foldl (fun d n => match d.domLoad n 4 with
    | some d => d
    | none => d.domFault n) d).rollbackEnd

/-- Sections of the staged bank are applied in every named domain; none where one fails. -/
def Device.reloadLoad (d : Device) : List Nat → Option Device
  | [] => some d
  | n :: r => (d.domLoad n 4).bind fun d => d.reloadLoad r

/-- The named domains enter RELOADING. -/
def Device.reloadBegin (d : Device) : Device :=
  let d := (d.onLL fun l => { l with reloadAt := none }).reloadHold
  match d.reloadLoad d.named with
  | some d => d
  | none => d.rollback

/-- D1's sections without the AGREEMENT, whose change asks for no restart (R279). -/
def keeperSects (l : List Sect) : List Sect := l.filter fun s => s.dom == 1 && s.ty != 4

/-- KEEP_LL_PEER from the AGREEMENT section of the image that is now active (R268, R280). -/
def Device.peersTake (d : Device) : Device :=
  (((d.activeSects).getD []).filter fun s => s.dom == 1 && s.ty == 4).foldl (fun d s =>
    (s.rcds.getD []).foldl (fun d r => if r.ty = 8 then d.peerRcd r.body else d) d) d

/-- The staged bank becomes active (R280) (log 52). -/
def Device.activate (d : Device) : Device :=
  let old := (d.activeSects).getD []
  let ch := d.ll.changed
  let d := (d.takeHeader d.inactiveB).reloadIdle
  let new := (d.activeSects).getD []
  let pending := bitOf ch 0 || bitOf ch 8 || (bitOf ch 1 && decide (keeperSects old ≠ keeperSects new))
  let d := (d.onLL fun l => { l with restartPending := l.restartPending || pending, changed := 0 }).peersTake
  let c := d.charNow
  let d := (d.onLL fun l => { l with devChar := c }).onLant fun l => { l with charCopy := c }
  (d.inc Reg.KEEP_LL_RELOAD_CNT).raise 36 0

/-- RELOAD_CMD: accepted under R279, and begun at once, or at a boundary where it names D2 to D5. -/
def Device.reloadGo (d : Device) (mask : BitVec 10) : Device :=
  if !d.reloadOk mask then d.raise 37 0
  else
    let d := d.onLL fun l => { l with stage := 3, reloadMask := mask }
    let d := d.named.foldl (fun d n => d.onDom n fun x => { x with reloadPending := true }) d
    if mask = 0 then d.activate
    else if (mask &&& 0x3C) ≠ 0 then d.onLL fun l => { l with reloadAt := some d.boundary2ms }
    else d.reloadBegin

/-- The boundary of a reload that names D2 to D5 (R280). -/
def Device.reloadBoundary (d : Device) (sf : Nat) : Device :=
  match d.ll.reloadAt with
  | some n => if d.ll.stage = 3 ∧ n ≤ sf then d.reloadBegin else d
  | none => d

/-- RELOAD_CMD. -/
def reloadCmd (mask : BitVec 10) (d : Device) : Device := d.keeperAccess Reg.KEEP_LL_RELOAD_CMD fun d => d.reloadGo mask

/-- RELOAD_COMPLETE: every named domain is READY. -/
def reloadComplete (d : Device) : Device :=
  if d.ll.stage = 3 ∧ d.ll.reloadAt = none ∧ d.named.all (fun n => d.domSt n == 3) = true then d.activate else d

/-- RELOAD_FAIL: a named domain has missed its limit. -/
def reloadFail (n : Fin 10) (d : Device) : Device :=
  if bitOf d.ll.reloadMask n.val && d.domSt n.val == 4 && decide ((d.dom n.val).since + reloadLimit n.val ≤ d.clk.now) then
    if d.ll.stage = 3 then d.rollback
    else if d.ll.stage = 4 then (d.domFault n.val).rollbackEnd
    else d
  else d

/-! ## Meanings -/

/-- RELOAD_CMD (R279). -/
def execReloadCmd (t : Time) (mask : BitVec 10) (s : State) : Host.Outcome State Fault Refusal := s.act t (reloadCmd mask)

/-- RELOAD_COMPLETE (R280). -/
def execReloadComplete (t : Time) (s : State) : Host.Outcome State Fault Refusal := s.act t reloadComplete

/-- RELOAD_FAIL (R281). -/
def execReloadFail (t : Time) (n : Fin 10) (s : State) : Host.Outcome State Fault Refusal := s.act t (reloadFail n)

end Sys2Proof.Machine
end

