-- ==== Sys2Proof/Machine/Start.lean ====
section
/-! DEFINITION. Start-up: VIN, rails and RESET_N, the boot ROM's bring-up, the start limits, and a domain's READY
(R284 to R294, R390). -/

namespace Sys2Proof.Machine

/-! ## VIN and the rails (R286 to R288, Table 13.2) -/

/-- v_start, 7.6 V. -/
def vStart : Nat := 7600

/-- The delay from t0 of step `k` of a profile: steps 1 to 7 switch on the rail of that code, step 8 raises PWR_GOOD. -/
def railDelay (profile k : Nat) : Time :=
  let l : List Nat := match profile with
    | 0 => [4000, 6000, 7000, 8000, 8500, 9000, 9500, 10000]
    | 1 => [50000, 60000, 61000, 62000, 62500, 63000, 63500, 64000]
    | 2 => [4000, 6000, 7000, 8000, 8500, 9000, 9500, 260000]
    | _ => [3000, 4000, 4500, 5000, 5250, 5500, 5750, 6000]
  ((l[k - 1]?).getD 0) * usec

/-- The power-up profile that the straps select. -/
def Device.railProfile (d : Device) : Nat := fld d.start.straps 3 2

/-- Power-on: what has no power before is in its reset state; flash, MRAM, OTP and the straps' pads are as they were. -/
def Device.powerOn (d : Device) : Device :=
  { Device.reset with
      clk := { Device.reset.clk with now := d.clk.now }
      ll := { LightList.reset with flash := d.ll.flash }
      log := { Log.reset with slots := d.log.slots, nextSeq := d.log.nextSeq }
      start := { Start.reset with strapPins := d.start.strapPins }
      otp := d.otp
      free := d.free
      out := d.out }

/-- VIN_RISE: through v_start a cold start begins, from power-on or with Mooring still supplied from VHOLD (R286,
R381); rails that a thermal trip holds off stay off. -/
def vinRise (mv : Nat) (d : Device) : Device :=
  if mv < vStart then d.onPwr fun p => { p with vin := mv }
  else if !d.start.powered then
    let d := (d.powerOn.onDom 0 fun x => { x with st := 2, since := d.clk.now }).onStart fun s => { s with powered := true }
    (d.coldStart 0 none).onPwr fun p => { p with vin := mv }
  else
    let idle := d.start.rail = 0 ∧ d.start.pwrGood = false ∧ d.pwr.st = 0
    let d := d.onPwr fun p => { p with vin := mv }
    if idle ∧ d.pwr.tripped = false ∧ d.start.resetLow = none then d.coldStart 0 none else d

/-- The rails are up: PWR_GOOD, and D1 is released. -/
def Device.railsUp (d : Device) : Device :=
  let d := [1, 2, 3, 4, 5, 6, 7, 8, 9].foldl (fun d n => d.domEnter n 1) d
  (d.onStart fun s => { s with rail := 0, attempts := 0, pwrGood := true }).keeperRelease

/-- A rail was not in regulation in time: the rails switch off, and a later attempt follows. -/
def Device.railFail (d : Device) : Device :=
  d.onStart fun s =>
    { s with railFail := s.rail, attempts := min 255 (s.attempts + 1), rail := 0, railFault := true, t0 := d.clk.now
             owe := if s.owe.contains 1 then s.owe else s.owe ++ [1] }

/-- RAIL_STEP: the delay of the next step has passed, and its rail is in regulation, or is not, 1 ms after its step. While
RESET_N is low no start goes on. -/
def railStep (inRegulation : Bool) (d : Device) : Device :=
  let k := d.start.rail
  if k = 0 ∨ d.start.resetLow.isSome = true ∨ d.clk.now < d.start.t0 + railDelay d.railProfile k then d
  else if k = 8 then d.railsUp
  else if inRegulation then d.onStart fun s => { s with rail := k + 1 }
  else if d.start.t0 + railDelay d.railProfile k + msec ≤ d.clk.now then d.railFail
  else d

/-- RAIL_FAULT_RETRY: 100 ms after a failed attempt, 10 s once three have failed in a row. -/
def railFaultRetry (d : Device) : Device :=
  let wait := if d.start.attempts < 3 then 100 * msec else 10 * sec
  if d.start.railFault && d.start.resetLow.isNone && decide (d.start.t0 + wait ≤ d.clk.now) then
    d.onStart fun s => { s with railFault := false, rail := 1, t0 := d.clk.now }
  else d

/-! ## RESET_N (R285) -/

/-- RESET_ASSERT: a start or a power state in hand is abandoned, and D1 to D9 are held in RESET with their pads. -/
def resetAssert (d : Device) : Device :=
  if !d.start.powered || d.start.resetLow.isSome then d
  else
    let d := d.padHoldAll.evReset
    let st := if d.start.pwrGood then 1 else 0
    let d := [9, 8, 7, 6, 5, 4, 3, 2, 1].foldl (fun d n => d.domReset (if d.domSt n = 0 then 0 else st) n) d
    let d := { d with clk := { d.clk with lampRun := false } }
    (d.onStart fun s => { s with resetLow := some d.clk.now, rail := 0, todo := [], bringUp := false, stage := 0 }).onTwin fun t =>
      { t with yielding := t.yielding || t.role == 2 }

/-- RESET_RELEASE: a cold start after 2 s or more, which also ends a halt of the ladder, a warm start before that; with
the rails down only a cold start is possible (R285, R368). A low time below the 1 µs deglitch is no reset (log 45, 46). -/
def resetRelease (d : Device) : Device :=
  match d.start.resetLow with
  | none => d
  | some t =>
    let d := (d.onStart fun s => { s with resetLow := none }).onTender fun k => { k with ladders := [], faultWait := [] }
    if t + 2 * sec ≤ d.clk.now then (d.haltClear).coldStart 1 none
    else if d.start.pwrGood && d.pwr.st != 4 then d.warmStart 2
    else d.coldStart 2 none

/-! ## The order of the start (R289, R290) -/

/-- The stage that a domain's start shows. -/
def stageOf (n : Nat) : Nat :=
  match n with
  | 2 => 5
  | 7 => 6
  | 6 => 7
  | 9 => 8
  | _ => 9

/-- A section of the active bank failed: the bank is rejected, and a warm reset follows (R269). -/
def Device.sectionBad (d : Device) : Device := (d.rejectBank d.ll.bankB).warmStart 5

/-- MOOR_START and KEEP_LL_STATUS as the START record holds them (Table 17.3) (log 49). -/
def Device.startRecord (d : Device) : Bytes := beBytes 4 (d.moorWord 0x40) ++ beBytes 4 (d.keepWord 0x50100 0)

/-- The stage is DONE: EV000, what earlier attempts owe, and what waited for DONE. -/
def Device.startDone (d : Device) : Device :=
  let d := d.onStart fun s => { s with stage := stageDone }
  let owe := d.start.owe
  let d := (d.raise 0 0).onStart fun s => { s with owe := [] }
  let d := owe.foldl (fun d e => d.raise e 0) d
  ((d.logReq 8 d.startRecord true).ladderStage).wakeCheck

/-- Starts domains in order: a domain leaves RESET and applies its sections. Radios start together, and only where D2
is READY. -/
def Device.startSome (d : Device) : List Nat → Option Device
  | [] => some d
  | n :: r =>
    if n ≤ 5 ∧ 3 ≤ n ∧ d.domSt 2 ≠ 3 then d.startSome r
    else ((d.onStart fun s => { s with stage := stageOf n }).domLoad n 2).bind fun d => d.startSome r

/-- A domain that was started is still in LOADING. -/
def Device.loading (d : Device) : Bool := [2, 3, 4, 5, 6, 7, 9].any fun n => d.domSt n == 2

/-- The next domains to start: one, or the radios together. -/
def nextGroup (todo : List Nat) : List Nat × List Nat :=
  match todo with
  | [] => ([], [])
  | n :: r => if n ≤ 5 ∧ 3 ≤ n then (todo, []) else ([n], r)

/-- The start goes on once no domain is in LOADING. -/
def Device.startAdvance (d : Device) : Nat → Device
  | 0 => d
  | k + 1 =>
    if d.loading || d.start.degraded || d.start.stage == stageDone then d
    else
      let g := nextGroup d.start.todo
      if g.1.isEmpty then d.startDone
      else match (d.onStart fun s => { s with todo := g.2 }).startSome g.1 with
        | some d => d.startAdvance k
        | none => d.sectionBad

/-- Goes on from a change in a domain's state. -/
def Device.startGo (d : Device) : Device := if 2 ≤ d.start.stage then d.startAdvance 8 else d

/-- D0, D1 and D8 apply their sections and are READY, and ALERT_N follows its mask. -/
def Device.startCore (d : Device) : Option Device :=
  let d := d.onStart fun s => { s with stage := 4 }
  (d.domLoad 0 2).bind fun d =>
    ((d.domGo 0).domLoad 1 2).bind fun d =>
      (((d.domGo 1).onStart fun s => { s with alertInit := false }).domLoad 8 2).map fun d => d.domGo 8

/-- The bank is chosen, and the domains start. On the way out of Eclipse no bank is chosen, and D2 and D3 stay in
service while their sections are re-read (R269, R289, R327). -/
def Device.startLoad (d : Device) : Device :=
  let d := d.onStart fun s => { s with stage := 3 }
  let d := if d.start.waking = some 2 then d else d.bootSelect
  match d.startCore with
  | none => d.sectionBad
  | some d => (d.onStart fun s => { s with todo := if s.waking = some 2 then [7, 6, 9, 4, 5] else [2, 7, 6, 9, 3, 4, 5] }).startGo

/-- A degraded start without DRAM (R291): HALTED, D6 and D9 with the factory defaults, D2 to D5 and D7 off (log 48). -/
def Device.degrade (d : Device) : Device :=
  let d := (d.onDom 8 fun x => { x with st := 5 }).onStart fun s => { s with stage := 0x1F, degraded := true, todo := [], alertInit := false }
  let d := d.onLL fun l => { l.clear with fallback := true, rejectA := l.rejectA, rejectB := l.rejectB }
  let d := [2, 3, 4, 5, 7].foldl (fun d n => d.domReset 0 n) d
  let d := (d.raise 3 0).raise 192 0
  [0, 1, 6, 9].foldl (fun d n => match d.domLoad n 2 with
    | some d => if n ≤ 1 then d.domGo n else d
    | none => d) d

/-- The DRAM of a start: a warm one that kept its training restores it, any other trains in full; where a channel fails, once
more after a cycle of its rails. `runs` are the findings of the runs that the boot ROM makes, in order. A cold start keeps whether
the DRAM holds what it held. -/
def Device.bringTrain (d : Device) (runs : List TrainRun) : Device :=
  let full (d : Device) (r : List TrainRun) : Device := d.trainFull ((r[0]?).getD [])
  let d := if d.start.warm && d.mem.keptTrain then d.trainWarm runs else full d runs
  let rest := runs.drop (if d.start.warm then 2 else 1)
  let d := if d.mem.ok then d else full d.dramLost rest
  if d.start.warm then d else d.onMem fun m => { m with retained := d.mem.ok }

/-- BRING_UP: the boot ROM trains or restores the DRAM and goes on to the bank. -/
def bringUp (runs : List TrainRun) (d : Device) : Device :=
  if d.domSt 1 ≠ 2 ∨ d.start.stage ≠ 1 then d
  else
    let d := (d.onStart fun s => { s with stage := 2 }).onDom 8 fun x => { x with st := 2, since := d.clk.now }
    let d := d.bringTrain runs
    if !d.mem.ok then d.degrade
    else if d.ll.flash.sfdp || d.start.waking == some 2 then d.startLoad
    else d.onStart fun s => { s with bringUp := true, sfdpTries := 0 }

/-- SFDP_RETRY: the signature is read again, 20 times at most; then the flash counts as one without SFDP (R257, R390). -/
def sfdpRetry (found : Bool) (d : Device) : Device :=
  if !d.start.bringUp then d
  else
    let d := (d.onLL fun l => { l with flash := { l.flash with sfdp := found } }).onStart fun s => { s with sfdpTries := s.sfdpTries + 1 }
    if found || decide (20 ≤ d.start.sfdpTries) then (d.onStart fun s => { s with bringUp := false }).startLoad else d

/-! ## A domain READY, or not in time -/

/-- Start limits (Table 13.3). -/
def startLimit (n : Nat) : Time :=
  match n with
  | 7 => 500 * msec
  | 6 => 2 * sec
  | _ => 20 * msec

/-- D8 restored by the ladder's step 2: the sampling points found are open (R248, R366) (log 50). -/
def Device.restoreMem (d : Device) : Device :=
  let one (i : Nat) : LaneEye := ⟨true, 1 + Config.freeNat (d.free + i) % 64, 1⟩
  let run : TrainRun := (List.range 8).map one
  ({ d with free := d.free + 8 }).trainWarm [run]

/-- Radios that a start or an earlier step left in RESET start after a successful step 2 of D2 (R366). -/
def Device.radiosLate (d : Device) : Device :=
  [3, 4, 5].foldl (fun d n => if d.domSt n = 1 then (match d.domLoad n 2 with
    | some d => d
    | none => d.domFault n) else d) d

/-- DOMAIN_READY: a domain in LOADING or RELOADING has done its work. -/
def domainReady (n : Fin 10) (d : Device) : Device :=
  let st := d.domSt n.val
  if st ≠ 2 ∧ st ≠ 4 then d
  else
    let d := if n.val = 8 then d.restoreMem else d
    let d := d.domGo n.val
    let d := if st = 2 ∧ n.val = 2 ∧ d.start.stage = stageDone ∧ d.pwr.st = 0 then d.radiosLate else d
    if st = 2 then d.startGo else d.rollbackEnd

/-- START_LIMIT_EXPIRY: the domain enters FAULT, and the next one starts (R290). -/
def startLimitExpiry (n : Fin 10) (d : Device) : Device :=
  if d.domSt n.val = 2 ∧ 2 ≤ n.val ∧ d.start.stage ≠ stageDone ∧ 5 ≤ d.start.stage ∧ (d.dom n.val).since + startLimit n.val ≤ d.clk.now then
    ((d.raise 2 0).domFault n.val).startGo
  else d

/-! ## Meanings -/

/-- VIN_RISE (R286). -/
def execVinRise (t : Time) (mv : Nat) (s : State) : Host.Outcome State Fault Refusal := s.act t (vinRise mv)

/-- RAIL_STEP (R288). -/
def execRailStep (t : Time) (inRegulation : Bool) (s : State) : Host.Outcome State Fault Refusal := s.act t (railStep inRegulation)

/-- RAIL_FAULT_RETRY (R288). -/
def execRailFaultRetry (t : Time) (s : State) : Host.Outcome State Fault Refusal := s.act t railFaultRetry

/-- RESET_ASSERT (R285). -/
def execResetAssert (t : Time) (s : State) : Host.Outcome State Fault Refusal := s.act t resetAssert

/-- RESET_RELEASE (R285). -/
def execResetRelease (t : Time) (s : State) : Host.Outcome State Fault Refusal := s.act t resetRelease

/-- BRING_UP (R289). -/
def execBringUp (t : Time) (runs : List TrainRun) (s : State) : Host.Outcome State Fault Refusal := s.act t (bringUp runs)

/-- SFDP_RETRY (R390). -/
def execSfdpRetry (t : Time) (found : Bool) (s : State) : Host.Outcome State Fault Refusal := s.act t (sfdpRetry found)

/-- DOMAIN_READY (R272). -/
def execDomainReady (t : Time) (n : Fin 10) (s : State) : Host.Outcome State Fault Refusal := s.act t (domainReady n)

/-- START_LIMIT_EXPIRY (R290). -/
def execStartLimitExpiry (t : Time) (n : Fin 10) (s : State) : Host.Outcome State Fault Refusal := s.act t (startLimitExpiry n)

end Sys2Proof.Machine
end

