-- ==== Sys2Proof/Machine/Scrub.lean ====
section
/-! DEFINITION. On-chip SRAM: what a scrub or a read finds in a word (R252, R253, Tables 11.3 to 11.5). -/

namespace Sys2Proof.Machine

/-- The domain that owns a block of Table 11.3. -/
def blockDom (blk : Nat) (sub : Band) : Nat :=
  match blk with
  | 0 => 6
  | 1 => 6
  | 2 => 7
  | 3 => 2
  | 4 => 1
  | 5 => bandDom sub
  | _ => 2

/-- Raises an event of the SRAM, or owes it to the next wake while D1 is off. -/
def Device.sramRaise (d : Device) (ev : Nat) : Device :=
  if d.domDown 1 then d.onStart fun s => { s with owe := s.owe ++ [ev] } else d.raise ev 0

/-- The packets held in the packet buffer's cells, by queue and place. -/
def Device.bufPkts (d : Device) : List (Nat × Nat × QPkt) :=
  d.pkt.queues.flatMap fun q => ((List.range q.2.pkts.length).zip q.2.pkts).filterMap fun x => if x.2.dram then none else some (q.1, x.1, x.2)

/-- A word of the packet buffer is lost: the packet that holds it, where one does, is discarded. Which packet a cell
belongs to is open. -/
def Device.bufLost (d : Device) : Device :=
  let l := d.bufPkts
  match l[d.freeVal % (l.length + 1)]? with
  | none => d.freeNext
  | some (k, i, x) => (((d.freeNext.settle k).onQueue k fun q => { q with pkts := q.pkts.eraseIdx i }).freeCells x).headCheck k

/-- The table entry that holds word `w` of the tables' 4 MiB: table and index, in the order of Table 7.3 (log 91). -/
def tblPlace (e : Nat) : Nat × Nat :=
  if e < tblSize 0 then (0, e)
  else if e < tblSize 0 + tblSize 1 then (1, e - tblSize 0)
  else if e < tblSize 0 + tblSize 1 + tblSize 2 then (2, e - tblSize 0 - tblSize 1)
  else (3, (e - tblSize 0 - tblSize 1 - tblSize 2) % tblSize 3)

/-- The item that holds an uncorrectable word (Table 11.4) (log 91). -/
def Device.itemLost (d : Device) (blk : Nat) (sub : Band) (w : Nat) : Device :=
  match blk with
  | 0 => d.bufLost
  | 1 =>
    let x := tblPlace (w / 8)
    d.onPkt fun p => p.setEntry x.1 x.2 (p.entry x.1 x.2).cleared
  | 2 => d.onCiph fun k => { k with keys := k.keys.upd KeyEntry.empty (w / 8 % 16384) fun e => { e with st := .empty } }
  | 5 => (d.onRad sub fun r => { r with buffered := r.buffered.eraseIdx (d.freeVal % (r.buffered.length + 1)) }).freeNext
  | 6 =>
    if w < 129024 then
      let i := d.freeVal % (d.lant.ring.length + 1)
      let n := match d.lant.ring[i]? with
        | some e => e.size
        | none => 0
      (d.onLant fun l => { l with ring := l.ring.eraseIdx i, ringUsed := l.ringUsed - n }).freeNext
    else (d.onEv fun e => { e with queue := e.queue.eraseIdx (d.freeVal % (e.queue.length + 1)) }).freeNext
  | _ => d

/-- SRAM_SCRUB: a word of a block whose domain has power (log 91). -/
def sramScrub (blk : Fin 7) (sub : Band) (w : Nat) (r : EccOutcome) (d : Device) : Device :=
  let n := blockDom blk.val sub
  if d.domSt n = 0 then d
  else
    match r with
    | .clean => d
    | .corrected => (d.inc (Reg.DOM_SRAM_CORR_CNT n)).sramRaise 194
    | .uncorrectable =>
      let d := (d.inc (Reg.DOM_SRAM_UNCORR_CNT n)).onDom n fun x => { x with sramLast := w32 (blk.val * 0x10000000 + w % 0x1000000) }
      (d.itemLost blk.val sub w).sramRaise 195

/-- SRAM_SCRUB (R252). -/
def execSramScrub (t : Time) (blk : Fin 7) (sub : Band) (word : Nat) (r : EccOutcome) (s : State) : Host.Outcome State Fault Refusal :=
  s.act t (sramScrub blk sub word r)

end Sys2Proof.Machine
end

