-- ==== Sys2Proof/Machine/Power.lean ====
section
/-! DEFINITION. Eclipse, Deep Eclipse and Moored: requests, entry, the Eclipse sequencer, wake and exit, pad release
(R318 to R331). -/

namespace Sys2Proof.Machine

/-! ## Requests (R318) -/

/-- A condition holds that makes a request wait (log 56). -/
def Device.pwrWaits (d : Device) : Bool := d.start.stage != stageDone || d.ll.stage != 0 || d.lant.switch_.isSome

/-- A request is accepted: entry starts at the first boundary at least 2 ms ahead. -/
def Device.pwrAccept (d : Device) : Device :=
  let n := d.boundary2ms
  d.onPwr fun p => { p with st := 1, held := false, entryAt := some n }

/-- A write of go = 1 with a target, 1 Eclipse, 2 Deep Eclipse, 3 Moored; it is valid only in Run (log 56). -/
def Device.pwrGo (d : Device) (target : Nat) : Device :=
  let kept := target = 3 ∧ (d.keep.fwd < d.keep.wr ∨ d.lant.ring ≠ [])
  if target = 0 then d
  else if d.twinEn then d.raise 16 0
  else if d.pwr.st = 1 ∨ d.pwr.held = true then d.raise 11 0
  else if d.pwr.st ≠ 0 then d
  else if kept then d.raise 11 0
  else
    let d := d.onPwr fun p => { p with target := target }
    if d.pwrWaits then d.onPwr fun p => { p with held := true } else d.pwrAccept

/-- PWR_REQUEST_ECLIPSE, PWR_REQUEST_DEEP_ECLIPSE and PWR_REQUEST_MOORED. -/
def pwrRequest (target : Nat) (d : Device) : Device := d.keeperAccess Reg.MOOR_PWR_CMD fun d => d.pwrGo target

/-- PWR_REQUEST_ACCEPT: the last condition has cleared. -/
def pwrRequestAccept (d : Device) : Device := if d.pwr.held && !d.pwrWaits then d.pwrAccept else d

/-! ## Entry (R319, R320) -/

/-- Packets in D6's queues and in the packet buffer are discarded. -/
def Device.pktDiscard (d : Device) : Device :=
  let d := (d.pkt.queues.map Prod.fst).foldl (fun d k => d.settle k) d
  d.onPkt fun p =>
    { p with queues := p.queues.filterMap (fun x => let q : Queue := { x.2 with pkts := [] }; if q = Queue.empty then none else some (x.1, q))
             ingress := [], inPipe := [], recirc := [], cells := 0, dramCells := 0, spilling := false, egress := [] }

/-- The entry boundary t0: beacons say Eclipse from now, the cipher engine admits no new job, the reference domains
return to ACQUIRING, pins frozen at their active level are remembered (R235, R319, R321, R324) (log 57). -/
def Device.entryBoundary (d : Device) (sf : Nat) : Device :=
  match d.pwr.entryAt with
  | none => d
  | some n =>
    if d.pwr.st ≠ 1 ∨ sf < n ∨ d.lant.eclipseFlag = true then d
    else
      let d := (d.onLant fun l => { l with eclipseFlag := true }).pktDiscard
      let d := (d.onCiph fun c => { c with ringChecked := false }).timeEclipse
      (List.range 16).foldl (fun d i => d.onGpio i fun g => { g with frozenBefore := g.frozen && d.gpioActive i }) d

/-- The alert masks as they stand, 256 bits. -/
def Device.alertMasks (d : Device) : BitVec 256 :=
  (List.range 8).foldl (fun a i => a ||| (BitVec.setWidth 256 (d.cfg (Reg.KEEP_EV_ALERT i)) <<< (32 * i))) 0

/-- Every request that the Log unit holds is committed before D1 switches off (log 57). -/
def Device.logFlush (d : Device) : Device :=
  d.onLog fun l =>
    { (l.cur.toList ++ l.exempt ++ l.wait ++ l.held.toList).foldl Log.store l with cur := none, exempt := [], wait := [], held := none }

/-- D7 switches off; what R319 copies of its key store, counters and windows stays (log 58). -/
def Device.ciphOff (d : Device) : Device :=
  let c := d.ciph
  (d.domReset 0 7).onCiph fun k => { k with keys := c.keys, wins := c.wins }

/-- D2 and D3 switch off: lamp time and the retained bank end, and the full contexts keep the hot ones (R319, R320)
(log 58). -/
def Device.lantOff (d : Device) : Device :=
  let l := d.lant
  let d := ((d.padHold 0).domReset 0 3).domReset 0 2
  let d := { d with clk := { d.clk with lampRun := false } }
  let d := d.onLant fun _ => { Lantern.reset with clients := l.clients, links := l.links }
  d.onEv fun e =>
    let pend := e.pending &&& BitVec.ofNat 256 (2 ^ 24 - 1)
    { e with queue := [], pending := pend, occ := e.occ.filter fun x => decide (x.1 < 24), defer := BitVec.setWidth 24 pend }

/-- Moored: DRAM loses its contents, and with them spool, roster and the copies of R319. -/
def Device.moor (d : Device) : Device :=
  let d := (d.dramLost.onKeep fun _ => Keeper.reset).onCiph fun _ => Cipher.reset
  (d.onLant fun _ => Lantern.reset).onStart fun s => { s with pwrGood := false }

/-- ENTRY_COMPLETE: once the jobs in flight at t0 have ended, the steps of Table 15.2 are done and the low-power state
is reached (log 57). -/
def entryComplete (d : Device) : Device :=
  if d.pwr.st ≠ 1 ∨ d.lant.eclipseFlag = false ∨ d.ciph.jobs ≠ [] then d
  else
    let target := d.pwr.target
    let masks := d.alertMasks
    let d := ((d.padHold 1).padHold 2).padHold 3
    let d := [4, 5, 6, 9].foldl (fun d n => d.domReset 0 n) d
    let d := (d.ciphOff.logFlush.domReset 0 8).domReset 0 1
    let d := if target = 1 then d else d.lantOff
    let d := if target = 3 then d.moor else d
    let d := d.onEv fun e => { e with alertCopy := masks }
    let d := d.onPwr fun p => { p with st := target + 1, entryAt := none, firstTick := false, tickAt := none }
    d.raise 4 0

/-! ## The Eclipse sequencer (R324) -/

/-- A value has gone from inside its limits to outside them; `lowOff` and `highOff` say which limits are off. -/
def crossed (lo hi : Int) (lowOff highOff : Bool) (was now : Int) : Bool :=
  let inside (x : Int) : Bool := (lowOff || decide (lo ≤ x)) && (highOff || decide (x ≤ hi))
  inside was && !inside now

/-- Limits crossed by VIN and by the die temperature since the last run. -/
def Device.vinCrossed (d : Device) (mv : Nat) : Bool :=
  let lo := d.cf Reg.MOOR_VIN_THRESH 15 0
  let hi := d.cf Reg.MOOR_VIN_THRESH 31 16
  crossed lo hi (lo == 0) (hi == 0xFFFF) d.pwr.sampleVin mv
def Device.tempCrossed (d : Device) (temp : BitVec 16) : Bool :=
  let lo := sfld (d.cfg Reg.MOOR_TEMP_THRESH) 15 0
  let hi := sfld (d.cfg Reg.MOOR_TEMP_THRESH) 31 16
  crossed lo hi (lo == -32768) (hi == 32767) d.pwr.sampleTemp.toInt temp.toInt

/-- tick_ms of the RTC have passed since the last run; what precedes the first run after entry is open (R324) (log 56). -/
def Device.tickDue (d : Device) : Bool :=
  match d.pwr.tickAt with
  | none => true
  | some k => decide (k * 1000 + max 10 (d.cf Reg.MOOR_SEQ_CTRL 15 0) * 32768 ≤ d.rtcTicks * 1000)

/-- SEQUENCER_TICK: one run; the first after entry only records. -/
def sequencerTick (vinMv : Nat) (temp : BitVec 16) (d : Device) : Device :=
  if (d.pwr.st ≠ 2 ∧ d.pwr.st ≠ 3 ∧ d.pwr.st ≠ 4) ∨ d.tickDue = false then d
  else
    let mv := min 65535 vinMv
    let v := d.pwr.firstTick && d.vinCrossed mv
    let t := d.pwr.firstTick && d.tempCrossed temp
    let d := (d.onPwr fun p => { p with vin := vinMv, sampleVin := mv, sampleTemp := temp, firstTick := true, tickAt := some d.rtcTicks }).thermSample temp
    let d := d.tempGroups temp
    let d := if v then d.latchSet 1 else d
    let d := if t then d.latchSet 2 else d
    let d := if v || t then d.raise 9 0 else d
    if d.gpioFires then d.latchSet 0 else d

/-- RTC_ALARM: the RTC reaches the second that is set (Table 15.4). -/
def rtcAlarm (d : Device) : Device :=
  let a := (d.cfg Reg.MOOR_RTC_ALARM).toNat
  if a ≠ 0 ∧ d.start.powered = true ∧ d.rtcSec % 4294967296 = a then d.latchSet 4 else d

/-! ## Exit (R326, R327) -/

/-- The lowest latched source that may wake. -/
def Device.wakeSource (d : Device) : Option Nat :=
  (bitsOf (d.pwr.latch &&& BitVec.ofNat 7 (d.cf Reg.MOOR_WAKE_EN 6 0)) 7).head?

/-- D2 or D3 in FAULT in Eclipse also ends it (Table 17.6). -/
def Device.eclipseFault (d : Device) : Bool := d.pwr.st == 2 && (d.domSt 2 == 5 || d.domSt 3 == 5)

/-- The exit from Eclipse: D1 is released, and the boot ROM runs with D2 and D3 in service; parent_miss restarts
(log 51). -/
def Device.exitEclipse (d : Device) : Device :=
  let d := d.startCommon true (some 2)
  let d := [1, 4, 5, 6, 7, 8, 9].foldl (fun d n => d.domEnter n 1) d
  (d.onRelay fun r => { r with miss := 0 }).keeperRelease

/-- The exit from Deep Eclipse: a warm start whose retained bank is not kept (log 51, 58). -/
def Device.exitDeep (d : Device) : Device :=
  let d := (d.startCommon true (some 3)).onLL LightList.clear
  let d := [1, 2, 3, 4, 5, 6, 7, 8, 9].foldl (fun d n => d.domEnter n 1) d
  (d.inc Reg.MOOR_WARM_CNT).keeperRelease

/-- WAKE_EXIT: an enabled latched source, or a fault, ends the low-power state; the boot ROM's runs on the DRAM are
given with it, but for Moored, whose rails come up first (log 51). -/
def wakeExit (runs : List TrainRun) (d : Device) : Device :=
  let st := d.pwr.st
  if st < 2 ∨ 4 < st ∨ (d.wakeSource = none ∧ d.eclipseFault = false) then d
  else
    let last := d.wakeSource.getD d.pwr.lastWake
    let d := (d.onPwr fun p => { p with st := 5, lastWake := last }).inc Reg.MOOR_WAKE_CNT
    if st = 2 then bringUp runs d.exitEclipse
    else if st = 3 then bringUp runs d.exitDeep
    else d.coldStart 0 (some 4)

/-! ## Pad release (R330) -/

/-- PAD_RELEASE (log 47). -/
def Device.padRelease (d : Device) (groups : BitVec 4) : Device :=
  (bitsOf groups 4).foldl (fun d g =>
    let ok := if g = 3 then !d.domDown 1 else d.domSt (bandDom (padBand g)) == 3
    if ok then d.onPwr fun p => { p with padHold := clrBit p.padHold g } else d.raise 11 0) d
def padRelease (groups : BitVec 4) (d : Device) : Device := d.keeperAccess Reg.MOOR_PAD_RELEASE fun d => d.padRelease groups

/-! ## Meanings -/

/-- PWR_REQUEST_ECLIPSE (R318). -/
def execPwrRequestEclipse (t : Time) (s : State) : Host.Outcome State Fault Refusal := s.act t (pwrRequest 1)

/-- PWR_REQUEST_DEEP_ECLIPSE (R318). -/
def execPwrRequestDeepEclipse (t : Time) (s : State) : Host.Outcome State Fault Refusal := s.act t (pwrRequest 2)

/-- PWR_REQUEST_MOORED (R318). -/
def execPwrRequestMoored (t : Time) (s : State) : Host.Outcome State Fault Refusal := s.act t (pwrRequest 3)

/-- PWR_REQUEST_ACCEPT (R318). -/
def execPwrRequestAccept (t : Time) (s : State) : Host.Outcome State Fault Refusal := s.act t pwrRequestAccept

/-- ENTRY_COMPLETE (R326). -/
def execEntryComplete (t : Time) (s : State) : Host.Outcome State Fault Refusal := s.act t entryComplete

/-- SEQUENCER_TICK (R324). -/
def execSequencerTick (t : Time) (vinMv : Nat) (temp : BitVec 16) (s : State) : Host.Outcome State Fault Refusal :=
  s.act t (sequencerTick vinMv temp)

/-- RTC_ALARM (R325). -/
def execRtcAlarm (t : Time) (s : State) : Host.Outcome State Fault Refusal := s.act t rtcAlarm

/-- WAKE_EXIT (R327). -/
def execWakeExit (t : Time) (runs : List TrainRun) (s : State) : Host.Outcome State Fault Refusal := s.act t (wakeExit runs)

/-- PAD_RELEASE (R330). -/
def execPadRelease (t : Time) (groups : BitVec 4) (s : State) : Host.Outcome State Fault Refusal := s.act t (padRelease groups)

end Sys2Proof.Machine
end

