-- ==== Sys2Proof/Machine/Recovery.lean ====
section
/-! DEFINITION. Brown-out, loss of Mooring's power, the thermal trip, watches, and the steps of the recovery ladder
(R363 to R370, R380, R381, R393). -/

namespace Sys2Proof.Machine

/-! ## Brown-out (R363, Table 17.4) -/

/-- A record written at once, ahead of every request but the commit in progress. -/
def Log.writeNow (l : Log) (b : Bytes) : Log :=
  let recs : List LogRec := l.cur.toList ++ [⟨b, false⟩]
  Log.pump (recs.foldl Log.store { l with cur := none })

/-- The flag hold_up of a record that was requested before (Table 17.2) (log 54). -/
def heldUp (b : Bytes) : Bytes := splice b 20 [(b[20]?).getD 0 ||| 0x40]

/-- Record 1: VIN, power state, role, MOOR_START, group-0 pending bits (Table 17.3). -/
def Device.brownBytes (d : Device) (mv : Nat) : Bytes :=
  d.logBytes 4 (beBytes 2 (min 65535 mv) ++ beBytes 1 d.pwr.st ++ beBytes 1 d.twin.role ++ beBytes 4 (d.moorWord 0x40)
    ++ beBytes 4 (fld d.ev.pending 23 0)) true

/-- A SNAPSHOT: all pending bits and the queue's fill. -/
def Device.snapBytes (d : Device) : Bytes := d.logBytes 5 (beBytes 32 d.ev.pending.toNat ++ beBytes 2 d.ev.queue.length) true

/-- Record 2: the held record, else the oldest request not yet committed, else a SNAPSHOT. -/
def Device.brownSecond (d : Device) : Bytes :=
  match d.log.held, d.log.exempt ++ d.log.wait with
  | some r, _ => heldUp r.bytes
  | none, r :: _ => heldUp r.bytes
  | none, [] => d.snapBytes

/-- What the Log unit commits on VHOLD: with D1 off Mooring writes record 1 alone; below 12 V nothing is committed
(log 54). -/
def Device.brownLog (d : Device) (mv : Nat) : Device :=
  if d.vholdMv < 12000 then d
  else if d.domDown 1 then d.onLog fun l => l.writeNow (d.brownBytes mv)
  else
    let second := d.brownSecond
    let first := d.brownBytes mv
    d.onLog fun l => ({ l with exempt := [], wait := [] }.writeNow first).writeNow second

/-- PA_EN goes inactive, a lit twin drives YIELD, and the rails switch off; the ladder's instances end (log 46). -/
def Device.railsDrop (d : Device) : Device :=
  let d := d.padHoldAll.onTwin fun t =>
    { t with hbOut := if t.role = 2 then .yield else t.hbOut, yieldAt := if t.role = 2 then d.clk.now else t.yieldAt, yielding := t.yielding || t.role == 2, handover := none, takeAt := none }
  let d := d.railsOff.onTender fun k => { k with ladders := [], faultWait := [] }
  let d := d.onStart fun s => { s with todo := [], bringUp := false, waking := none }
  d.onPwr fun p => { p with st := 0, target := 0, held := false, entryAt := none }

/-- Adds an event to those owed at the next completed start (log 49). -/
def Device.owe (d : Device) (ev : Nat) : Device :=
  d.onStart fun s => { s with owe := if s.owe.contains ev then s.owe else s.owe ++ [ev] }

/-- BROWNOUT: VIN below 7.2 V for 5 µs, in any state with Mooring powered from VIN (log 54). -/
def brownout (vinMv : Nat) (d : Device) : Device :=
  if !d.start.powered || decide (7200 ≤ vinMv) || decide (d.pwr.vin < 7200) then d
  else
    let d := (d.brownLog vinMv).freeNext
    ((d.railsDrop.onPwr fun p => { p with vin := vinMv }).inc Reg.MOOR_BROWNOUT_CNT).owe 21

/-- MOORING_POWER_LOSS: with VIN absent and the rails off, VHOLD no longer supplies Mooring (R381) (log 54). -/
def mooringPowerLoss (d : Device) : Device :=
  if d.start.powered && decide (d.pwr.vin < 7200) && !d.start.pwrGood then d.powerOn else d

/-! ## The thermal trip (R393) -/

/-- THERMAL_TRIP: no Log record is written, and the rails stay off. -/
def thermalTrip (d : Device) : Device :=
  if !d.start.powered || d.pwr.tripped then d
  else ((d.railsDrop.onPwr fun p => { p with tripped := true }).inc Reg.MOOR_THERM_TRIP_CNT).owe 41

/-- THERMAL_RELEASE: a cold start with cause LADDER_4 follows, which the ladder does not count. -/
def thermalRelease (d : Device) : Device :=
  if !d.pwr.tripped then d
  else
    let d := d.onPwr fun p => { p with tripped := false }
    if 7200 ≤ d.pwr.vin ∧ d.start.resetLow = none then d.coldStart 4 none else d

/-! ## Watches (R365) -/

/-- A kick ends a watch's expiry and its retry, and may be the recovery that an instance waits for (log 70). -/
def Device.kick (d : Device) (mask : BitVec 16) : Device :=
  ((bitsOf mask 16).foldl Device.watchFresh d).ladderReap

/-- WATCH_KICK. -/
def watchKick (mask : BitVec 16) (d : Device) : Device := d.keeperAccess Reg.MOOR_WATCH_KICK fun d => d.kick mask

/-- For how long a watch has not been kicked, pauses left out; a watch of D1 pauses while a core is halted. -/
def Device.watchAge (d : Device) (w : Nat) : Time := d.clk.now - (d.watch w).kicked - (d.watch w).paused

/-- WATCH_EXPIRY: an enabled watch that does not pause was not kicked for its period; a kick in the cycle of expiry wins. -/
def watchExpiry (w : Fin 16) (kicked : Bool) (d : Device) : Device :=
  let n := w.val
  if kicked || !d.start.powered || !d.watchOn n || d.watchPaused n || (d.watch n).expired || decide (d.watchAge n < d.watchPeriod n) then d
  else
    let d := (d.onWatch n fun x => { x with expired := true }).raise 25 (w32 n)
    d.ladderStart (d.watchDom n) (some n) (d.watchFirst n) 1

/-- A command of the instant `t` that kicks watch `w`: WATCH_KICK, or a write to its register. -/
def Instr.kicks (t : Time) (w : Fin 16) : Instr → Bool
  | .watchKick t' mask => t' == t && bitOf mask w
  | .registerWrite t' _ addr width v => t' == t && addr == Reg.MOOR_WATCH_KICK && width == 4 && bitOf v w
  | _ => false

/-! ## The ladder's steps (R366, R367, Table 17.5) -/

/-- A step that must wait: for a reload that names its domain, or for the 2 ms of YIELD (log 52). -/
def Device.stepHeld (d : Device) (l : Ladder) : Bool :=
  (l.step == 2 && decide (3 ≤ d.ll.stage) && (bitOf d.ll.reloadMask l.dom || l.dom == 1))
    || (decide (3 ≤ l.step) && d.twin.role == 2 && d.twin.yielding && decide (d.clk.now < l.since + 2 * msec))

/-- A step waits as well for another that the same Mooring cycle called for: the higher step runs first, and at equal steps the
lower domain (Table 17.6) (log 52). -/
def Device.stepWaits (d : Device) (l : Ladder) : Bool :=
  d.stepHeld l || d.tender.ladders.any fun x =>
    x.dom != l.dom && !x.running && x.since == l.since && (decide (l.step < x.step) || (x.step == l.step && decide (x.dom < l.dom)))
      && !d.stepHeld x

/-- Step 1: the retry bit of the instance's watch, or of every enabled watch of the domain. -/
def Device.stepRetry (d : Device) (l : Ladder) : Device :=
  let ws := match l.watch with
    | some w => [w]
    | none => d.watchesOf l.dom
  ws.foldl (fun d w => d.onWatch w fun x => { x with retry := true }) d

/-- D1's re-initialisation: firmware restarts, the fabric and the Log unit begin anew, a staging in hand is discarded
(log 19, 52). -/
def Device.keeperRestart (d : Device) : Device :=
  let nonce : DWord := BitVec.ofNat 64 d.freeVal
  let d := (d.evReset.freeNext.onKeep fun k => { k with bootNonce := nonce }).onLL fun l =>
    { l with stage := 0, staged := [], delta := [], changed := 0, digestChk := 0, twinSeen := false, twinMatch := false
             parentSeen := false, parentMatch := false, twinNow := false, parentNow := false }
  d.evOpen.logScan

/-- Step 2: the domain enters RESET, then LOADING from the active bank, keeping what Table 12.10 keeps. -/
def Device.stepInit (d : Device) (n : Nat) : Device :=
  let d := d.bandsVoid (maskBands (BitVec.twoPow 10 n)) d.lampSf
  let d := (d.domHold 2 n).gateWatch
  let d := if n = 1 then d.keeperRestart else d
  match d.domLoad n 2 with
  | some d => d
  | none => d.sectionBad

/-- The LADDER record (Table 17.3). -/
def Device.ladderRecord (d : Device) (l : Ladder) (watch : Nat) : Bytes :=
  d.logBytes 3 (beBytes 1 l.dom ++ beBytes 1 l.step ++ beBytes 1 l.trigger ++ beBytes 1 watch ++ beBytes 4 d.ladderStatus.toNat) false

/-- Runs the step of an instance: the record is committed, counted and announced, then the step acts. -/
def Device.stepRun (d : Device) (l : Ladder) : Device :=
  let watch := l.watch.getD (d.freeVal % 16)
  let l' := { l with running := true, since := d.clk.now }
  let now := d.clk.now
  let d := (d.freeNext.ladderPut l').onTender fun t =>
    { t with lastDom := l.dom, lastStep := l.step, lastTrigger := l.trigger, lastWatch := watch
             runs3 := if l.step = 3 ∧ l.requested = false then t.runs3 ++ [now] else t.runs3
             runs4 := if l.step = 4 ∧ l.requested = false then t.runs4 ++ [now] else t.runs4 }
  let d := if d.domDown 1 then d else d.onLog fun k => k.writeNow (d.ladderRecord l watch)
  let d := (d.inc (Reg.MOOR_LADDER_STEP_CNT (l.step - 1))).raise 22 (w32 (l.dom * 256 + l.step))
  let alone (d : Device) : Device := d.onTender fun t => { t with ladders := [l'] }
  match l.step with
  | 1 => d.stepRetry l
  | 2 => d.stepInit l.dom
  | 3 => if d.start.pwrGood then (alone d).warmStart 3 else (alone d).coldStart 3 none
  | _ => (alone d).coldStart 4 none

/-- LADDER_STEP: the next step of a domain's instance. -/
def ladderStep (n : Fin 10) (d : Device) : Device :=
  match d.ladderOf n.val with
  | none => d
  | some l => if l.running || d.start.resetLow.isSome || d.pwr.tripped || d.stepWaits l then d else d.stepRun l

/-- Deadline of a step (Table 17.5). -/
def Device.stepLimit (d : Device) (l : Ladder) : Time :=
  match l.step with
  | 1 => (l.watch.map d.watchRetry).getD (100 * msec)
  | 2 => if l.dom = 1 then 2 * sec else if l.dom = 8 then 20 * msec else startLimit l.dom
  | 3 => 5 * sec
  | _ => 10 * sec

/-- LADDER_DEADLINE: a step that has not recovered its domain in time escalates. -/
def ladderDeadline (n : Fin 10) (d : Device) : Device :=
  match d.ladderOf n.val with
  | none => d
  | some l =>
    if !l.running || decide (d.clk.now < l.since + d.stepLimit l) then d
    else (d.onTender fun t => { t with lastResult := 2 }).ladderPlan { l with step := min 4 (l.step + 1), requested := false }

/-- LADDER_REQUEST: a write of go = 1 to MOOR_LADDER_CMD; a request that R369 refuses has no effect. -/
def Device.ladderCmd (d : Device) (n step : Nat) : Device := (d.ladderAsk 5 n step).getD d
def ladderRequest (n step : Nat) (d : Device) : Device := d.keeperAccess Reg.MOOR_LADDER_CMD fun d => d.ladderCmd (n % 16) (step % 8)

/-- LADDER_HALT_CLEAR. -/
def ladderHaltClear (d : Device) : Device := d.keeperAccess Reg.MOOR_LADDER_CMD fun d => d.haltClear

/-! ## Meanings -/

/-- BROWNOUT (R363). -/
def execBrownout (t : Time) (vinMv : Nat) (s : State) : Host.Outcome State Fault Refusal := s.act t (brownout vinMv)

/-- MOORING_POWER_LOSS (R381). -/
def execMooringPowerLoss (t : Time) (s : State) : Host.Outcome State Fault Refusal := s.act t mooringPowerLoss

/-- THERMAL_TRIP (R393). -/
def execThermalTrip (t : Time) (s : State) : Host.Outcome State Fault Refusal := s.act t thermalTrip

/-- THERMAL_RELEASE (R393). -/
def execThermalRelease (t : Time) (s : State) : Host.Outcome State Fault Refusal := s.act t thermalRelease

/-- WATCH_KICK (R365). -/
def execWatchKick (t : Time) (mask : BitVec 16) (s : State) : Host.Outcome State Fault Refusal := s.act t (watchKick mask)

/-- WATCH_EXPIRY (R365). -/
def execWatchExpiry (t : Time) (w : Fin 16) (s : State) : Host.Outcome State Fault Refusal := 
  s.act t (watchExpiry w (s.pending.any (Instr.kicks t w)))

/-- LADDER_STEP (R367). -/
def execLadderStep (t : Time) (d : Fin 10) (s : State) : Host.Outcome State Fault Refusal := s.act t (ladderStep d)

/-- LADDER_DEADLINE (R367). -/
def execLadderDeadline (t : Time) (d : Fin 10) (s : State) : Host.Outcome State Fault Refusal := s.act t (ladderDeadline d)

/-- LADDER_REQUEST (R369). -/
def execLadderRequest (t : Time) (d step : Nat) (s : State) : Host.Outcome State Fault Refusal := s.act t (ladderRequest d step)

/-- LADDER_HALT_CLEAR (R368). -/
def execLadderHaltClear (t : Time) (s : State) : Host.Outcome State Fault Refusal := s.act t ladderHaltClear

end Sys2Proof.Machine
end

