-- ==== Sys2Proof/Machine/Bus.lean ====
section
/-! DEFINITION. Writes on the system bus: a register's bits by their access codes, a command register's effect, and the
memory windows (R6, R11, R12, R14, R20). -/

namespace Sys2Proof.Machine

/-! ## Command registers (WO) -/

/-- Command registers of D0. -/
def Device.moorCmd (d : Device) (off : Nat) (v : Word) : Device :=
  match off with
  | 0x50088 =>
    let d := if bitOf v 31 then d.handoverGo (fld v 7 0) else d
    if bitOf v 30 then d.forceGo else d
  | 0x20004 => d.padRelease (BitVec.ofNat 4 (fld v 3 0))
  | 0x30000 => if bitOf v 31 then d.pwrGo (fld v 1 0) else d
  | 0x50000 =>
    let d := if bitOf v 30 then d.haltClear else d
    if bitOf v 31 then d.ladderCmd (fld v 11 8) (fld v 2 0) else d
  | 0x50010 => d.kick (BitVec.ofNat 16 (fld v 15 0))
  | _ => d

/-- Command registers of D1; `i` is the unit's number. -/
def Device.keepCmd (d : Device) (off _i : Nat) (v : Word) : Device :=
  match off with
  | 0x50160 => if bitOf v 31 then d.reloadGo (BitVec.ofNat 10 (fld v 9 0)) else d
  | 0x20090 => if bitOf v 0 then evPop d else d
  | 0x60100 => if bitOf v 31 then logCommit d else d
  | _ => d

/-- Command registers of D2. -/
def Device.lantCmd (d : Device) (off i : Nat) (v : Word) : Device :=
  match off with
  | 0x10010 => if bitOf v 31 then d.planGo (fld v 7 0) else d
  | 0x10054 =>
    if bitOf v 31 then d.profileGo (fld v 11 8) (fld v 5 0) else if bitOf v 30 then profileSwitchCancel d else d
  | 0x20034 => d.onRef (if i = 0 then .a else .b) fun r => { r with feedLo := v }
  | 0x20038 => domFeed (if i = 0 then .a else .b) v d
  | _ => d

/-- Command registers of D6; `i` is the port of PKT_GATE_CTRL. -/
def Device.pktCmd (d : Device) (off i : Nat) (v : Word) : Device :=
  let t : Fin 4 := Fin.ofNat 4 (fld v 29 28)
  let index : BitVec 15 := BitVec.ofNat 15 (fld v 14 0)
  match off with
  | 0x20040 =>
    (match fld v 31 30 with
    | 0 => tblRead t index d
    | 1 => tblWrite t index d
    | 2 => tblClear t index d
    | _ => tblHash t d)
  | 0x30200 => if bitOf v 31 then d.genCommitReq else d
  | 0x50400 => if bitOf v 30 then d.gateSwapReq i else d
  | 0x60014 =>
    (match fld v 31 30 with
    | 1 => d.meterStore (bitOf v 3) (fld v 1 0)
    | 2 => d.meterLoad
    | _ => d)
  | _ => d

/-- The effect of the WO bits of a write. -/
def Device.cmdWrite (d : Device) (n off i : Nat) (v : Word) : Device :=
  if off = 8 then d.snapWrite n v
  else
    match n with
    | 0 => d.moorCmd off v
    | 1 => d.keepCmd off i v
    | 2 => d.lantCmd off i v
    | 6 => d.pktCmd off i v
    | 7 => if off = 0x20010 then kdfCmd v d else d
    | 9 => if off = 0x10004 ∧ bitOf v 31 = true then d.retrain else d
    | _ =>
      if (n = 3 ∨ n = 4 ∨ n = 5) ∧ off = 0x10014 then
        let b := bandOfNum (n - 3)
        let g : Fin 16 := Fin.ofNat 16 (fld v 3 0)
        if bitOf v 31 then calCmdForce b g d else calCmdPending b g d
      else d

/-! ## Write-1-to-clear bits -/

/-- The effect of the W1C bits of a write. -/
def Device.w1cWrite (d : Device) (n off i : Nat) (v : Word) : Device :=
  let v := d.w1c (0x10000000 + 0x01000000 * n + off + 4 * i) v
  match n, off with
  | 0, 0x10014 => d.onPwr fun p => { p with latch := p.latch &&& ~~~ BitVec.setWidth 7 v }
  | 1, 0x20000 => d.onEv fun e => e.clearPend i v
  | 1, 0x60104 => if bitOf v 29 then d.onLog fun l => { l with error := false } else d
  | 6, 0x20044 => if bitOf v 30 then d.onPkt fun p => { p with tblError := false } else d
  | 6, 0x30204 => if bitOf v 14 then d.onPkt fun p => { p with refused := false } else d
  | _, _ => d

/-! ## One write -/

/-- What a write to a check-value unit is, by its offset (Table 11.7); the settings are stored as any register. -/
def cvOpAt (off : Nat) (v : Word) : Option CvOp :=
  match off with
  | 0x30004 => if bitOf v 0 then some .start else none
  | 0x30020 => some (.stateLo v)
  | 0x30024 => some (.stateHi v)
  | 0x30030 => some (.feed v)
  | _ => none

/-- A write of 32 bits, by a requester, to a register that is in service: RW bits are stored, LL and RO bits are not touched, W1C bits
that are written 1 are cleared, WO bits have their effect (Table 0.4). -/
def Device.regWrite (d : Device) (req addr : Nat) (v : Word) : Device :=
  match regAt addr with
  | none => d
  | some (r, i) =>
    let n := (addr - 0x10000000) / 0x01000000
    if n = 1 ∧ (cvOpAt r.off v).isSome then d.cvPut req i ((cvOpAt r.off v).getD .start)
    else
    let d := if r.rw = 0 then d else d.regMerge addr (w32 r.rw) v
    let d := if r.w1c = 0 then d else d.w1cWrite n r.off i v
    if r.wo = 0 then d else d.cmdWrite n r.off i v

/-- A write to the domain register space, which Keeper may refuse (R11, R14). -/
def Device.busWrite (d : Device) (req addr width : Nat) (v : Word) : Device :=
  d.access req addr width fun d => d.regWrite req addr v

/-! ## The system-bus map (Table 1.2) -/

/-- What lies at an address: 0 boot ROM, 1 Keeper shared SRAM, 2 registers, 3 DRAM; none: no contents (log 63). -/
def busWindow (addr : Nat) : Option Nat :=
  if addr < 0x00040000 then some 0
  else if 0x01000000 ≤ addr ∧ addr < 0x01200000 then some 1
  else if 0x10000000 ≤ addr ∧ addr < 0x1A000000 then some 2
  else if 0x200000000 ≤ addr ∧ addr < 0x400000000 then some 3
  else none

/-- Stores the bytes of a word, most significant first, in a memory window (log 64). -/
def Device.memWrite (d : Device) (addr : Nat) (v : Word) : Device :=
  d.onMem fun m => { m with bytes := writeBytes m.bytes addr (beBytes 4 v.toNat) }

/-- REGISTER_WRITE in the window that the address names; the boot ROM ignores it (log 12, 63). -/
def registerWrite (req addr width : Nat) (v : Word) (d : Device) : Device :=
  match busWindow addr with
  | some 2 => d.busWrite req addr width v
  | some 0 => d
  | some _ => d.memWrite addr v
  | none => d

/-! ## Meanings -/

/-- REGISTER_WRITE (R6); an address that Table 1.2 gives no contents faults (R12). -/
def execRegisterWrite (t : Time) (req addr width : Nat) (v : Word) (s : State) : Host.Outcome State Fault Refusal :=
  match busWindow addr with
  | none => .fault (.busHole addr)
  | some _ => s.act t (registerWrite req addr width v)

end Sys2Proof.Machine
end

