-- ==== Sys2Proof/Machine/Debug.lean ====
section
/-! DEFINITION. The TAP, the debug unlock and core debug (R371 to R374). -/

namespace Sys2Proof.Machine

/-! ## The TAP (Table 17.7) -/

/-- An instruction acts as BYPASS: the pads follow the device, and one bit 0 is captured. -/
def Device.tapBypass (d : Device) : Device := (d.onDbg fun k => { k with ir := 0x1F, drive := 0 }).emit (.tap 0)

/-- EXTEST, CLAMP and HIGHZ act as listed when the port is unlocked or RESET_N is low. -/
def Device.tapDrives (d : Device) : Bool := d.dbg.unlocked || d.start.resetLow.isSome

/-- EXTEST: the boundary register drives the pads; which pad a cell belongs to is not given, so what it captures is
open (log 61). -/
def extest (boundary : Nat) (d : Device) : Device :=
  if !d.tapDrives then d.tapBypass
  else ((d.onDbg fun k => { k with ir := 0x00, drive := 1, boundary := boundary }).emit (.tap d.freeVal)).freeNext

/-- SAMPLE/PRELOAD: the pads are captured and the boundary register is loaded, and the device goes on driving
(log 61). -/
def samplePreload (boundary : Nat) (d : Device) : Device :=
  ((d.onDbg fun k => { k with ir := 0x01, drive := 0, boundary := boundary }).emit (.tap d.freeVal)).freeNext

/-- IDCODE. -/
def tapIdcode : Nat := 0x2D33809D
def idcode (d : Device) : Device := (d.onDbg fun k => { k with ir := 0x02, drive := 0 }).emit (.tap tapIdcode)

/-- CLAMP: the pads are held by the boundary register, and the bypass register is between TDI and TDO. -/
def clamp (d : Device) : Device :=
  if !d.tapDrives then d.tapBypass else (d.onDbg fun k => { k with ir := 0x03, drive := 1 }).emit (.tap 0)

/-- HIGHZ: the pads are in high impedance. -/
def highz (d : Device) : Device :=
  if !d.tapDrives then d.tapBypass else (d.onDbg fun k => { k with ir := 0x04, drive := 2 }).emit (.tap 0)

/-- BYPASS, by its own code or one that is not listed. -/
def bypass (_code : BitVec 5) (d : Device) : Device := d.tapBypass

/-! ## The unlock (R372) -/

/-- K_dbg. -/
def Device.debugKey (d : Device) : Block := kdfBlock d.otp.key 1 labelDebug (beBytes 8 d.otp.serial.toNat) 128

/-- The port is blocked after a mismatch. -/
def Device.dbgBlocked (d : Device) : Bool :=
  match d.dbg.blocked with
  | some t => decide (d.clk.now < t)
  | none => false

/-- A DEBUG record (Table 17.3). -/
def Device.dbgRecord (d : Device) (result : Nat) : Device := d.logReq 6 (beBytes 1 result ++ beBytes 1 d.dbg.failRun) false

/-- DBG_CHAL: a fresh challenge while the port is locked and not blocked; it reads 0 otherwise (log 60). -/
def dbgChal (random : Block) (d : Device) : Device :=
  let d := d.onDbg fun k => { k with ir := 0x10, drive := 0 }
  if d.dbg.unlocked || d.dbgBlocked then d.emit (.tap 0)
  else (d.onDbg fun k => { k with challenge := some (random, d.clk.now) }).emit (.tap random.toNat)

/-- The response that opens the port: the CMAC under K_dbg over the challenge and the serial. -/
def Device.dbgMatch (d : Device) (response : Block) : Bool :=
  match d.dbg.challenge with
  | some (c, t) => decide (d.clk.now ≤ t + 60 * sec) && cmac d.debugKey (blockBytes c ++ beBytes 8 d.otp.serial.toNat) == response
  | none => false

/-- DBG_RESP: one response to the challenge held; a mismatch blocks the port for 2^(f − 1) s, 4,096 s at most
(log 60). -/
def dbgResp (response : Block) (d : Device) : Device :=
  if d.dbg.unlocked then d.tapBypass
  else
    let d := d.onDbg fun k => { k with ir := 0x11, drive := 0 }
    if d.dbgBlocked then d
    else if d.dbgMatch response then
      ((d.onDbg fun k => { k with unlocked := true, failRun := 0, challenge := none, blocked := none }).raise 29 0).dbgRecord 0
    else
      let f := min 255 (d.dbg.failRun + 1)
      let until_ := d.clk.now + min 4096 (2 ^ (f - 1)) * sec
      ((d.onDbg fun k => { k with failRun := f, challenge := none, blocked := some until_ }).raise 30 (w32 f)).dbgRecord 1

/-- DBG_BLOCK_EXPIRY: the block of a mismatch has passed. -/
def dbgBlockExpiry (d : Device) : Device := if d.dbgBlocked then d else d.onDbg fun k => { k with blocked := none }

/-- A write of relock locks the port. -/
def Device.dbgLock (d : Device) : Device := if d.dbg.unlocked then (d.onDbg fun k => { k with unlocked := false }).dbgRecord 2 else d

/-- DBG_RELOCK. -/
def dbgRelock (d : Device) : Device := d.dbgLock

/-! ## Cores (R373) -/

/-- The cores run while D1 is in service. -/
def Device.coresRun (d : Device) : Bool := !d.domDown 1
def Device.core (d : Device) (n : Nat) : Core := d.dbg.cores.get Core.reset n
def Device.onCore (d : Device) (n : Nat) (f : Core → Core) : Device :=
  d.onDbg fun k => { k with cores := k.cores.upd Core.reset n f }

/-- A core halts, with the address of its next instruction (log 61). -/
def Device.coreHalt (d : Device) (n reason : Nat) (pc : Word) : Device :=
  ((d.onCore n fun c => { c with halted := true, reason := reason, pc := pc }).onDbg fun k =>
    { k with haltAt := some (k.haltAt.getD d.clk.now) }).raise 31 (w32 n)

/-- A halt write. -/
def Device.haltReq (d : Device) (n : Nat) : Device :=
  if (d.core n).halted || !d.coresRun then d else (d.coreHalt n 1 (w32 d.freeVal)).freeNext

/-- The watches of D1 go on where the last halted core resumes (R365). -/
def Device.haltOver (d : Device) : Device :=
  match d.dbg.haltAt with
  | none => d
  | some t =>
    if d.dbg.cores.any fun c => c.2.halted then d
    else
      let d := d.onDbg fun k => { k with haltAt := none }
      (List.range 16).foldl (fun d w => if d.watchDom w = 1 then
        d.onWatch w fun x => { x with paused := x.paused + (d.clk.now - max t x.kicked) } else d) d

/-- A resume write. -/
def Device.resumeReq (d : Device) (n : Nat) : Device := (d.onCore n fun c => { c with halted := false, reason := 0 }).haltOver

/-- A step write: a halted core executes one instruction and halts again. -/
def Device.stepReq (d : Device) (n : Nat) : Device :=
  if (d.core n).halted && d.coresRun then (d.coreHalt n 2 (w32 d.freeVal)).freeNext else d

/-- DBG_HALT, DBG_RESUME and DBG_STEP: writes that only an unlocked port makes. -/
def dbgHalt (n : Fin 4) (d : Device) : Device := if d.dbg.unlocked then d.haltReq n.val else d
def dbgResume (n : Fin 4) (d : Device) : Device := if d.dbg.unlocked then d.resumeReq n.val else d
def dbgStep (n : Fin 4) (d : Device) : Device := if d.dbg.unlocked then d.stepReq n.val else d

/-- DBG_BREAKPOINT: a running core reaches an enabled breakpoint, and halts before the instruction. -/
def dbgBreakpoint (n i : Fin 4) (d : Device) : Device :=
  let bp := (d.core n.val).bp.get 0 i.val
  if bitOf bp 0 && !(d.core n.val).halted && d.coresRun then d.coreHalt n.val 3 (bp &&& 0xFFFFFFFC) else d

/-- An access lies in a watchpoint's aligned range, in a direction that it matches. -/
def Core.watches (c : Core) (j : Nat) (addr : Word) (write : Bool) : Bool :=
  let ctl := c.wpCtl.get 0 j
  let size := min 20 (fld ctl 4 0)
  bitOf ctl 31 && (if write then bitOf ctl 30 else bitOf ctl 29)
    && decide (addr.toNat / 2 ^ size = (c.wpAddr.get 0 j).toNat / 2 ^ size)

/-- DBG_WATCHPOINT: a core's access that a watchpoint matches halts it after the access. -/
def dbgWatchpoint (n : Fin 4) (addr : Word) (write : Bool) (d : Device) : Device :=
  let c := d.core n.val
  if (c.watches 0 addr write || c.watches 1 addr write) && !c.halted && d.coresRun then
    (d.coreHalt n.val 4 (w32 d.freeVal)).freeNext
  else d

/-! ## DBG_ACCESS (Table 17.8) -/

/-- A read of D1 block 0x01 (log 61, 62). -/
def Device.dbgRead (d : Device) (off : Nat) : Word :=
  if off = 0 then w32 (b2n d.dbg.unlocked * 0x80000000 + d.dbg.failRun * 256)
  else if off < 0x100 ∨ 0x500 ≤ off then 0
  else
    let c := d.core (off / 0x100 - 1)
    match off % 0x100 with
    | 0x04 => w32 (b2n c.halted * 0x80000000 + c.reason)
    | 0x08 => if c.halted then c.pc else 0
    | 0x10 => c.bp.get 0 0
    | 0x14 => c.bp.get 0 1
    | 0x18 => c.bp.get 0 2
    | 0x1C => c.bp.get 0 3
    | 0x20 => c.wpAddr.get 0 0
    | 0x24 => c.wpCtl.get 0 0
    | 0x28 => c.wpAddr.get 0 1
    | 0x2C => c.wpCtl.get 0 1
    | _ => 0

/-- A write to KEEP_DBG_CTRL_n. -/
def Device.dbgCtrl (d : Device) (n : Nat) (v : Word) : Device :=
  let d := if bitOf v 1 then d.resumeReq n else d
  let d := if bitOf v 0 then d.haltReq n else d
  if bitOf v 2 then d.stepReq n else d

/-- A write to D1 block 0x01 (log 62). -/
def Device.dbgWrite (d : Device) (off : Nat) (v : Word) : Device :=
  if off = 0 then (if bitOf v 0 then d.dbgLock else d)
  else if off < 0x100 ∨ 0x500 ≤ off then d
  else
    let n := off / 0x100 - 1
    let bp (i : Nat) : Device := d.onCore n fun c => { c with bp := c.bp.set 0 i (v &&& 0xFFFFFFFD) }
    match off % 0x100 with
    | 0x00 => d.dbgCtrl n v
    | 0x10 => bp 0
    | 0x14 => bp 1
    | 0x18 => bp 2
    | 0x1C => bp 3
    | 0x20 => d.onCore n fun c => { c with wpAddr := c.wpAddr.set 0 0 v }
    | 0x24 => d.onCore n fun c => { c with wpCtl := c.wpCtl.set 0 0 (v &&& 0xE000001F) }
    | 0x28 => d.onCore n fun c => { c with wpAddr := c.wpAddr.set 0 1 v }
    | 0x2C => d.onCore n fun c => { c with wpCtl := c.wpCtl.set 0 1 (v &&& 0xE000001F) }
    | _ => d

/-- A 32-bit read of the system bus as requester 0x6. -/
def Device.sysRead (d : Device) (addr : Nat) : Word × Device :=
  match busWindow addr with
  | some 2 => d.busRead 6 addr 4
  | some 0 => (w32 (beNat ((List.range 4).map fun i => Config.romByte (addr + i))), d)
  | some _ => (w32 (beNat (readBytes d.mem.bytes addr 4)), d)
  | none => (0, d)

/-- A scan of the access register captures the result of the one before. -/
def Device.accCapture (d : Device) : Device :=
  ((d.onDbg fun k => { k with ir := 0x12, drive := 0 }).emit
    (.tap (d.dbg.accOp * 2 ^ 70 + d.freeVal % 2 ^ 38 * 2 ^ 32 + d.dbg.accData.toNat))).freeNext

/-- The access register after an operation: done or error, and the data read. -/
def Device.accDone (d : Device) (op : Nat) (v : Word) : Device := d.onDbg fun k => { k with accOp := op, accData := v }

/-- DBG_ACCESS_READ; a locked port acts as BYPASS (log 63). -/
def dbgAccessRead (target : BitVec 6) (addr : Word) (d : Device) : Device :=
  if !d.dbg.unlocked then d.tapBypass
  else
    let d := d.accCapture
    match target.toNat with
    | 0 => d.accDone 0 (d.dbgRead (addr.toNat % 0x10000))
    | 1 =>
      let x := d.sysRead addr.toNat
      x.2.accDone 0 x.1
    | _ => d.accDone 2 0

/-- DBG_ACCESS_WRITE (log 63). -/
def dbgAccessWrite (target : BitVec 6) (addr data : Word) (d : Device) : Device :=
  if !d.dbg.unlocked then d.tapBypass
  else
    let d := d.accCapture
    match target.toNat with
    | 0 => (d.dbgWrite (addr.toNat % 0x10000) data).accDone 0 data
    | 1 => (registerWrite 6 addr.toNat 4 data d).accDone 0 data
    | _ => d.accDone 2 0

/-- A system-bus access that the unlocked port makes to an address without contents (log 63). -/
def Device.dbgHole (d : Device) (target : BitVec 6) (addr : Word) : Bool :=
  d.dbg.unlocked && target == 1 && (busWindow addr.toNat).isNone

/-! ## Meanings -/

/-- EXTEST (R371). -/
def execExtest (t : Time) (boundary : Nat) (s : State) : Host.Outcome State Fault Refusal := s.act t (extest boundary)

/-- SAMPLE/PRELOAD (R371). -/
def execSamplePreload (t : Time) (boundary : Nat) (s : State) : Host.Outcome State Fault Refusal := s.act t (samplePreload boundary)

/-- IDCODE (R371). -/
def execIdcode (t : Time) (s : State) : Host.Outcome State Fault Refusal := s.act t idcode

/-- CLAMP (R371). -/
def execClamp (t : Time) (s : State) : Host.Outcome State Fault Refusal := s.act t clamp

/-- HIGHZ (R371). -/
def execHighz (t : Time) (s : State) : Host.Outcome State Fault Refusal := s.act t highz

/-- BYPASS (R371). -/
def execBypass (t : Time) (code : BitVec 5) (s : State) : Host.Outcome State Fault Refusal := s.act t (bypass code)

/-- DBG_CHAL (R372). -/
def execDbgChal (t : Time) (random : Block) (s : State) : Host.Outcome State Fault Refusal := s.act t (dbgChal random)

/-- DBG_RESP (R372). -/
def execDbgResp (t : Time) (response : Block) (s : State) : Host.Outcome State Fault Refusal := s.act t (dbgResp response)

/-- DBG_BLOCK_EXPIRY (R372). -/
def execDbgBlockExpiry (t : Time) (s : State) : Host.Outcome State Fault Refusal := s.act t dbgBlockExpiry

/-- DBG_RELOCK (R372). -/
def execDbgRelock (t : Time) (s : State) : Host.Outcome State Fault Refusal := s.act t dbgRelock

/-- DBG_ACCESS_READ (R373); an address that Table 1.2 gives no contents faults. -/
def execDbgAccessRead (t : Time) (target : BitVec 6) (addr : Word) (s : State) : Host.Outcome State Fault Refusal :=
  if s.dev.dbgHole target addr then .fault (.busHole addr.toNat) else s.act t (dbgAccessRead target addr)

/-- DBG_ACCESS_WRITE (R373); an address that Table 1.2 gives no contents faults. -/
def execDbgAccessWrite (t : Time) (target : BitVec 6) (addr data : Word) (s : State) : Host.Outcome State Fault Refusal :=
  if s.dev.dbgHole target addr then .fault (.busHole addr.toNat) else s.act t (dbgAccessWrite target addr data)

/-- DBG_HALT (R373). -/
def execDbgHalt (t : Time) (core : Fin 4) (s : State) : Host.Outcome State Fault Refusal := s.act t (dbgHalt core)

/-- DBG_RESUME (R373). -/
def execDbgResume (t : Time) (core : Fin 4) (s : State) : Host.Outcome State Fault Refusal := s.act t (dbgResume core)

/-- DBG_STEP (R373). -/
def execDbgStep (t : Time) (core : Fin 4) (s : State) : Host.Outcome State Fault Refusal := s.act t (dbgStep core)

/-- DBG_BREAKPOINT (R373). -/
def execDbgBreakpoint (t : Time) (core i : Fin 4) (s : State) : Host.Outcome State Fault Refusal := s.act t (dbgBreakpoint core i)

/-- DBG_WATCHPOINT (R373). -/
def execDbgWatchpoint (t : Time) (core : Fin 4) (addr : Word) (write : Bool) (s : State) : Host.Outcome State Fault Refusal :=
  s.act t (dbgWatchpoint core addr write)

end Sys2Proof.Machine
end

