-- ==== Sys2Proof/Machine/Services.lean ====
section
/-! DEFINITION. Keeper's GNSS, geofence and PTP services (R230, R238, R345, R346). -/

namespace Sys2Proof.Machine

/-! ## NMEA 0183 sentences (R230) -/

/-- Bytes cut at each `x`. -/
def cutAt (x : Byte) : Bytes → List Bytes
  | [] => [[]]
  | c :: r =>
    if c = x then [] :: cutAt x r
    else match cutAt x r with
      | h :: t => (c :: h) :: t
      | [] => [[c]]

/-- The number that decimal digits spell; none for an empty string or another character. -/
def digitsNum (l : Bytes) : Option Nat :=
  if l.isEmpty || l.any (fun c => c < 0x30 || 0x39 < c) then none
  else some (l.foldl (fun a c => 10 * a + (c.toNat - 48)) 0)

/-- A hexadecimal digit, of either case. -/
def hexDigit (c : Byte) : Option Nat :=
  if 0x30 ≤ c && c ≤ 0x39 then some (c.toNat - 48)
  else if 0x41 ≤ c && c ≤ 0x46 then some (c.toNat - 55)
  else if 0x61 ≤ c && c ≤ 0x66 then some (c.toNat - 87)
  else none

/-- The fields of a sentence whose checksum is present and correct; none otherwise. -/
def nmeaFields (text : Bytes) : Option (List Bytes) :=
  match text with
  | 0x24 :: r =>
    let body := r.takeWhile fun c => c != 0x2A
    match r.drop body.length with
    | _ :: h :: l :: _ =>
      (hexDigit h).bind fun a => (hexDigit l).bind fun b =>
        if 16 * a + b = (body.foldl (fun (x : Byte) c => x ^^^ c) 0).toNat then some (cutAt 0x2C body) else none
    | _ => none
  | _ => none

/-- Field `i` of a sentence. -/
def nmeaField (f : List Bytes) (i : Nat) : Bytes := (f[i]?).getD []

/-- A leap year. -/
def leapYear (y : Nat) : Bool := (y % 4 == 0 && y % 100 != 0) || y % 400 == 0

/-- Days of a month. -/
def monthDays (y m : Nat) : Nat :=
  if m = 2 then (if leapYear y then 29 else 28) else if m = 4 ∨ m = 6 ∨ m = 9 ∨ m = 11 then 30 else 31

/-- Days from 2000-01-01 to a date of 2000 or later; none for a date that does not exist. -/
def dayNumber (y m dd : Nat) : Option Nat :=
  if y < 2000 ∨ m = 0 ∨ 12 < m ∨ dd = 0 ∨ monthDays y m < dd then none
  else
    let n := y - 2000
    let leaps := (n + 3) / 4 - (n + 99) / 100 + (n + 399) / 400
    some (365 * n + leaps + ((List.range (m - 1)).map fun k => monthDays y (k + 1)).sum + (dd - 1))

/-- A time field hhmmss, to the whole second (log 65). -/
def clockSeconds (l : Bytes) : Option Nat :=
  (digitsNum (l.take 6)).bind fun n =>
    let s := n / 10000 * 3600 + n / 100 % 100 * 60 + n % 100
    if l.length < 6 ∨ 24 ≤ n / 10000 ∨ 60 ≤ n / 100 % 100 ∨ 60 < n % 100 then none else some s

/-- U: UTC seconds since 2000-01-01, 86,400 a day. -/
def utcSeconds (y m dd : Nat) (time : Bytes) : Option Nat :=
  (dayNumber y m dd).bind fun n => (clockSeconds time).map fun s => 86400 * n + s

/-- U of an RMC sentence, whose date is ddmmyy of the years 2000 to 2099, and of a ZDA sentence (log 65). -/
def rmcSeconds (f : List Bytes) : Option Nat :=
  (digitsNum (nmeaField f 9)).bind fun n => utcSeconds (2000 + n % 100) (n / 100 % 100) (n / 10000) (nmeaField f 1)
def zdaSeconds (f : List Bytes) : Option Nat :=
  (digitsNum (nmeaField f 2)).bind fun dd => (digitsNum (nmeaField f 3)).bind fun m =>
    (digitsNum (nmeaField f 4)).bind fun y => utcSeconds y m dd (nmeaField f 1)

/-- A coordinate dddmm.mmmm with its hemisphere, in units of 10^-5 degree. -/
def coordinate (l hemi : Bytes) (negative : Byte) : Option Int :=
  let parts := cutAt 0x2E l
  let frac := nmeaField parts 1
  (digitsNum (nmeaField parts 0)).map fun n =>
    let k := frac.length
    let minutes := (n / 100 * 60 + n % 100) * 10 ^ k + (digitsNum frac).getD 0
    let v := rdiv (minutes * 100000) (60 * 10 ^ k)
    if hemi.head? = some negative then -v else v

/-! ## The geofence (R345) -/

/-- The service is on. -/
def Device.geoOn (d : Device) : Bool := d.cb Reg.KEEP_GEO_CTRL 31

/-- Region `i` is enabled and holds the fix; a box with lon_min > lon_max crosses 180°. -/
def Device.inRegion (d : Device) (lat lon : Int) (i : Nat) : Bool :=
  let w (k : Nat) : Int := (d.cfg (Reg.KEEP_GEO_REG (4 * i + k))).toInt
  d.cb Reg.KEEP_GEO_EN i && decide (w 0 ≤ lat ∧ lat ≤ w 1)
    && (if w 2 ≤ w 3 then decide (w 2 ≤ lon ∧ lon ≤ w 3) else decide (w 2 ≤ lon ∨ lon ≤ w 3))

/-- The profile of a region. -/
def Device.regionProfile (d : Device) (i : Nat) : Nat :=
  d.cf (if i < 8 then Reg.KEEP_GEO_PROF_LO else Reg.KEEP_GEO_PROF_HI) (4 * (i % 8) + 3) (4 * (i % 8))

/-- A switch that the service requests with EV246; EV247 follows where it is refused. -/
def Device.geoSwitch (d : Device) (p : Nat) : Device :=
  d.access 0 Reg.LANT_PROFILE_CMD 4 fun d =>
    let no := d.profileRefused p
    let d := (d.profileGo p (d.cf Reg.KEEP_GEO_CTRL 5 0)).raise 246 0
    if no then d.raise 247 0 else d

/-- A fix with status A: a fix in no region changes nothing (log 65). -/
def Device.geoFix (d : Device) (lat lon : Int) : Device :=
  let d := d.onKeep fun k => { k with fixValid := true }
  match (List.range 16).find? (d.inRegion lat lon) with
  | none => d
  | some r =>
    let d := d.onKeep fun k => { k with region := r, run := if k.region = r then min 255 (k.run + 1) else 1 }
    let p := d.regionProfile r
    let announced := match d.lant.switch_ with
      | some s => s.next == p
      | none => false
    if max 1 (d.cf Reg.KEEP_GEO_CTRL 15 8) ≤ d.keep.run ∧ d.lant.profile ≠ some p ∧ announced = false then d.geoSwitch p else d

/-- A fix with status V, or none for 3 s, resets the run. -/
def Device.geoReset (d : Device) (valid : Bool) : Device := d.onKeep fun k => { k with run := 0, fixValid := k.fixValid && valid }

/-- The label of the edge before: every GNSS domain that waits for one takes L = U + tai_utc (log 65). -/
def Device.labelEdges (d : Device) (u : Nat) : Device :=
  let l := u + d.cf Reg.LANT_TIME_CTRL 7 0
  [RefDom.a, RefDom.b].foldl (fun d x => if d.refSrc x = 1 then d.gnssLabel x l else d) d

/-- An RMC sentence (log 65). -/
def Device.rmc (d : Device) (f : List Bytes) : Device :=
  let d := d.onKeep fun k => { k with lastFix := d.clk.now }
  if nmeaField f 2 = [0x41] then
    let d := match rmcSeconds f with
      | some u => d.labelEdges u
      | none => d
    if !d.geoOn then d
    else match coordinate (nmeaField f 3) (nmeaField f 4) 0x53, coordinate (nmeaField f 5) (nmeaField f 6) 0x57 with
      | some lat, some lon => d.geoFix lat lon
      | _, _ => d
  else if nmeaField f 2 = [0x56] then
    let d := [RefDom.a, RefDom.b].foldl (fun d x => if d.refSrc x = 1 then d.refLoss x else d) d
    if d.geoOn then d.geoReset false else d
  else d

/-- The sentence's type without its talker. -/
def nmeaType (f : List Bytes) : Bytes := if (nmeaField f 0).length = 5 then (nmeaField f 0).drop 2 else []

/-- NMEA_SENTENCE: RMC and ZDA are used, and others ignored. -/
def nmeaSentence (text : Bytes) (d : Device) : Device :=
  if !d.keeperUp then d
  else match nmeaFields text with
    | none => d
    | some f =>
      if nmeaType f = [0x52, 0x4D, 0x43] then d.rmc f
      else if nmeaType f = [0x5A, 0x44, 0x41] then
        (match zdaSeconds f with
        | some u => d.labelEdges u
        | none => d)
      else d

/-- GEO_FIX_TIMEOUT: no RMC sentence for 3 s. -/
def geoFixTimeout (d : Device) : Device :=
  if d.keeperUp && d.geoOn && decide (d.keep.lastFix + 3 * sec ≤ d.clk.now) then d.geoReset true else d

/-! ## PTP (R346) -/

/-- A port's settings. -/
def Device.ptpRuns (d : Device) (e : Nat) : Bool := d.cb Reg.KEEP_PTP_CTRL 31 && d.cb (Reg.KEEP_PTP_PORT e) 31
def Device.ptpMode (d : Device) (e : Nat) : Nat := d.cf (Reg.KEEP_PTP_PORT e) 30 29

/-- A port takes a state, with EV251 where it changes (log 66). -/
def Device.ptpState (d : Device) (e st : Nat) : Device :=
  if d.keep.ptp.get 0 e = st then d else (d.onKeep fun k => { k with ptp := k.ptp.set 0 e st }).raise 251 0

/-- Port `e` is the clock's slave; another port that was takes a state that is open, never MASTER under mode 2
(log 66). -/
def Device.ptpSlave (d : Device) (e : Nat) : Device :=
  let d := (List.range 6).foldl (fun d p =>
    if p ≠ e ∧ d.keep.ptp.get 0 p = 1 then (d.ptpState p (if d.ptpMode p = 2 then 3 else 2 + d.freeVal % 2)).freeNext else d) d
  d.ptpState e 1

/-- PTP_SYNC_COMPLETE: a Sync is complete on a port in SLAVE, with an offset in ns; the feeding port's goes to the
domain that it feeds (log 66). -/
def ptpSyncComplete (e : Fin 6) (offset : Int) (d : Device) : Device :=
  if !d.keeperUp || !d.ptpRuns e.val || d.ptpMode e.val == 1 then d
  else
    let d := d.ptpSlave e.val
    let x : RefDom := if d.cb Reg.KEEP_PTP_CTRL 30 then .b else .a
    if d.cf Reg.KEEP_PTP_CTRL 29 27 = e.val ∧ d.refSrc x = 2 then domFeedPut x offset d else d
where
  /-- The offset, as 64 bits, completes a feed of the domain. -/
  domFeedPut (x : RefDom) (offset : Int) (d : Device) : Device :=
    d.access 0 (Reg.LANT_DOM_FEED_HI (domIdx x)) 4 fun d => d.feed x (BitVec.ofInt 64 offset)

/-! ## Meanings -/

/-- NMEA_SENTENCE (R230). -/
def execNmeaSentence (t : Time) (text : Bytes) (s : State) : Host.Outcome State Fault Refusal := s.act t (nmeaSentence text)

/-- GEO_FIX_TIMEOUT (R345). -/
def execGeoFixTimeout (t : Time) (s : State) : Host.Outcome State Fault Refusal := s.act t geoFixTimeout

/-- PTP_SYNC_COMPLETE (R346). -/
def execPtpSyncComplete (t : Time) (e : Fin 6) (offset : Int) (s : State) : Host.Outcome State Fault Refusal :=
  s.act t (ptpSyncComplete e offset)

end Sys2Proof.Machine
end

