-- ==== Sys2Proof/Machine/Mgmt.lean ====
section
/-! DEFINITION. The management protocol: authentication, the request queue and the eleven operations (R347 to R351). -/

namespace Sys2Proof.Machine

/-! ## Keys and messages (R347, R348) -/

/-- The label "MGMT". -/
def labelMgmt : Bytes := [0x4D, 0x47, 0x4D, 0x54]

/-- The OPER key is block 1, the READ key block 2 (R347). -/
def Device.mgmtKey (d : Device) (keyRead : Bool) : Block :=
  kdfBlock d.otp.key (if keyRead then 2 else 1) labelMgmt (beBytes 8 d.otp.serial.toNat) 256

/-- Status codes (Table 16.7). -/
def mgOk : Nat := 0
def mgStaleNonce : Nat := 1
def mgKeyRole : Nat := 2
def mgBadOp : Nat := 3
def mgBadAddr : Nat := 4
def mgGuardFail : Nat := 5
def mgState : Nat := 6
def mgBusy : Nat := 7
def mgDegraded : Nat := 8

/-- A response datagram: header of Table 16.5, body, tag under the request's key. -/
def Device.mgmtFrame (d : Device) (q : MgmtReq) (status : Nat) (body : Bytes) : Bytes :=
  let m := beBytes 2 0x4E4D ++ beBytes 1 1 ++ beBytes 1 (128 + b2n q.keyRead) ++ beBytes 1 q.op ++ beBytes 1 status
    ++ beBytes 2 body.length ++ beBytes 8 d.otp.serial.toNat ++ beBytes 8 d.keep.bootNonce.toNat
    ++ beBytes 4 q.counter.toNat ++ zeros 4 ++ body
  m ++ tag8 (d.mgmtKey q.keyRead) m

/-- mgmt_port (Table 16.12). -/
def Device.mgmtPort (d : Device) : Nat := d.cf Reg.KEEP_MGMT_CTRL 31 16

/-- Sends a response; one with a status other than OK is counted (Table 16.10) (log 36). -/
def Device.answer (d : Device) (q : MgmtReq) (status : Nat) (body : Bytes) : Device :=
  let d := d.emit (.udp q.src q.sport d.mgmtPort q.ingress (d.mgmtFrame q status body))
  if status = mgOk then d else d.inc Reg.KEEP_MGMT_REFUSED_CNT

/-! ## Acceptance (R349) -/

/-- A datagram that is not silently dropped: long enough, magic, version, a request, for this module (log 34). -/
def Device.mgmtForUs (d : Device) (b : Bytes) : Bool :=
  decide (40 ≤ b.length) && fieldAt b 0 2 == 0x4E4D && fieldAt b 2 1 == 1 && decide (fieldAt b 3 1 < 128)
    && fieldAt b 8 8 == d.otp.serial.toNat

/-- The request that a datagram carries. -/
def mgmtReq (m : Datagram) : MgmtReq where
  op := fieldAt m.data 4 1
  keyRead := fieldAt m.data 3 1 % 2 == 1
  counter := w32 (fieldAt m.data 24 4)
  body := slice m.data 32 (m.data.length - 40)
  src := m.src
  sport := m.sport
  ingress := m.ingress

/-- The length is that of the datagram and the tag holds. -/
def Device.mgmtTagOk (d : Device) (b : Bytes) (keyRead : Bool) : Bool :=
  fieldAt b 6 2 + 40 == b.length && decide (b.length ≤ 1232)
    && b.drop (b.length - 8) == tag8 (d.mgmtKey keyRead) (b.take (b.length - 8))

/-- Operations marked READ in Table 16.6. -/
def readOp (op : Nat) : Bool := op == 1 || op == 2 || op == 9 || op == 10

/-- mgmt_rx from the replay test on (log 33). -/
def Device.mgmtAccept (d : Device) (q : MgmtReq) : Device :=
  let w := if q.keyRead then d.keep.rdWin else d.keep.opWin
  if !w.passes q.counter.toNat then (d.inc Reg.KEEP_MGMT_REPLAY_CNT).raise 241 0
  else
    let w := w.take q.counter.toNat
    let d := d.onKeep fun k => if q.keyRead then { k with rdWin := w } else { k with opWin := w }
    if q.keyRead && !readOp q.op then d.answer q mgKeyRole []
    else if q.op = 0 ∨ 11 < q.op then d.answer q mgBadOp []
    else if 16 ≤ d.keep.queue.length then d.answer q mgBusy []
    else d.onKeep fun k => { k with queue := k.queue ++ [q] }

/-- The service answers: D1 runs, it is enabled, the datagram came to its port through its queue, and in a degraded start on E0 alone
(R291, R348) (log 33). -/
def Device.mgmtOn (d : Device) (m : Datagram) : Bool :=
  d.keeperUp && d.cb Reg.KEEP_MGMT_CTRL 15 && m.dport == d.mgmtPort && m.queue == d.cf Reg.KEEP_MGMT_CTRL 2 0 && (!d.start.degraded || m.ingress == 3)

/-- MGMT_RX (R349) (log 33). -/
def mgmtRx (m : Datagram) (d : Device) : Device :=
  if !d.mgmtOn m || !d.mgmtForUs m.data then d
  else
    let q := mgmtReq m
    if !d.mgmtTagOk m.data q.keyRead then (d.inc Reg.KEEP_MGMT_AUTH_FAIL_CNT).raise 240 0
    else if q.op = 1 then d.onKeep fun k => { k with hellos := k.hellos ++ [q] }
    else if fieldAt m.data 16 8 ≠ d.keep.bootNonce.toNat then d.answer q mgStaleNonce (beBytes 8 d.keep.bootNonce.toNat)
    else d.mgmtAccept q

/-! ## Execution (R350) -/

/-- What an operation answers: status, body, the device after it. -/
structure MgResult where
  status : Nat
  body : Bytes
  dev : Device

/-- An operation that is refused and changes nothing (log 37). -/
def Device.mgNo (d : Device) (status : Nat) : MgResult := ⟨status, [], d⟩

/-- The MGMT record of an executed request (Table 17.3) (log 36). -/
def mgmtRecord (q : MgmtReq) (status : Nat) : Bytes :=
  beBytes 1 q.op ++ beBytes 1 status ++ beBytes 1 (b2n q.keyRead) ++ zeros 1 ++ beBytes 4 q.counter.toNat ++ q.body.take 64

/-- The oldest request is executed when it is of operation `op`: its effect `f`, the response, the count and the
record. The response is sealed and sent before any restart that the effect asks for begins (log 34). -/
def Device.mgmtRun (d : Device) (op : Nat) (f : MgmtReq → Device → MgResult) : Device :=
  match d.keep.queue with
  | [] => d
  | q :: rest =>
    if !d.keeperUp || q.op != op then d
    else
      let d := d.onKeep fun k => { k with queue := rest }
      let r := if d.start.degraded && !(readOp op || op == 11) then d.mgNo mgDegraded else f q d
      let d := r.dev.answer q r.status r.body
      let d := if r.status = mgOk then d.inc Reg.KEEP_MGMT_OK_CNT else d
      d.logReq 7 (mgmtRecord q r.status) true

/-- HELLO: the oldest one waiting is answered (log 33). -/
def mgHello (d : Device) : Device :=
  match d.keep.hellos with
  | [] => d
  | q :: rest =>
    if !d.keeperUp then d
    else
      let d := d.onKeep fun k => { k with hellos := rest }
      if !q.body.isEmpty then d.answer q mgBadOp []
      else
        let body := beBytes 2 0x0302 ++ beBytes 1 0xB1 ++ beBytes 1 d.start.stage ++ beBytes 1 d.twin.role ++ zeros 3
          ++ beBytes 8 d.ll.devChar.toNat ++ beBytes 8 d.lampNs
        (d.answer q mgOk body).inc Reg.KEEP_MGMT_OK_CNT

/-- The address lies in the domain register space, which READ reads as any read does (R350); management refuses D1 block 0x01
(R373) (log 35). -/
def mgReadable (a : Nat) : Bool := decide (0x10000000 ≤ a ∧ a < 0x1A000000) && a / 0x10000 != 0x1101

/-- Reads in order, as any read does (log 35). -/
def Device.mgReads (d : Device) : List Nat → Bytes → Bytes × Device
  | [], acc => (acc, d)
  | a :: r, acc =>
    let x := d.busRead 0 a 4
    x.2.mgReads r (acc ++ beBytes 4 x.1.toNat)

/-- The fields of 4 bytes that a body holds from `off` on. -/
def wordsFrom (b : Bytes) (off n : Nat) : List Nat := (List.range n).map fun i => fieldAt b (off + 4 * i) 4

/-- READ. -/
def mgRead (q : MgmtReq) (d : Device) : MgResult :=
  let n := (q.body.length - 4) / 4
  if n = 0 ∨ 128 < n ∨ q.body.length ≠ 4 + 4 * n then d.mgNo mgBadOp
  else
    let l := wordsFrom q.body 4 n
    if !l.all mgReadable then d.mgNo mgBadAddr
    else
      let doms := (List.range 10).filter fun k => fieldAt q.body 0 1 % 2 == 1 && l.any fun a => (a - 0x10000000) / 0x01000000 == k
      let d := doms.foldl (fun d k => d.snapWrite k 1) d
      let x := d.mgReads l []
      ⟨mgOk, x.1, doms.foldl (fun d k => d.snapWrite k 2) x.2⟩

/-! ### WRITE_GUARDED (R351) -/

/-- One entry of the request. -/
structure MgEntry where
  addr : Nat
  mask : Word
  value : Word
  guardMask : Word
  guardValue : Word

/-- Entry `i`. -/
def mgEntry (b : Bytes) (i : Nat) : MgEntry where
  addr := fieldAt b (8 + 20 * i) 4
  mask := w32 (fieldAt b (12 + 20 * i) 4)
  value := w32 (fieldAt b (16 + 20 * i) 4)
  guardMask := w32 (fieldAt b (20 + 20 * i) 4)
  guardValue := w32 (fieldAt b (24 + 20 * i) 4)

/-- The command registers that management may not write. -/
def mgForbidden : List Nat :=
  [Reg.LANT_PLAN_CMD, Reg.CIPH_KDF_CMD, Reg.PKT_TBL_CMD, Reg.PKT_GEN_CMD, Reg.KEEP_LL_RELOAD_CMD]

/-- An address that WRITE_GUARDED may name (R351). -/
def mgWritable (a : Nat) : Bool :=
  mgReadable a && !mgForbidden.contains a && (match regAt a with
    | some (r, _) => r.rw != 0 || r.wo != 0 || r.w1c != 0
    | none => false)

/-- The guards, in order: the index of the first that fails, and the device after the reads (log 35). -/
def Device.mgGuards (d : Device) : List MgEntry → Nat → Option Nat × Device
  | [], _ => (none, d)
  | e :: r, i =>
    let x := d.busRead 0 e.addr 4
    if x.1 &&& e.guardMask ≠ e.guardValue then (some i, x.2) else x.2.mgGuards r (i + 1)

/-- The writes, in order, each read back before the next (log 35). -/
def Device.mgWrites (d : Device) : List MgEntry → Bytes → Bytes × Device
  | [], acc => (acc, d)
  | e :: r, acc =>
    let x := d.busRead 0 e.addr 4
    let d := x.2.busWrite 0 e.addr 4 ((x.1 &&& ~~~ e.mask) ||| (e.value &&& e.mask))
    let y := d.busRead 0 e.addr 4
    y.2.mgWrites r (acc ++ beBytes 4 y.1.toNat)

/-- WRITE_GUARDED. -/
def mgWrite (q : MgmtReq) (d : Device) : MgResult :=
  let n := (q.body.length - 8) / 20
  if n = 0 ∨ 32 < n ∨ q.body.length ≠ 8 + 20 * n then d.mgNo mgBadOp
  else
    let l := (List.range n).map (mgEntry q.body)
    let refuse (status i : Nat) (d : Device) : MgResult := ⟨status, beBytes 1 i ++ zeros 3, d.raise 242 0⟩
    if fieldAt q.body 0 8 ≠ 0 ∧ fieldAt q.body 0 8 ≠ d.ll.devChar.toNat then refuse mgGuardFail 0 d
    else
      match l.findIdx? fun e => !mgWritable e.addr with
      | some i => refuse mgBadAddr i d
      | none =>
        let g := d.mgGuards l 0
        match g.1 with
        | some i => refuse mgGuardFail i g.2
        | none =>
          let x := g.2.mgWrites l []
          ⟨mgOk, zeros 4 ++ x.1, x.2⟩

/-! ### Staging, reload, recovery, the Log, characteristics (R278, R279, R350) -/

/-- STAGE_BEGIN. -/
def mgStageBegin (q : MgmtReq) (d : Device) : MgResult :=
  if q.body.length ≠ 120 then d.mgNo mgBadOp
  else match d.stageOpen q.body with
    | some d => ⟨mgOk, [], d⟩
    | none => ⟨mgState, [], d.raise 35 0⟩

/-- STAGE_DATA. -/
def mgStageData (q : MgmtReq) (d : Device) : MgResult :=
  if q.body.length < 5 ∨ 1028 < q.body.length then d.mgNo mgBadOp
  else if d.ll.stage ≠ 1 ∨ fieldAt q.body 0 4 ≠ d.ll.staged.length then d.mgNo mgState
  else ⟨mgOk, [], d.onLL fun l => { l with staged := l.staged ++ q.body.drop 4 }⟩

/-- STAGE_END. -/
def mgStageEnd (q : MgmtReq) (d : Device) : MgResult :=
  if q.body.length ≠ 4 then d.mgNo mgBadOp
  else if d.ll.stage ≠ 1 ∨ fieldAt q.body 0 4 ≠ d.ll.staged.length then d.mgNo mgState
  else ⟨mgOk, [], d.stageClose⟩

/-- RELOAD (log 37). -/
def mgReload (q : MgmtReq) (d : Device) : MgResult :=
  if q.body.length ≠ 10 then d.mgNo mgBadOp
  else if fieldAt q.body 0 8 ≠ 0 ∧ fieldAt q.body 0 8 ≠ d.ll.devChar.toNat then d.mgNo mgGuardFail
  else
    let mask : BitVec 10 := BitVec.ofNat 10 (fieldAt q.body 8 2)
    ⟨if d.reloadOk mask then mgOk else mgState, [], d.reloadGo mask⟩

/-- LADDER. -/
def mgLadder (q : MgmtReq) (d : Device) : MgResult :=
  if q.body.length ≠ 4 then d.mgNo mgBadOp
  else match d.ladderAsk 3 (fieldAt q.body 0 1) (fieldAt q.body 1 1) with
    | some d => ⟨mgOk, [], d⟩
    | none => d.mgNo mgState

/-- RESTART (log 37). -/
def mgRestart (q : MgmtReq) (d : Device) : MgResult :=
  if q.body.length ≠ 4 ∨ 1 < fieldAt q.body 0 1 then d.mgNo mgBadOp
  else match d.ladderAsk 3 1 (3 + fieldAt q.body 0 1) with
    | some d => ⟨mgOk, [], d⟩
    | none => d.mgNo mgState

/-- Records as stored, from a sequence number on. -/
def Device.logFrom (d : Device) (s : Word) : Nat → Bytes
  | 0 => []
  | n + 1 =>
    let b := d.log.slots.get [] (s.toNat % 8192)
    (if slotOk b && fieldAt b 4 4 == s.toNat then b else []) ++ d.logFrom (seqAfter s) n

/-- LOG_READ (log 36). -/
def mgLogRead (q : MgmtReq) (d : Device) : MgResult :=
  if q.body.length ≠ 8 ∨ fieldAt q.body 4 1 = 0 ∨ 4 < fieldAt q.body 4 1 then d.mgNo mgBadOp
  else ⟨mgOk, d.logFrom (w32 (fieldAt q.body 0 4)) (fieldAt q.body 4 1), d⟩

/-- CHAR_READ (log 36). -/
def mgCharRead (q : MgmtReq) (d : Device) : MgResult :=
  if !q.body.isEmpty then d.mgNo mgBadOp
  else
    let doms := (List.range 10).flatMap fun n => beBytes 8 (d.dom n).char.toNat
    ⟨mgOk, doms ++ beBytes 8 d.ll.devChar.toNat ++ beBytes 8 d.ll.expChar.toNat ++ beBytes 8 d.ll.twinChar.toNat
      ++ beBytes 8 d.ll.parentChar.toNat ++ beBytes 4 (d.regNow Reg.KEEP_LL_CMP).toNat, d⟩

/-! ## Meanings -/

/-- MGMT_RX (R349). -/
def execMgmtRx (t : Time) (m : Datagram) (s : State) : Host.Outcome State Fault Refusal := s.act t (mgmtRx m)

/-- HELLO (R349, Table 16.6). -/
def execHello (t : Time) (s : State) : Host.Outcome State Fault Refusal := s.act t mgHello

/-- READ (R350). -/
def execRead (t : Time) (s : State) : Host.Outcome State Fault Refusal := s.act t fun d => d.mgmtRun 2 mgRead

/-- WRITE_GUARDED (R351). -/
def execWriteGuarded (t : Time) (s : State) : Host.Outcome State Fault Refusal := s.act t fun d => d.mgmtRun 3 mgWrite

/-- STAGE_BEGIN (R278). -/
def execStageBegin (t : Time) (s : State) : Host.Outcome State Fault Refusal := s.act t fun d => d.mgmtRun 4 mgStageBegin

/-- STAGE_DATA (R350). -/
def execStageData (t : Time) (s : State) : Host.Outcome State Fault Refusal := s.act t fun d => d.mgmtRun 5 mgStageData

/-- STAGE_END (R278, R350). -/
def execStageEnd (t : Time) (s : State) : Host.Outcome State Fault Refusal := s.act t fun d => d.mgmtRun 6 mgStageEnd

/-- RELOAD (R350, R279). -/
def execReload (t : Time) (s : State) : Host.Outcome State Fault Refusal := s.act t fun d => d.mgmtRun 7 mgReload

/-- LADDER (R350, R369). -/
def execLadder (t : Time) (s : State) : Host.Outcome State Fault Refusal := s.act t fun d => d.mgmtRun 8 mgLadder

/-- LOG_READ (Table 16.6). -/
def execLogRead (t : Time) (s : State) : Host.Outcome State Fault Refusal := s.act t fun d => d.mgmtRun 9 mgLogRead

/-- CHAR_READ (Table 16.6). -/
def execCharRead (t : Time) (s : State) : Host.Outcome State Fault Refusal := s.act t fun d => d.mgmtRun 10 mgCharRead

/-- RESTART (R350, R369). -/
def execRestart (t : Time) (s : State) : Host.Outcome State Fault Refusal := s.act t fun d => d.mgmtRun 11 mgRestart

end Sys2Proof.Machine
end

