-- ==== Sys2Proof/Machine/Boundary.lean ====
section
/-! DEFINITION. SUPERFRAME_BOUNDARY: everything that a superframe boundary of lamp time applies, in one place and
order (R81, R88, R89, R92, R93, R111 to R114, R132, R139, R158, R198, R276, R280, R305, R312, R320). -/

namespace Sys2Proof.Machine

/-! ## The profile switch (R111 to R114, Table 4.17) -/

/-- An affected radio leaves service: its sections are applied anew under the profile now in force. Calibrations, one
in progress too, and what the blocks have measured are kept, and so is what waits in the radio's buffers (R36, R37) (log 40). -/
def Device.radSwitch (d : Device) (b : Band) : Device :=
  let n := bandDom b
  if d.domSt n ≠ 3 then d
  else
    let keep (r : Radio) : Radio :=
      { Radio.reset with
          groups := r.groups, pend := r.pend, forced := r.forced, bgDone := r.bgDone, bgUse := r.bgUse, dpd := r.dpd, off := r.off
          atClamp := r.atClamp, rxLast := r.rxLast, rxQual := r.rxQual, peakFlight := r.peakFlight, ring154 := r.ring154
          buffered := r.buffered, keeper := r.keeper, lastEnd := r.lastEnd, detAt := r.detAt, txOffAt := r.txOffAt, caps := r.caps
          back := r.back, parentHeld := r.parentHeld
          cal := r.cal.map fun c => { c with backToRx := false }
          st := if r.cal.isSome then r.st else .off, trans := if r.cal.isSome then r.kept d.clk.now else [] }
    let d := (d.txAbort b).onRad b keep
    match d.domLoad n 4 with
    | some d => d.gateWatch
    | none => d.domFault n

/-- The clients that have a grant on an affected band in a class that the profile does not permit, in the plan of superframe `sf`
(R113) (log 40). -/
def Device.outcasts (d : Device) (bands : BitVec 3) (p sf : Nat) : List Nat :=
  let bad (x : PlanRec) : Bool :=
    let b := bandOfNum (gBand x.bits)
    !gIgnored x.bits && bitOf bands (bandNum b) && !(d.profBandOf p b).permits (gClass x.bits)
  (d.lant.clients.filter fun x => x.2.assoc && !x.2.released && (d.planFor sf).any fun r => r.client == x.1 && bad r).map Prod.fst

/-- The start of superframe C (log 40). -/
def Device.profileApply (d : Device) (s : Switch) (sf : Nat) : Device :=
  let bands := [Band.l, Band.m, Band.h].filter fun b => bitOf s.bands (bandNum b)
  let out := d.outcasts s.bands s.next sf
  let carry (d : Device) (b : Band) : Device := d.dutyCarry b (d.prof b) (d.profBandOf s.next b)
  let d := bands.foldl carry d
  let d := d.onLant fun l => { l with profile := some s.next, switch_ := some { s with phase := 2 } }
  -- a channel that a relay found stays in use until now (R140)
  let d := d.onRelay fun r => { r with chan := (d.prof .h).chan, chanM := (d.prof .m).chan }
  let d := d.dutyWatchAll
  let d := out.foldl (fun d c => d.release c 2) d
  let d := if out.isEmpty then d else d.raise 55 0
  bands.foldl (fun d b => d.radSwitch b) (d.bandsVoid s.bands sf)

/-- A switch in hand at a boundary: it is applied at C, and is complete one superframe later (EV053) (log 40). -/
def Device.profileBoundary (d : Device) (sf : Nat) : Device :=
  match d.lant.switch_ with
  | none => d
  | some s =>
    if s.phase = 1 then (if s.c ≤ sf then d.profileApply s sf else d)
    else if s.c < sf then (d.onLant fun l => { l with switch_ := none }).raise 53 0
    else d

/-! ## Pending bits (R89) -/

/-- A grant of the client falls due within its report interval. -/
def Device.grantDue (d : Device) (c sf : Nat) : Bool :=
  d.lant.plan.any fun p =>
    let per := 2 ^ gK p.bits
    p.client == c && !gIgnored p.bits && decide ((gPhase p.bits + per - sf % per) % per < 2 ^ (d.client c).k)

/-- Keeper's pending bits (log 41). -/
def Device.pendPut (d : Device) (sf : Nat) : Device :=
  if !d.keeperUp then d
  else
    let due := d.lant.clients.filter fun x =>
      x.2.assoc && !x.2.released && d.clientQueued x.1 != 0 && !d.grantDue x.1 sf
    d.onLant fun l => { l with pendBits := due.map Prod.fst }

/-- The next segment after the last one sent that holds a set bit; 0xFF: none. -/
def Device.segPick (d : Device) : Device :=
  let has (g : Nat) : Bool := d.lant.pendBits.any fun c => c / 128 == g
  match ((List.range 64).map fun i => (d.lant.lastSeg + 1 + i) % 64).find? has with
  | some g => d.onLant fun l => { l with pendSeg := g, lastSeg := g }
  | none => d.onLant fun l => { l with pendSeg := 0xFF }

/-! ## Bell placement (R132) -/

/-- The first run of `k` slots after slot 0 that are free and hold no other burst. -/
def Device.bellRun (d : Device) (sf k : Nat) : Nat → Nat → Nat → Option Nat
  | 0, _, _ => none
  | fuel + 1, j, run =>
    let mine := d.lant.bells.any fun x => decide (x.slot ≤ j ∧ j < x.slot + k)
    if slotCount .l ≤ j then none
    else if d.slotFree .l sf j && !mine then (if k ≤ run + 1 then some (j - run) else d.bellRun sf k fuel (j + 1) (run + 1))
    else d.bellRun sf k fuel (j + 1) 0

/-- One tag's burst (log 41). -/
def Device.bellPlace (d : Device) (sf c : Nat) : Device :=
  if !d.bellAllowed then d.raise 63 0
  else
    match d.bellRun sf (slotsOf .l (d.bellUs * qPerUs)) (slotCount .l) 1 0 with
    | some j => (d.onLant fun l => { l with bells := l.bells ++ [⟨c, j⟩] }).useGroup .l d.bellChan
    | none => d.bellSkip

/-- The tags whose next active grant is that of the superframe after `sf`. -/
def Device.bellDue (d : Device) (sf : Nat) : List Nat :=
  let next := (d.activeOn .l (sf + 1) ++ d.activeOn .m (sf + 1) ++ d.activeOn .h (sf + 1)).map fun x => x.2.client
  (d.lant.clients.filter fun x =>
    x.2.assoc && !x.2.released && x.2.adrift && capBell x.2.caps && x.2.bellLeft != 0 && next.contains x.1).map Prod.fst

/-- Bursts of the superframe that ends which were never commanded are skipped rings; those of `sf` are placed. A twin
that is not lit rings no bells (R299), and none are rung while bell_en = 0 (Table 5.8) (log 41, 42). -/
def Device.bellBoundary (d : Device) (sf : Nat) : Device :=
  let late := d.lant.bells
  let d := d.onLant fun l => { l with bells := [] }
  let d := late.foldl (fun d _ => d.bellSkip) d
  if d.litOrOff && d.cb Reg.LANT_BELL_CTRL 31 then (d.bellDue sf).foldl (fun d c => d.bellPlace sf c) d else d

/-! ## Characteristics (R276) -/

/-- The expectations of KEEP_LL_PEER that are set (R268). -/
def Device.peersSet (d : Device) : List Nat :=
  ((List.range 4).map fun i => (d.cfg (Reg.KEEP_LL_PEER_HI i)).toNat * 4294967296 + (d.cfg (Reg.KEEP_LL_PEER_LO i)).toNat).filter fun x => x != 0

/-- twin_match, and EV038 where it falls to 0 (log 42). -/
def Device.twinCompare (d : Device) : Device :=
  if !d.ll.twinNow then d
  else
    let was := d.ll.twinMatch
    let ok := d.ll.twinChar == d.ll.devChar
    let d := d.onLL fun l => { l with twinMatch := ok }
    if was && !ok then d.raise 38 0 else d

/-- parent_match, and EV039 where it falls to 0 (log 42). -/
def Device.parentCompare (d : Device) : Device :=
  if !d.ll.parentNow || !(d.lant.relay.st == 1 || d.lant.relay.st == 2) then d
  else
    let was := d.ll.parentMatch
    let ok := d.peersSet.isEmpty || d.peersSet.contains d.ll.parentChar.toNat
    let d := d.onLL fun l => { l with parentMatch := ok }
    if was && !ok then d.raise 39 0 else d

/-- The comparison at a boundary with D1 in service. -/
def Device.charCompare (d : Device) : Device :=
  if !d.keeperUp then d
  else
    let d := d.twinCompare.parentCompare
    d.onLL fun l => { l with twinSeen := l.twinNow, parentSeen := l.parentNow, twinNow := false, parentNow := false }

/-! ## Notes and beacon bodies -/

/-- The notes of superframe `sf` stand: older ones go, those of bands that leave service are void, and each grant that
loses its slots is counted (R92). -/
def Device.notesBoundary (d : Device) (sf : Nat) : Device :=
  let d := d.onLant fun l => { l with notes := l.notes.filter fun n => decide (sf ≤ n.sf) || (decide (sf ≤ n.sf + 1) && !n.decided) }
  let d := (d.addNotes sf).bandsVoid d.lant.silent sf
  let lost := (d.lant.notes.filter fun n => n.sf == sf && n.skipped).length
  (List.range lost).foldl (fun d _ => (d.inc Reg.LANT_CONFLICT_CNT).raise 48 0) d

/-- The bodies that the beacons of `sf` carry. -/
def Device.bodiesPut (d : Device) (sf : Nat) : Device :=
  let l := d.beaconBody .l sf 0
  let m := d.beaconBody .m sf 0
  let h := d.beaconBody .h sf 0
  (d.onLant fun k => { k with bodies := ⟨l, m, h⟩ }).freeNext

/-- Keeper takes what stands in the 802.15.4 ring (R78) (log 39). -/
def Device.ringTake (d : Device) : Device := if d.keeperUp then d.onRad .m fun r => { r with ring154 := [] } else d

/-! ## The boundary -/

/-- What takes effect: the open maps, the profile first and the plan second (R88, R93, R114), then what the
boundary begins (R280, R320) (log 38). -/
def Device.boundaryApply (d : Device) (sf : Nat) : Device :=
  let d := d.onLant fun l => { l with sf := sf, silent := 0 }
  let d := if d.planFrozen then d else ((d.openApply sf).profileBoundary sf).planApply sf
  let d := (d.reloadBoundary sf).entryBoundary sf
  -- in Eclipse and until the ring has been checked the switches wait (R163)
  if d.pwr.st = 2 ∨ (d.start.waking = some 2 ∧ !d.ciph.ringChecked) then d else d.epochSwitch sf

/-- The grants, pending bits and bursts of the superframe that begins (log 38). -/
def Device.boundaryPlan (d : Device) (sf : Nat) : Device :=
  (((d.notesBoundary sf).bellBoundary sf).pendPut sf).segPick

/-- What the other blocks do at a boundary (log 38, 39). -/
def Device.boundaryRest (d : Device) (sf : Nat) : Device :=
  let d := (d.charCompare.airStep sf).mirrorBoundary
  let d := (if d.lant.relay.joining then d.joinLapse sf else if d.lant.relay.st = 3 then d.scanStep else d).grantsBoundary sf
  let d := if d.domDown 6 then d else d.gateBoundary sf
  ((d.calWait .l).calWait .m).calWait .h

/-- SUPERFRAME_BOUNDARY: lamp time has entered a superframe that the Lantern does not count yet (log 38). -/
def superframeBoundary (d : Device) : Device :=
  let sf := d.lampSf
  if !d.clk.lampRun || d.domDown 2 || sf = d.lant.sf then d
  else ((((d.boundaryApply sf).boundaryPlan sf).boundaryRest sf).reapClients.ringTake).bodiesPut sf

/-! ## Meanings -/

/-- SUPERFRAME_BOUNDARY (R81). -/
def execSuperframeBoundary (t : Time) (s : State) : Host.Outcome State Fault Refusal := s.act t superframeBoundary

end Sys2Proof.Machine
end

