-- ==== Sys2Proof/Machine/Dispatch.lean ====
section
/-! DEFINITION. Dispatch: one arm for each command, each a direct call of its meaning. -/

namespace Sys2Proof.Machine

/-- The effect of a command on everything but the queue. -/
def exec (i : Instr) (s : State) : Host.Outcome State Fault Refusal :=
  match i with
  | .registerWrite t req addr width v => Sys2Proof.Machine.execRegisterWrite t req addr width v s
  | .rcRead t req addr width => Sys2Proof.Machine.execRcRead t req addr width s
  | .lowWordRead t req addr width => Sys2Proof.Machine.execLowWordRead t req addr width s
  | .snapCapture t d => Sys2Proof.Machine.execSnapCapture t d s
  | .snapEnd t d => Sys2Proof.Machine.execSnapEnd t d s
  | .txCommand t b k ret => Sys2Proof.Machine.execTxCommand t b k ret s
  | .rxCommand t b w => Sys2Proof.Machine.execRxCommand t b w s
  | .keeperImmediateTx t b rate cls ret data => Sys2Proof.Machine.execKeeperImmediateTx t b rate cls ret data s
  | .radioTransitionEnd t b => Sys2Proof.Machine.execRadioTransitionEnd t b s
  | .sequenceStep t b sq ix => Sys2Proof.Machine.execSequenceStep t b sq ix s
  | .txFrameEnd t b p cap => Sys2Proof.Machine.execTxFrameEnd t b p cap s
  | .rxWindowClose t b w => Sys2Proof.Machine.execRxWindowClose t b w s
  | .tempSample t temp => Sys2Proof.Machine.execTempSample t temp s
  | .calGapStart t b => Sys2Proof.Machine.execCalGapStart t b s
  | .synthCalEnd t b locked => Sys2Proof.Machine.execSynthCalEnd t b locked s
  | .calDeferExpiry t b g => Sys2Proof.Machine.execCalDeferExpiry t b g s
  | .calCmdPending t b g => Sys2Proof.Machine.execCalCmdPending t b g s
  | .calCmdForce t b g => Sys2Proof.Machine.execCalCmdForce t b g s
  | .forcedCalStart t b => Sys2Proof.Machine.execForcedCalStart t b s
  | .lockLoss t b => Sys2Proof.Machine.execLockLoss t b s
  | .bgcalStart t b k => Sys2Proof.Machine.execBgcalStart t b k s
  | .bgcalEnd t b result => Sys2Proof.Machine.execBgcalEnd t b result s
  | .preambleDetect t b p => Sys2Proof.Machine.execPreambleDetect t b p s
  | .syncSearchTimeout t b => Sys2Proof.Machine.execSyncSearchTimeout t b s
  | .headerReceived t b sync soft => Sys2Proof.Machine.execHeaderReceived t b sync soft s
  | .codewordReady t b soft layers => Sys2Proof.Machine.execCodewordReady t b soft layers s
  | .codewordDecoded t b => Sys2Proof.Machine.execCodewordDecoded t b s
  | .rxFrameEnd t b => Sys2Proof.Machine.execRxFrameEnd t b s
  | .frame154Rx t phr psdu fcsOk rssi sfd => Sys2Proof.Machine.execFrame154Rx t phr psdu fcsOk rssi sfd s
  | .frame154TxRequest t ch ret phr psdu => Sys2Proof.Machine.execFrame154TxRequest t ch ret phr psdu s
  | .jobAdmit t => Sys2Proof.Machine.execJobAdmit t s
  | .checkJobEnd t job => Sys2Proof.Machine.execCheckJobEnd t job s
  | .reorderSkip t client => Sys2Proof.Machine.execReorderSkip t client s
  | .keyServiceEpoch t client => Sys2Proof.Machine.execKeyServiceEpoch t client s
  | .kdfCmd t v => Sys2Proof.Machine.execKdfCmd t v s
  | .kdfJobEnd t => Sys2Proof.Machine.execKdfJobEnd t s
  | .ringVerify t => Sys2Proof.Machine.execRingVerify t s
  | .assocAnswer t => Sys2Proof.Machine.execAssocAnswer t s
  | .superframeBoundary t => Sys2Proof.Machine.execSuperframeBoundary t s
  | .openMapWrite t b v => Sys2Proof.Machine.execOpenMapWrite t b v s
  | .planCommit t sfAhead => Sys2Proof.Machine.execPlanCommit t sfAhead s
  | .dutyBucketRoll t => Sys2Proof.Machine.execDutyBucketRoll t s
  | .profileSwitchGo t p countdown => Sys2Proof.Machine.execProfileSwitchGo t p countdown s
  | .profileSwitchCancel t => Sys2Proof.Machine.execProfileSwitchCancel t s
  | .bellMatch t code => Sys2Proof.Machine.execBellMatch t code s
  | .parentWindowClose t => Sys2Proof.Machine.execParentWindowClose t s
  | .packetEntry t inj => Sys2Proof.Machine.execPacketEntry t inj s
  | .recircEntry t => Sys2Proof.Machine.execRecircEntry t s
  | .passResolve t => Sys2Proof.Machine.execPassResolve t s
  | .learnPop t => Sys2Proof.Machine.execLearnPop t s
  | .tblRead t tbl index => Sys2Proof.Machine.execTblRead t tbl index s
  | .tblWrite t tbl index => Sys2Proof.Machine.execTblWrite t tbl index s
  | .tblClear t tbl index => Sys2Proof.Machine.execTblClear t tbl index s
  | .tblHash t tbl => Sys2Proof.Machine.execTblHash t tbl s
  | .genCommit t => Sys2Proof.Machine.execGenCommit t s
  | .genCommitProceed t => Sys2Proof.Machine.execGenCommitProceed t s
  | .genDrainTimeout t => Sys2Proof.Machine.execGenDrainTimeout t s
  | .portSelect t p => Sys2Proof.Machine.execPortSelect t p s
  | .portFrameEnd t p => Sys2Proof.Machine.execPortFrameEnd t p s
  | .gateEntryChange t e => Sys2Proof.Machine.execGateEntryChange t e s
  | .gateDataWrite t v => Sys2Proof.Machine.execGateDataWrite t v s
  | .gateSwap t e => Sys2Proof.Machine.execGateSwap t e s
  | .meterWrite t colourAware yellowDp => Sys2Proof.Machine.execMeterWrite t colourAware yellowDp s
  | .meterRead t => Sys2Proof.Machine.execMeterRead t s
  | .ethFrameRx t e data => Sys2Proof.Machine.execEthFrameRx t e data s
  | .linkUpChange t e blockLock hiBer localFault remoteFault => Sys2Proof.Machine.execLinkUpChange t e blockLock hiBer localFault remoteFault s
  | .rngBringupStart t => Sys2Proof.Machine.execRngBringupStart t s
  | .rngTrainTimeout t => Sys2Proof.Machine.execRngTrainTimeout t s
  | .rngCheckEnd t errs6 errs7 => Sys2Proof.Machine.execRngCheckEnd t errs6 errs7 s
  | .rngStepResult t => Sys2Proof.Machine.execRngStepResult t s
  | .rngRetryExpiry t => Sys2Proof.Machine.execRngRetryExpiry t s
  | .rngLinkDown t block6 hiBer6 block7 hiBer7 => Sys2Proof.Machine.execRngLinkDown t block6 hiBer6 block7 hiBer7 s
  | .rngRetrainCmd t => Sys2Proof.Machine.execRngRetrainCmd t s
  | .rngFrameRx t data => Sys2Proof.Machine.execRngFrameRx t data s
  | .rngIdleEntry t => Sys2Proof.Machine.execRngIdleEntry t s
  | .keepaliveTimer t => Sys2Proof.Machine.execKeepaliveTimer t s
  | .mirrorRetxTimeout t ch => Sys2Proof.Machine.execMirrorRetxTimeout t ch s
  | .laneTestWrite t lane v => Sys2Proof.Machine.execLaneTestWrite t lane v s
  | .tsPop t => Sys2Proof.Machine.execTsPop t s
  | .ppsEdge t falling => Sys2Proof.Machine.execPpsEdge t falling s
  | .nmeaSentence t text => Sys2Proof.Machine.execNmeaSentence t text s
  | .domFeed t d hi => Sys2Proof.Machine.execDomFeed t d hi s
  | .domainLossTimeout t d => Sys2Proof.Machine.execDomainLossTimeout t d s
  | .revertTimer t => Sys2Proof.Machine.execRevertTimer t s
  | .timeGateTimeout t => Sys2Proof.Machine.execTimeGateTimeout t s
  | .rtcSecondWrite t => Sys2Proof.Machine.execRtcSecondWrite t s
  | .dramRequest t req addr keepOpen data => Sys2Proof.Machine.execDramRequest t req addr keepOpen data s
  | .rowCloseTimeout t ch bank => Sys2Proof.Machine.execRowCloseTimeout t ch bank s
  | .refreshDue t ch => Sys2Proof.Machine.execRefreshDue t ch s
  | .selfRefreshEntry t ch => Sys2Proof.Machine.execSelfRefreshEntry t ch s
  | .sramScrub t blk sub word r => Sys2Proof.Machine.execSramScrub t blk sub word r s
  | .cvStart t req n => Sys2Proof.Machine.execCvStart t req n s
  | .cvData t req n v => Sys2Proof.Machine.execCvData t req n v s
  | .cvStateWrite t req n hi => Sys2Proof.Machine.execCvStateWrite t req n hi s
  | .domainReady t d => Sys2Proof.Machine.execDomainReady t d s
  | .reloadCmd t mask => Sys2Proof.Machine.execReloadCmd t mask s
  | .reloadComplete t => Sys2Proof.Machine.execReloadComplete t s
  | .reloadFail t d => Sys2Proof.Machine.execReloadFail t d s
  | .vinRise t mv => Sys2Proof.Machine.execVinRise t mv s
  | .railStep t inRegulation => Sys2Proof.Machine.execRailStep t inRegulation s
  | .railFaultRetry t => Sys2Proof.Machine.execRailFaultRetry t s
  | .resetAssert t => Sys2Proof.Machine.execResetAssert t s
  | .resetRelease t => Sys2Proof.Machine.execResetRelease t s
  | .bringUp t runs => Sys2Proof.Machine.execBringUp t runs s
  | .startLimitExpiry t d => Sys2Proof.Machine.execStartLimitExpiry t d s
  | .startWaitExpiry t => Sys2Proof.Machine.execStartWaitExpiry t s
  | .hbPatternClassify t h1 h2 h3 => Sys2Proof.Machine.execHbPatternClassify t h1 h2 h3 s
  | .heartbeatLoss t => Sys2Proof.Machine.execHeartbeatLoss t s
  | .heartbeatReturn t => Sys2Proof.Machine.execHeartbeatReturn t s
  | .handoverCmd t sfAhead => Sys2Proof.Machine.execHandoverCmd t sfAhead s
  | .forceCmd t => Sys2Proof.Machine.execForceCmd t s
  | .lampChange t => Sys2Proof.Machine.execLampChange t s
  | .pwrRequestEclipse t => Sys2Proof.Machine.execPwrRequestEclipse t s
  | .pwrRequestDeepEclipse t => Sys2Proof.Machine.execPwrRequestDeepEclipse t s
  | .pwrRequestMoored t => Sys2Proof.Machine.execPwrRequestMoored t s
  | .pwrRequestAccept t => Sys2Proof.Machine.execPwrRequestAccept t s
  | .entryComplete t => Sys2Proof.Machine.execEntryComplete t s
  | .sequencerTick t vinMv temp => Sys2Proof.Machine.execSequencerTick t vinMv temp s
  | .rtcAlarm t => Sys2Proof.Machine.execRtcAlarm t s
  | .wakeExit t runs => Sys2Proof.Machine.execWakeExit t runs s
  | .padRelease t groups => Sys2Proof.Machine.execPadRelease t groups s
  | .gpioDebounce t pin level since => Sys2Proof.Machine.execGpioDebounce t pin level since s
  | .gpioChatterCheck t pin transitions => Sys2Proof.Machine.execGpioChatterCheck t pin transitions s
  | .gpioReassess t pin transitions => Sys2Proof.Machine.execGpioReassess t pin transitions s
  | .gpioStuck t pin => Sys2Proof.Machine.execGpioStuck t pin s
  | .spoolWrite t => Sys2Proof.Machine.execSpoolWrite t s
  | .spoolAckRx t data => Sys2Proof.Machine.execSpoolAckRx t data s
  | .spoolFwdTimeout t => Sys2Proof.Machine.execSpoolFwdTimeout t s
  | .geoFixTimeout t => Sys2Proof.Machine.execGeoFixTimeout t s
  | .ptpSyncComplete t e offset => Sys2Proof.Machine.execPtpSyncComplete t e offset s
  | .mgmtRx t m => Sys2Proof.Machine.execMgmtRx t m s
  | .hello t => Sys2Proof.Machine.execHello t s
  | .read t => Sys2Proof.Machine.execRead t s
  | .writeGuarded t => Sys2Proof.Machine.execWriteGuarded t s
  | .stageBegin t => Sys2Proof.Machine.execStageBegin t s
  | .stageData t => Sys2Proof.Machine.execStageData t s
  | .stageEnd t => Sys2Proof.Machine.execStageEnd t s
  | .reload t => Sys2Proof.Machine.execReload t s
  | .ladder t => Sys2Proof.Machine.execLadder t s
  | .logRead t => Sys2Proof.Machine.execLogRead t s
  | .charRead t => Sys2Proof.Machine.execCharRead t s
  | .restart t => Sys2Proof.Machine.execRestart t s
  | .evPendClear t ix v => Sys2Proof.Machine.execEvPendClear t ix v s
  | .evOccRead t => Sys2Proof.Machine.execEvOccRead t s
  | .evPop t => Sys2Proof.Machine.execEvPop t s
  | .logCommit t => Sys2Proof.Machine.execLogCommit t s
  | .logCommitDone t => Sys2Proof.Machine.execLogCommitDone t s
  | .logSecondEnd t => Sys2Proof.Machine.execLogSecondEnd t s
  | .brownout t vinMv => Sys2Proof.Machine.execBrownout t vinMv s
  | .mooringPowerLoss t => Sys2Proof.Machine.execMooringPowerLoss t s
  | .watchKick t mask => Sys2Proof.Machine.execWatchKick t mask s
  | .watchExpiry t w => Sys2Proof.Machine.execWatchExpiry t w s
  | .ladderStep t d => Sys2Proof.Machine.execLadderStep t d s
  | .ladderDeadline t d => Sys2Proof.Machine.execLadderDeadline t d s
  | .ladderRequest t d step => Sys2Proof.Machine.execLadderRequest t d step s
  | .ladderHaltClear t => Sys2Proof.Machine.execLadderHaltClear t s
  | .extest t boundary => Sys2Proof.Machine.execExtest t boundary s
  | .samplePreload t boundary => Sys2Proof.Machine.execSamplePreload t boundary s
  | .idcode t => Sys2Proof.Machine.execIdcode t s
  | .clamp t => Sys2Proof.Machine.execClamp t s
  | .highz t => Sys2Proof.Machine.execHighz t s
  | .bypass t code => Sys2Proof.Machine.execBypass t code s
  | .dbgChal t random => Sys2Proof.Machine.execDbgChal t random s
  | .dbgResp t response => Sys2Proof.Machine.execDbgResp t response s
  | .dbgBlockExpiry t => Sys2Proof.Machine.execDbgBlockExpiry t s
  | .dbgRelock t => Sys2Proof.Machine.execDbgRelock t s
  | .dbgAccessRead t target addr => Sys2Proof.Machine.execDbgAccessRead t target addr s
  | .dbgAccessWrite t target addr data => Sys2Proof.Machine.execDbgAccessWrite t target addr data s
  | .dbgHalt t core => Sys2Proof.Machine.execDbgHalt t core s
  | .dbgResume t core => Sys2Proof.Machine.execDbgResume t core s
  | .dbgStep t core => Sys2Proof.Machine.execDbgStep t core s
  | .dbgBreakpoint t core ix => Sys2Proof.Machine.execDbgBreakpoint t core ix s
  | .dbgWatchpoint t core addr write => Sys2Proof.Machine.execDbgWatchpoint t core addr write s
  | .thermalTrip t => Sys2Proof.Machine.execThermalTrip t s
  | .thermalRelease t => Sys2Proof.Machine.execThermalRelease t s
  | .sfdpRetry t found => Sys2Proof.Machine.execSfdpRetry t found s
  | .sealJobEnd t job => Sys2Proof.Machine.execSealJobEnd t job s
  | .dramRequestComplete t ch => Sys2Proof.Machine.execDramRequestComplete t ch s
  | .prbsCheckerSync t lane bits => Sys2Proof.Machine.execPrbsCheckerSync t lane bits s
  | .timeExchangeTimer t => Sys2Proof.Machine.execTimeExchangeTimer t s
  | .handoverBoundary t => Sys2Proof.Machine.execHandoverBoundary t s

end Sys2Proof.Machine
end

