-- ==== Sys2Proof/Safety.lean ====
section
/-! DEFINITION. The terms in which claims speak of good states. -/

namespace Sys2Proof.Machine

/-- The event queue holds at most 1,023 entries and the overflow entry behind them (R356). -/
def Events.Bound (e : Events) : Prop := e.queue.length ≤ 1024 ∧ (e.overflowHeld = false → e.queue.length ≤ 1023)

/-- A device whose stored data keep their form: the memory list is canonical (log 11) and the event queue is within its
bound. -/
def Device.Sound (d : Device) : Prop := Memory.wf d.mem.bytes = true ∧ d.ev.Bound

/-- A state whose device is sound. -/
def State.Sound (s : State) : Prop := s.dev.Sound

/-- The device as a command of instant `t` finds it: the clocks at that instant, nothing on the interfaces. -/
def State.seen (s : State) (t : Time) : Device := s.dev.begin t

/-- The state with this device and the queue as it is. -/
def State.put (s : State) (d : Device) : State := { s with dev := d }

/-- A Keeper core's access to this register is not refused (R11, R14). -/
def Device.Admits (d : Device) (addr : Nat) : Prop := d.refusal 0 addr 4 = none

/-- The commands that can change a byte of Keeper shared SRAM or DRAM: a bus write, a DRAM transfer, a spool entry, and
what powers a domain off, resets it or trains the DRAM. -/
def Instr.mayStore (i : Instr) : Bool :=
  match i with
  | .registerWrite .. => true
  | .rxCommand .. => true
  | .radioTransitionEnd .. => true
  | .txFrameEnd .. => true
  | .rxWindowClose .. => true
  | .lockLoss .. => true
  | .preambleDetect .. => true
  | .syncSearchTimeout .. => true
  | .headerReceived .. => true
  | .codewordReady .. => true
  | .codewordDecoded .. => true
  | .rxFrameEnd .. => true
  | .frame154Rx .. => true
  | .checkJobEnd .. => true
  | .assocAnswer .. => true
  | .superframeBoundary .. => true
  | .rngFrameRx .. => true
  | .domainReady .. => true
  | .reloadCmd .. => true
  | .reloadFail .. => true
  | .vinRise .. => true
  | .resetAssert .. => true
  | .resetRelease .. => true
  | .bringUp .. => true
  | .startLimitExpiry .. => true
  | .lampChange .. => true
  | .entryComplete .. => true
  | .wakeExit .. => true
  | .spoolWrite .. => true
  | .writeGuarded .. => true
  | .reload .. => true
  | .brownout .. => true
  | .mooringPowerLoss .. => true
  | .ladderStep .. => true
  | .dbgAccessWrite .. => true
  | .thermalTrip .. => true
  | .thermalRelease .. => true
  | .sfdpRetry .. => true
  | .dramRequestComplete .. => true
  | _ => false

/-- The commands that are an access to one register, a Keeper core's but for those of a check-value unit: their instant, the
requester and that register. -/
def Instr.keeperReg (i : Instr) : Option (Time × Nat × Nat) :=
  match i with
  | .snapCapture t n => some (t, 0, Reg.DOM_SNAP n.val)
  | .snapEnd t n => some (t, 0, Reg.DOM_SNAP n.val)
  | .calCmdPending t b _ => some (t, 0, Reg.RAD_CAL_CMD b)
  | .calCmdForce t b _ => some (t, 0, Reg.RAD_CAL_CMD b)
  | .kdfCmd t _ => some (t, 0, Reg.CIPH_KDF_CMD)
  | .openMapWrite t b _ => some (t, 0, openReg b)
  | .planCommit t _ => some (t, 0, Reg.LANT_PLAN_CMD)
  | .profileSwitchGo t _ _ => some (t, 0, Reg.LANT_PROFILE_CMD)
  | .profileSwitchCancel t => some (t, 0, Reg.LANT_PROFILE_CMD)
  | .learnPop t => some (t, 0, Reg.PKT_LEARN_POP)
  | .tblRead t _ _ => some (t, 0, Reg.PKT_TBL_CMD)
  | .tblWrite t _ _ => some (t, 0, Reg.PKT_TBL_CMD)
  | .tblClear t _ _ => some (t, 0, Reg.PKT_TBL_CMD)
  | .tblHash t _ => some (t, 0, Reg.PKT_TBL_CMD)
  | .genCommit t => some (t, 0, Reg.PKT_GEN_CMD)
  | .gateDataWrite t _ => some (t, 0, Reg.PKT_GATE_DATA)
  | .gateSwap t e => some (t, 0, Reg.PKT_GATE_CTRL e.val)
  | .meterWrite t _ _ => some (t, 0, Reg.PKT_MTR_CMD)
  | .meterRead t => some (t, 0, Reg.PKT_MTR_CMD)
  | .rngRetrainCmd t => some (t, 0, Reg.LANE_RNG_CMD)
  | .laneTestWrite t n _ => some (t, 0, Reg.LANE_TEST n.val)
  | .tsPop t => some (t, 0, Reg.LANE_TS_POP)
  | .domFeed t x _ => some (t, 0, Reg.LANT_DOM_FEED_HI (domIdx x))
  | .cvStart t q n => some (t, q, Reg.CV_CMD n.val)
  | .cvData t q n _ => some (t, q, Reg.CV_DATA n.val)
  | .cvStateWrite t q n _ => some (t, q, Reg.CV_STATE_HI n.val)
  | .reloadCmd t _ => some (t, 0, Reg.KEEP_LL_RELOAD_CMD)
  | .handoverCmd t _ => some (t, 0, Reg.MOOR_TWIN_CMD)
  | .forceCmd t => some (t, 0, Reg.MOOR_TWIN_CMD)
  | .pwrRequestEclipse t => some (t, 0, Reg.MOOR_PWR_CMD)
  | .pwrRequestDeepEclipse t => some (t, 0, Reg.MOOR_PWR_CMD)
  | .pwrRequestMoored t => some (t, 0, Reg.MOOR_PWR_CMD)
  | .padRelease t _ => some (t, 0, Reg.MOOR_PAD_RELEASE)
  | .evPendClear t i _ => some (t, 0, Reg.KEEP_EV_PEND i.val)
  | .evOccRead t => some (t, 0, Reg.KEEP_EV_OCC)
  | .evPop t => some (t, 0, Reg.KEEP_EV_POP)
  | .logCommit t => some (t, 0, Reg.KEEP_LOG_CMD)
  | .watchKick t _ => some (t, 0, Reg.MOOR_WATCH_KICK)
  | .ladderRequest t _ _ => some (t, 0, Reg.MOOR_LADDER_CMD)
  | .ladderHaltClear t => some (t, 0, Reg.MOOR_LADDER_CMD)
  | _ => none

end Sys2Proof.Machine
end

