-- ==== Sys2Proof/Certificates/Slice0/Obligations.lean ====
section
/-! DEFINITION. The statements for the provers. A statement about a command says under which conditions on the state and the
operands alone `exec` answers which next state; `s.seen t` is the device at the command's instant and `s.put d` the state with
that device and the same queue, so an equation with `s.put` is the command's frame as well: what the right-hand side does not
change is unchanged. -/

open Sys2Proof Sys2Proof.Machine

/-! ## The step, the queue, reset and the whole machine -/

/-- With a command at the front of the queue, a step is that command on the state with the queue's rest (log 5). -/
def Obligations.StepRunsTheFrontCommand : Prop :=
  ∀ (c : Instr) (rest : List Instr) (s : State), step { s with pending := c :: rest } = exec c { s with pending := rest }

/-- On an empty queue the block idles (DESIGN CHOICE, log 5). -/
def Obligations.StepIdlesOnAnEmptyQueue : Prop :=
  ∀ s : State, s.pending = [] → step s = .next s

/-- The state after reset is sound: memory lists nothing and the event queue is empty. -/
def Obligations.ResetIsSound : Prop := State.reset.Sound

/-- What reset leaves, where the specification says: every register its reset value, of which open_max is 128 cycles (R243),
sr_idle 64 µs (R249), idle_gap 10 µs (R219) and gate_timeout 10 s; every counter 0; no event pending, none queued and no
occurrence counted; every domain in RESET; no key in the key store; the debug unit locked. -/
def Obligations.ResetValues : Prop :=
  let d := State.reset.dev
  (∀ a, d.cfg a = resetValue a ∧ d.cnt a = 0) ∧
  (d.cf (Reg.MEM_CH_CTRL 0) 7 0 = 128 ∧ d.srIdle = 64 * usec ∧ d.idleGap = 10 ∧ d.cf Reg.LANT_TIME_CTRL 22 15 = 10) ∧
  (d.ev.pending = 0 ∧ d.ev.queue = [] ∧ ∀ ev, d.ev.occ.get 0 ev = 0) ∧
  (∀ n, d.domSt n = 1) ∧ (∀ c sl, (d.key c sl).st = .empty) ∧ d.dbg.unlocked = false

/-- Every step keeps the state sound: memory stays canonical, and the event queue holds at most 1,023 entries and an
OVERFLOW entry behind them (R356). -/
def Obligations.EveryStepKeepsSoundness : Prop :=
  ∀ s s' : State, s.Sound → step s = .next s' → s'.Sound

/-- No command changes what the one-time-programmable cells hold. -/
def Obligations.OtpNeverChanges : Prop :=
  ∀ s s' : State, step s = .next s' → s'.dev.otp = s.dev.otp

/-- The device's instant never runs back (DESIGN CHOICE, log 1: an instant behind the clock is taken as the clock's). -/
def Obligations.TheInstantNeverRunsBack : Prop :=
  ∀ s s' : State, step s = .next s' → s.dev.clk.now ≤ s'.dev.clk.now

/-- A command affects everything but the queue. -/
def Obligations.CommandsLeaveTheQueue : Prop :=
  ∀ (c : Instr) (s s' : State), exec c s = .next s' → s'.pending = s.pending

/-- No command is refused, and only a bus access to an address to which Table 1.2 gives no contents stops the machine: a
REGISTER_WRITE there, or a DBG_ACCESS there through an unlocked debug unit. Every other command, in every state and with every
operand, answers a next state with the same queue. -/
def Obligations.OnlyABusHoleStopsACommand : Prop :=
  (∀ (c : Instr) (s : State),
    (∃ s', exec c s = .next s') ∨
    (∃ t req addr width v, c = .registerWrite t req addr width v ∧ busWindow addr = none ∧ exec c s = .fault (.busHole addr)) ∨
    (∃ t target addr, c = .dbgAccessRead t target addr ∧ s.dev.dbgHole target addr = true ∧ exec c s = .fault (.busHole addr.toNat)) ∨
    (∃ t target addr data, c = .dbgAccessWrite t target addr data ∧ s.dev.dbgHole target addr = true ∧
      exec c s = .fault (.busHole addr.toNat))) ∧
  (∀ (c : Instr) (s : State),
    (∀ t req addr width v, c = .registerWrite t req addr width v → busWindow addr ≠ none) →
    (∀ t target addr, c = .dbgAccessRead t target addr → s.dev.dbgHole target addr = false) →
    (∀ t target addr data, c = .dbgAccessWrite t target addr data → s.dev.dbgHole target addr = false) →
      ∃ s', exec c s = .next s' ∧ s'.pending = s.pending)

/-- Every byte of memory is unchanged by a command that is not one of `mayStore`. -/
def Obligations.OtherCommandsStoreNothing : Prop :=
  ∀ (c : Instr) (s s' : State), Instr.mayStore c = false → exec c s = .next s' →
    ∀ a, readByte s'.dev.mem.bytes a = readByte s.dev.mem.bytes a

/-- An access that Keeper refuses raises EV026 with the detail of Table 17.10 and has no other effect, whichever of its command
registers it names; the requester is Keeper core 0 but for a check-value unit, whose commands name theirs (R11, R14). -/
def Obligations.RefusedAccessesRaiseEv026 : Prop :=
  ∀ (c : Instr) (s : State) (t : Time) (req addr : Nat) (x : Word), Instr.keeperReg c = some (t, req, addr) →
    (s.seen t).refusal req addr 4 = some x → exec c s = .next (s.put ((s.seen t).raise 26 x))

/-! ## Registers and memory windows (chapters 0 and 1) -/

/-- REGISTER_WRITE to the domain register space: an access that Keeper refuses raises EV026; an address without a register
keeps nothing; elsewhere the RW bits are stored by the mask of the register, its W1C bits are cleared where written 1, and its
WO bits have their effect (R6, R11, R14); a write that starts, feeds or sets a check-value unit is put to the unit, whose
arbiter orders the writes of one cycle (R17, R255). An address to which Table 1.2 gives no contents stops with the
fault that names it. -/
def Obligations.RegisterWrites : Prop :=
  ∀ (s : State) (t : Time) (req addr width : Nat) (v : Word),
    let d := s.seen t
    (busWindow addr = none → exec (.registerWrite t req addr width v) s = .fault (.busHole addr)) ∧
    (busWindow addr = some 2 →
      (∀ x, d.refusal req addr width = some x → exec (.registerWrite t req addr width v) s = .next (s.put (d.raise 26 x))) ∧
      (d.refusal req addr width = none → regAt addr = none → exec (.registerWrite t req addr width v) s = .next (s.put d)) ∧
      (∀ r i, d.refusal req addr width = none → regAt addr = some (r, i) →
        let n := (addr - 0x10000000) / 0x01000000
        let stored := if r.rw = 0 then d else d.regPut addr ((d.peek addr &&& ~~~ w32 r.rw) ||| (v &&& w32 r.rw))
        let cleared := if r.w1c = 0 then stored else stored.w1cWrite n r.off i v
        (∀ op, n = 1 → cvOpAt r.off v = some op → exec (.registerWrite t req addr width v) s = .next (s.put (d.cvPut req i op))) ∧
        (n ≠ 1 ∨ cvOpAt r.off v = none →
          exec (.registerWrite t req addr width v) s = .next (s.put (if r.wo = 0 then cleared else cleared.cmdWrite n r.off i v)))))

/-- REGISTER_WRITE to Keeper shared SRAM or DRAM stores the four bytes of the word at rising addresses, most significant
first, and leaves every other byte as it was; the boot ROM keeps nothing (R4, R12). -/
def Obligations.MemoryWrites : Prop :=
  ∀ (s : State) (t : Time) (req addr width : Nat) (v : Word), Memory.wf s.dev.mem.bytes = true →
    (busWindow addr = some 0 → exec (.registerWrite t req addr width v) s = .next (s.put (s.seen t))) ∧
    (busWindow addr = some 1 ∨ busWindow addr = some 3 →
      ∃ m, exec (.registerWrite t req addr width v) s = .next (s.put ((s.seen t).onMem fun x => { x with bytes := m })) ∧
        (∀ i, i < 4 → readByte m (addr + i) = BitVec.ofNat 8 (v.toNat >>> (8 * (3 - i)))) ∧
        (∀ a, a < addr ∨ addr + 4 ≤ a → readByte m a = readByte s.dev.mem.bytes a) ∧ Memory.wf m = true)

/-- RC_READ of a counter puts its live value out and clears it, or, while a snapshot of its domain is in progress, its
captured copy (R10); what the counter was incremented by in the same cycle stays in it and is not read (R20). LOW_WORD_READ
puts out the low half of the 64-bit value and captures the high half (R9). -/
def Obligations.CountersAndLowWords : Prop :=
  ∀ (s : State) (t : Time) (req addr : Nat) (r : RegRow) (i : Nat),
    let d := s.seen t
    let a := d.cntAt addr
    let c := d.regs.cnt.get ⟨0, 0⟩ a
    let x := d.cycle.incs.get (c.live, 0) a
    d.refusal req addr 4 = none → regAt addr = some (r, i) →
    (r.kind = 0 → 0 < r.rcMax → bitOf d.regs.snap (cntDom a) = false →
      let left : Device := { d with regs := { d.regs with cnt := d.regs.cnt.set ⟨0, 0⟩ a { c with live := min (cntMax a) x.2 } } }
      exec (.rcRead t req addr 4) s =
        .next (s.put ((left.onCycle fun y => { y with incs := y.incs.del a }).emit (.data (w32 x.1))))) ∧
    (r.kind = 0 → 0 < r.rcMax → bitOf d.regs.snap (cntDom a) = true →
      let left : Device := { d with regs := { d.regs with cnt := d.regs.cnt.set ⟨0, 0⟩ a { c with copy := 0 } } }
      exec (.rcRead t req addr 4) s = .next (s.put (left.emit (.data (w32 c.copy))))) ∧
    (r.kind = 1 → r.rcMax = 0 →
      let v := d.wide ((addr - 0x10000000) / 0x01000000) r.off i
      let held : Device := { d with regs := { d.regs with high := d.regs.high.set 0 addr (w32 (v / 4294967296)) } }
      exec (.lowWordRead t req addr 4) s = .next (s.put (held.emit (.data (w32 v)))))

/-- SNAP_CAPTURE completes wherever its register may be written: the live value of each RC counter of the domain is added to its
captured copy, which saturates, and cleared, no other counter changes, and the domain's snapshot is in progress. SNAP_END
completes there too: with a snapshot in progress what was not read back returns to the live counters and the snapshot ends; with
none it has no effect (R10). -/
def Obligations.Snapshots : Prop :=
  ∀ (s : State) (t : Time) (n : Fin 10),
    let d := s.seen t
    let taken (x : Nat × Cnt) : Option (Nat × Cnt) :=
      if cntDom x.1 = n.val then keepCnt x.1 ⟨0, min (cntMax x.1) (x.2.copy + x.2.live)⟩ else some x
    let back (x : Nat × Cnt) : Option (Nat × Cnt) :=
      if cntDom x.1 = n.val then keepCnt x.1 ⟨min (cntMax x.1) (x.2.copy + x.2.live), 0⟩ else some x
    let rest (c : Cycle) : Cycle := { c with incs := c.incs.filter fun x => decide (cntDom x.1 ≠ n.val) }
    d.Admits (Reg.DOM_SNAP n.val) →
    (∃ bits, (n.val ≠ 9 → bits = d.regs.snapBits) ∧ (n.val = 9 → ∀ i, i < 8 → bits.get 0 i = (d.lane i).bits) ∧
      exec (.snapCapture t n) s = .next (s.put (({ d with regs :=
        { d.regs with cnt := d.regs.cnt.filterMap taken, snap := setBit d.regs.snap n.val, snapBits := bits } } : Device).onCycle rest))) ∧
    (bitOf d.regs.snap n.val = true →
      exec (.snapEnd t n) s = .next (s.put (({ d with regs :=
        { d.regs with cnt := d.regs.cnt.filterMap back, snap := clrBit d.regs.snap n.val } } : Device).onCycle rest))) ∧
    (bitOf d.regs.snap n.val = false → exec (.snapEnd t n) s = .next (s.put d))

/-! ## Radio front end (chapter 2) -/

/-- TX_COMMAND while D2 and the radio's domain run: each kind of transmission by its own rule (R39, and the rules that
`TxKind` names); while one of them is OFF or in RESET it has no effect. A regular beacon that the gates, the plan and the duty
windows admit is put to the radio with slot 0 as its planned start, and its band is lit (R86). KEEPER_IMMEDIATE_TX and
FRAME_154_TX_REQUEST give the frame the next planned start that the plan leaves free and put it, by its start, in the radio's
Keeper queue; one for which no time is free waits there without a start (the model's choice, log 78). A frame that the band's
rates and lengths, or the profile's 802.15.4 channels, do not admit is not queued (R29, R79; that nothing tells of it is the
model's choice, log 78). -/
def Obligations.Transmissions : Prop :=
  (∀ (s : State) (t : Time) (b : Band) (ret : BitVec 3),
    let d := s.seen t
    (∀ k : TxKind, d.domDown 2 = true ∨ d.domDown (bandDom b) = true → exec (.txCommand t b k ret) s = .next (s.put d)) ∧
    (d.domDown 2 = false → d.domDown (bandDom b) = false →
      exec (.txCommand t b .beacon ret) s = .next (s.put (d.txBeacon b ret false)) ∧
      exec (.txCommand t b .lrBeacon ret) s = .next (s.put (d.txBeacon b ret true)) ∧
      (∀ g, exec (.txCommand t b (.reply g) ret) s = .next (s.put (d.txGrantReply b ret g))) ∧
      exec (.txCommand t b .pollReply ret) s = .next (s.put (d.txPollReply b ret)) ∧
      exec (.txCommand t b .assocResp ret) s = .next (s.put (d.txAssoc b ret)) ∧
      (∀ g, exec (.txCommand t b (.down g) ret) s = .next (s.put (d.txDown b ret g))) ∧
      (b = .l → exec (.txCommand t b .bell ret) s = .next (s.put (d.txBell ret))) ∧
      (b ≠ .l → exec (.txCommand t b .bell ret) s = .next (s.put d)) ∧
      exec (.txCommand t b .keeper ret) s = .next (s.put (d.txKeeper b)) ∧
      (∀ slot rate cls frame, exec (.txCommand t b (.parentUp slot rate cls frame) ret) s = .next (s.put (d.txParent b ret slot rate cls frame)))) ∧
    (d.domDown 2 = false → d.domDown (bandDom b) = false → d.gatesOpen b = true → d.parentBand b = false → (d.prof b).present = true →
      d.lant.eclipseFlag = false →
      let n := d.sfFor b 0
      let f : TxFrame := { d.baseFrame b ret .beacon (d.beaconRate b) (d.beaconCls b) 64 n (d.devAt (slotLamp b n 0)) with
        data := padTo 64 (beaconHead n false), beacon := true }
      d.noBeacon b n = false → d.dutyAdmits b f.span true (d.airQ b f) = true →
        exec (.txCommand t b .beacon ret) s = .next (s.put ((d.onLant fun l => { l with lit := setBit l.lit (bandNum b) }).radTx b f)) ∧
        f.planned = d.devAt (slotLamp b n 0) ∧ f.rate = d.beaconRate b ∧ f.cls = d.beaconCls b ∧ f.ret = ret)) ∧
  (∀ (s : State) (t : Time),
    let d := s.seen t
    (∀ (b : Band) (rate cls : Nat) (ret : BitVec 3) (data : Bytes),
      let f := d.keeperFrame b ret rate cls data
      (∀ lamp, d.keeperUp = true → d.domDown (bandDom b) = false → rateInClass b cls rate = true → data.length ≤ maxLength b →
        d.nextFree b f.durQ = some lamp →
        exec (.keeperImmediateTx t b rate cls ret data) s = .next (s.put (d.onRad b fun r =>
          { r with keeper := insertPlanned { f with planned := d.devAt lamp, sf := lamp / sfLen } r.keeper }))) ∧
      (d.keeperUp = true → d.domDown (bandDom b) = false → rateInClass b cls rate = true → data.length ≤ maxLength b →
        d.nextFree b f.durQ = none →
        exec (.keeperImmediateTx t b rate cls ret data) s = .next (s.put (d.onRad b fun r => { r with keeper := insertPlanned f r.keeper }))) ∧
      (d.keeperUp = false ∨ d.domDown (bandDom b) = true ∨ rateInClass b cls rate = false ∨ maxLength b < data.length →
        exec (.keeperImmediateTx t b rate cls ret data) s = .next (s.put d))) ∧
    (∀ (ch : Nat) (ret : BitVec 3) (phr : Byte) (psdu : Bytes),
      let used := d.useGroup .m (chan154 ch)
      let f := d.frame154 ret ch phr psdu
      (∀ lamp, d.keeperUp = true → d.domDown 4 = false → d.permits154 ch = true → 1 ≤ psdu.length → psdu.length ≤ 127 → 11 ≤ ch → ch ≤ 26 →
        used.nextFree .m f.durQ = some lamp →
        exec (.frame154TxRequest t ch ret phr psdu) s = .next (s.put (used.onRad .m fun r =>
          { r with keeper := insertPlanned { f with planned := used.devAt lamp, sf := lamp / sfLen } r.keeper }))) ∧
      (d.keeperUp = false ∨ d.domDown 4 = true ∨ d.permits154 ch = false ∨ psdu.length = 0 ∨ 127 < psdu.length ∨ ch < 11 ∨ 26 < ch →
        exec (.frame154TxRequest t ch ret phr psdu) s = .next (s.put d))))

/-- RX_COMMAND of a window that the plan gives, on a radio that reaches RX before it closes: the window stands in the radio's
list by its opening and the radio's transitions are planned for it; one that is there already is not put again; where the radio
cannot reach RX before it closes, it counts as lost, with its event, and its note is closed. RX_WINDOW_CLOSE: a window closes at
its end, and not before: one that holds a frame whose header has passed stays open for that frame, any other ends (R40, R73). -/
def Obligations.ReceiveWindows : Prop :=
  ∀ (s : State) (t : Time) (b : Band) (w : RxWin),
    let d := s.seen t
    (d.domSt 2 ≠ 3 ∨ d.domSt (bandDom b) ≠ 3 ∨ (d.prof b).present = false ∨ (d.litOrOff = false ∧ w ≠ .air) →
      exec (.rxCommand t b w) s = .next (s.put d)) ∧
    (d.domSt 2 = 3 → d.domSt (bandDom b) = 3 → (d.prof b).present = true → (d.litOrOff = true ∨ w = .air) →
      let now := d.rxSync b
      (now.winOf b w = none → exec (.rxCommand t b w) s = .next (s.put now)) ∧
      (∀ x d', now.winOf b w = some (x, d') →
        ((d'.radio b).wins.any (fun y => y.w == w && y.sf == x.sf) = true → exec (.rxCommand t b w) s = .next (s.put d')) ∧
        ((d'.radio b).wins.any (fun y => y.w == w && y.sf == x.sf) = false →
          let ready := d'.needCal b x.chan
          (ready.rxReach b x < x.closesAt → exec (.rxCommand t b w) s = .next (s.put
            (((((ready.bgAbort b).onRad b fun r => { r with wins := insertWin x r.wins }).replan b none).openWins b)))) ∧
          (x.closesAt ≤ ready.rxReach b x → exec (.rxCommand t b w) s = .next (s.put
            ((((ready.bgAbort b).inc16 (Reg.RAD_WIN_LOST_CNT b)).raiseRad b 0 0).winNoted b x true)))))) ∧
    (let now := d.rxSync b;
      (((now.radio b).wins.find? fun x => x.w == w) = none → exec (.rxWindowClose t b w) s = .next (s.put now)) ∧
      (∀ x, ((now.radio b).wins.find? fun x => x.w == w) = some x →
        let headed := (now.radio b).cur.any fun c => c.hdrOk
        (now.clk.now < x.closesAt ∨ x.closed = true → exec (.rxWindowClose t b w) s = .next (s.put now)) ∧
        (x.closesAt ≤ now.clk.now → x.closed = false → x.isOpen = true → headed = true →
          exec (.rxWindowClose t b w) s = .next (s.put (now.onRad b fun r =>
            { r with wins := r.wins.map fun y => if y = x then { y with closed := true } else y }))) ∧
        (x.closesAt ≤ now.clk.now → x.closed = false → x.isOpen = false ∨ headed = false →
          exec (.rxWindowClose t b w) s = .next (s.put (now.winEnd b x)))))

/-- RADIO_TRANSITION_END completes in every state. Once the time of the first transition has come, and the sequence steps due by
then are applied, the radio is in the state it leads to, on the channel and class that it tunes, with the transitions after it
still to come: that is all of its effect on the way to a state that is neither TX nor RX; on the way to TX the frame to be sent
takes its gain and its pins' sequence then begins, and in RX the windows due are open (R22, R25, R45, R50). Before that time,
and with no transition to end, only the due steps are applied. SEQUENCE_STEP of the entry that is next in the sequence in
progress, once its offset has passed, applies its pattern to the pins and shows them; any other has no effect (R45). -/
def Obligations.TransitionsAndSequences : Prop :=
  ∀ (s : State) (t : Time) (b : Band),
    let d := s.seen t
    (let now := ((d.rxSync b).seqSync b).seqFlush b (d.rxSync b).clk.now;
      ((now.radio b).trans = [] → exec (.radioTransitionEnd t b) s = .next (s.put now)) ∧
      (∀ x rest, (now.radio b).trans = x :: rest →
        let moved := now.onRad b fun r => { r with
          st := x.dest, trans := rest
          chan := match x.tune with | some c => some c.1 | none => r.chan
          cls := match x.tune with | some c => c.2 | none => r.cls
          txOffAt := if r.st = .tx then some x.ends else r.txOffAt }
        (now.clk.now < x.ends → exec (.radioTransitionEnd t b) s = .next (s.put now)) ∧
        (x.ends ≤ now.clk.now → x.dest ≠ .tx → x.dest ≠ .rx → exec (.radioTransitionEnd t b) s = .next (s.put moved)) ∧
        (x.ends ≤ now.clk.now → x.dest = .tx → (now.radio b).tx = none → exec (.radioTransitionEnd t b) s = .next (s.put moved)) ∧
        (∀ run, x.ends ≤ now.clk.now → x.dest = .tx → (now.radio b).tx = some run →
          let go := moved.runOf b run.frame run.firstSym run.at_
          exec (.radioTransitionEnd t b) s =
            .next (s.put ((moved.onRad b fun r => { r with tx := some go }).seqBegin b .txOn x.ends go.gain go.frame.ant))) ∧
        (x.ends ≤ now.clk.now → x.dest = .rx → exec (.radioTransitionEnd t b) s = .next (s.put (moved.openWins b))))) ∧
    (∀ (sq : SeqId) (i : Fin 8),
      let now := d.seqSync b
      let r := now.radio b
      let w := now.seqWord b sq i.val
      let ctrl := now.cfg (Reg.RAD_PWR_CTRL b)
      (r.seqRun = none → exec (.sequenceStep t b sq i) s = .next (s.put now)) ∧
      (∀ s' z0, r.seqRun = some (s', z0) → s' ≠ sq ∨ r.seqLeft.head? ≠ some i.val ∨ now.clk.now < z0 + now.seqOff b sq i.val →
        exec (.sequenceStep t b sq i) s = .next (s.put now)) ∧
      (∀ z0, r.seqRun = some (sq, z0) → r.seqLeft.head? = some i.val → z0 + now.seqOff b sq i.val ≤ now.clk.now →
        let driven := stepPins r.pins w (sq == .txOn && bitOf ctrl 30) ((sq == .txOn || sq == .rxOn) && bitOf ctrl 29) r.seqGain r.seqAnt
        let shown := if now.paMuted = true then clrBit driven 0 else driven
        let applied := now.onRad b fun r => { r with pins := shown, seqLeft := r.seqLeft.filter fun j => j != i.val }
        exec (.sequenceStep t b sq i) s = .next (s.put (applied.emit (.pins b (applied.pinLevels b))))))

/-- TX_FRAME_END, once the last symbol of a frame that waits for no seal is out: its air and PA time is charged to its
sub-band's duty windows, it is put out on the air and the radio leaves TX by its return state, the frame is done with as its kind
says, the power loop takes the measurement, and the capture is kept for the predistorter (R30, R44, R50, R107). Before that
instant, and with nothing on the air, it has no effect. -/
def Obligations.FrameEnds : Prop :=
  ∀ (s : State) (t : Time) (b : Band) (p : FbPower) (cap : List FbSample),
    let d := s.seen t
    ((d.radio b).tx = none → exec (.txFrameEnd t b p cap) s = .next (s.put d)) ∧
    (∀ x, (d.radio b).tx = some x → d.clk.now < x.firstSym + qToHn x.frame.durQ → exec (.txFrameEnd t b p cap) s = .next (s.put d)) ∧
    (∀ x, (d.radio b).tx = some x → x.firstSym + qToHn x.frame.durQ ≤ d.clk.now → x.frame.sealJob = none → x.frame.beacon = false →
      let last := x.firstSym + qToHn x.frame.durQ
      let charged := d.dutyCharge b x.frame.span false (d.airQ b x.frame) (last + d.paAfter b)
      let sent := (charged.airShow b x none).onRad b fun r => { r with lastEnd := last }
      let left := (sent.txOff b last .locked (2 * usec)).replan b (some (sent.txReturn b x.frame.ret))
      exec (.txFrameEnd t b p cap) s = .next (s.put (((left.frameSent x).powerLoop b x p).capKeep b p cap)))

/-- TEMP_SAMPLE, while Keeper samples the die: the temperature is stored, compared with the warning threshold, and each
radio's calibration groups that it has left are made pending; without power and in the sleep states it has no effect (R32). A
pending calibration starts in a gap of the plan that the way to it, the calibration and the way back fit, and not in one that
they do not (CAL_GAP_START); a forced one starts on an idle radio, after a delay the specification leaves open up to 1 µs, and
waits on a busy one (FORCED_CAL_START) (R33, R35). CAL_DEFER_EXPIRY raises the radio's deferral event and starts the count again;
CAL_CMD makes a group pending (PENDING) or calibrates it at once or next (FORCE); a group that the band does not have is ignored
(R34, R35). SYNTH_CAL_END of a calibration whose time has come, with no other group pending or forced: the group is calibrated at
the die's temperature and pending no more, and the radio is LOCKED where it had a channel, with what waits planned again; one
that has not locked leaves the group's old calibration, tells the event and the radio is IDLE; that its group is pending no more
is the model's choice (log 79) (R36). Before its end, and with none running, it has no effect. -/
def Obligations.Calibrations : Prop :=
  (∀ (s : State) (t : Time) (temp : BitVec 16),
    let d := s.seen t
    (d.start.powered = true → d.pwr.st ≠ 2 → d.pwr.st ≠ 3 → d.pwr.st ≠ 4 →
      exec (.tempSample t temp) s = .next (s.put ((d.thermSample temp).tempGroups temp))) ∧
    (d.start.powered = false ∨ d.pwr.st = 2 ∨ d.pwr.st = 3 ∨ d.pwr.st = 4 → exec (.tempSample t temp) s = .next (s.put d))) ∧
  (∀ (s : State) (t : Time) (b : Band),
    let d := s.seen t
    let r := d.radio b
    let way := stepsTime (calSteps b r.st) + (if r.st = .rx then toRxTime else 0)
    let begun (d : Device) (g : Nat) (forced : Bool) (delay : Nat) : Device :=
      let quiet := d.bgAbort b
      let way := calSteps b (quiet.radio b).st
      let run : CalRun := ⟨g, quiet.clk.now + stepsTime way + delay, forced, (quiet.radio b).st == .rx, (quiet.radio b).chan.isSome⟩
      Device.retime (quiet.onRad b fun r => { r with
        cal := some run, trans := foreSteps quiet.clk.now way
        forced := r.forced.filter fun x => x != g, pend := addPend g r.pend }) b
    (r.pend = [] → exec (.calGapStart t b) s = .next (s.put d)) ∧
    (∀ p rest, r.pend = p :: rest → r.busy d.clk.now = false → d.clk.now + way + calGap ≤ d.gapEnd b →
      exec (.calGapStart t b) s = .next (s.put (begun d p.group false 0))) ∧
    (∀ p rest, r.pend = p :: rest → r.busy d.clk.now = true ∨ d.gapEnd b < d.clk.now + way + calGap →
      exec (.calGapStart t b) s = .next (s.put d)) ∧
    (r.forced = [] → exec (.forcedCalStart t b) s = .next (s.put d)) ∧
    (∀ g rest, r.forced = g :: rest → r.busy d.clk.now = true → exec (.forcedCalStart t b) s = .next (s.put d)) ∧
    (∀ g rest, r.forced = g :: rest → r.busy d.clk.now = false →
      ∃ delay, delay ≤ usec ∧ exec (.forcedCalStart t b) s = .next (s.put (begun d g true delay).freeNext)) ∧
    (∀ g : Fin 16,
      let due := r.pend.any fun p => decide (p.group = g.val ∧ d.deferSf b ≤ p.waited)
      (due = true → exec (.calDeferExpiry t b g) s = .next (s.put ((d.onRad b fun r =>
        { r with pend := r.pend.map fun p => if p.group = g.val then { p with waited := 0 } else p }).raiseRad b 1 0))) ∧
      (due = false → exec (.calDeferExpiry t b g) s = .next (s.put d)) ∧
      (d.Admits (Reg.RAD_CAL_CMD b) →
        (groupCount b ≤ g.val → exec (.calCmdPending t b g) s = .next (s.put d) ∧ exec (.calCmdForce t b g) s = .next (s.put d)) ∧
        (g.val < groupCount b →
          exec (.calCmdPending t b g) s = .next (s.put (d.onRad b fun r => { r with pend := addPend g.val r.pend })) ∧
          (r.busy d.clk.now = false →
            ∃ delay, delay ≤ usec ∧ exec (.calCmdForce t b g) s = .next (s.put (begun d g.val true delay).freeNext)) ∧
          (r.busy d.clk.now = true → exec (.calCmdForce t b g) s = .next (s.put (Device.retime (d.onRad b fun r =>
            { r with forced := if r.forced.contains g.val then r.forced else r.forced ++ [g.val], pend := addPend g.val r.pend }) b))))))) ∧
  (∀ (s : State) (t : Time) (b : Band) (locked : Bool),
    let d := s.seen t
    ((d.radio b).cal = none → exec (.synthCalEnd t b locked) s = .next (s.put d)) ∧
    (∀ c, (d.radio b).cal = some c → d.clk.now < c.start → exec (.synthCalEnd t b locked) s = .next (s.put d)) ∧
    (∀ c, (d.radio b).cal = some c → c.start ≤ d.clk.now → (d.radio b).forced = [] →
      (∀ p ∈ (d.radio b).pend, p.group = c.group) →
      (locked = true → c.hadChannel = true → c.backToRx = false →
        exec (.synthCalEnd t b true) s = .next (s.put (Device.retime (d.onRad b fun r =>
          { r with st := .locked, cal := none, trans := [], pend := r.pend.filter fun p => p.group != c.group
                   groups := r.groups.set GroupCal.reset c.group ⟨true, d.pwr.dieTemp⟩ }) b))) ∧
      (locked = false →
        exec (.synthCalEnd t b false) s = .next (s.put (Device.retime ((d.onRad b fun r =>
          { r with st := .idle, cal := none, trans := [], pend := r.pend.filter fun p => p.group != c.group }).raiseRad b 2 0) b)))))

/-- LOCK_LOSS of a radio in LOCKED, with no frame being received and none on the air, changes nothing but what the instant brings;
of one in RX it counts, raises the radio's event, ends the frame being received with result 4, and takes the radio to IDLE by its
rx-off sequence, every open window being over and what waits planned again (R41). BGCAL_START runs background calibration `k` on a
LOCKED radio with nothing else to do, where its bit is set; BGCAL_END of one of the first four stores its result and marks it
done, of the predistorter's fits its coefficients; with none running it has no effect (R42, R44). -/
def Obligations.LockLossAndBackground : Prop :=
  ∀ (s : State) (t : Time) (b : Band),
    let d := s.seen t
    let r := d.radio b
    (let now := d.rxSync b;
      ((now.radio b).cur = none → (now.radio b).st ≠ .tx → (now.radio b).st ≠ .rx → exec (.lockLoss t b) s = .next (s.put now)) ∧
      ((now.radio b).cur = none → (now.radio b).st = .rx →
        let lost := (now.inc16 (Reg.RAD_LOCK_LOSS_CNT b)).raiseRad b 3 0
        let shut (w : Win) : Win := if w.isOpen then { w with isOpen := false, closesAt := min w.closesAt now.clk.now } else w
        exec (.lockLoss t b) s = .next (s.put (Device.retime ((lost.seqBegin b .rxOff now.clk.now 0 0).onRad b fun r =>
          { r with st := .idle, trans := [], wins := r.wins.map shut }) b))) ∧
      (∀ c, (now.radio b).cur = some c → (now.radio b).st = .rx →
        let ended := (now.rxResult b c 4).rxIdle b
        let lost := (ended.inc16 (Reg.RAD_LOCK_LOSS_CNT b)).raiseRad b 3 0
        let shut (w : Win) : Win := if w.isOpen then { w with isOpen := false, closesAt := min w.closesAt now.clk.now } else w
        exec (.lockLoss t b) s = .next (s.put (Device.retime ((lost.seqBegin b .rxOff now.clk.now 0 0).onRad b fun r =>
          { r with st := .idle, trans := [], wins := r.wins.map shut }) b))) ∧
      (∀ x, (now.radio b).cur = none → (now.radio b).st = .tx → (now.radio b).tx = some x →
        ∃ ramp, now.clk.now ≤ ramp ∧ ramp ≤ now.clk.now + usec ∧
          let charged := now.dutyCut b x now.clk.now
          let lost := (charged.inc16 (Reg.RAD_LOCK_LOSS_CNT b)).raiseRad b 3 0
          exec (.lockLoss t b) s = .next (s.put (Device.retime (((lost.cutTx b x .lockLost).freeNext).txOff b ramp .idle 0) b)))) ∧
    (∀ k : Fin 5,
      let may := r.st = .locked ∧ r.busy d.clk.now = false ∧ r.tx = none ∧ r.wins = [] ∧ r.bg = none ∧ r.forced = [] ∧
        d.cb (Reg.RAD_BGCAL_CTRL b) k.val = true ∧ (k.val = 4 → d.dpdOn b = true ∧ r.caps ≠ [])
      (may → exec (.bgcalStart t b k) s = .next (s.put (d.onRad b fun r => { r with bg := some k.val }))) ∧
      (¬ may → exec (.bgcalStart t b k) s = .next (s.put d))) ∧
    (∀ result,
      (r.bg = none → exec (.bgcalEnd t b result) s = .next (s.put d)) ∧
      (∀ k, r.bg = some k → k ≠ 4 → exec (.bgcalEnd t b result) s = .next (s.put (d.onRad b fun r =>
        { r with bg := none, bgDone := setBit r.bgDone k, bgUse := r.bgUse.set 0 k result }))) ∧
      (r.bg = some 4 →
        let isOver := d.onRad b fun r => { r with bg := none, bgDone := setBit r.bgDone 4 }
        (d.dpdOn b = true → exec (.bgcalEnd t b result) s = .next (s.put (isOver.dpdRun b))) ∧
        (d.dpdOn b = false → exec (.bgcalEnd t b result) s = .next (s.put isOver))))

/-! ## Reception (chapter 3) -/

/-- PREAMBLE_DETECT of a detection above the radio's threshold, on a listening radio with no frame: it is counted, becomes the
current frame and settles the gain; one that is the current frame's own STF again is not seen; one that exceeds the current
frame's power by the margin ends it with result 5 and takes its place, counted; one on a radio that is not listening, below the
threshold, or before the detected start has no effect (R70, R71). SYNC_SEARCH_TIMEOUT gives up a frame without sync once its
search is over, and HEADER_RECEIVED gives up one whose sync came later, one whose check fails and, with result 3, one whose fields
the class does not allow; of any other it fixes the header, its codewords and the equaliser (R59, R68, R70, R72). -/
def Obligations.FrameStarts : Prop :=
  (∀ (s : State) (t : Time) (b : Band) (p : Detect),
    let d := (s.seen t).rxSync b
    let r := d.radio b
    let fresh := newDet p r.rxCls d.clk.now
    (r.receiving d.clk.now = false ∨ d.clk.now < p.start ∨ p.corr < d.pdThreshold b →
      exec (.preambleDetect t b p) s = .next (s.put d)) ∧
    (r.receiving d.clk.now = true → p.start ≤ d.clk.now → d.pdThreshold b ≤ p.corr →
      (r.cur = none → exec (.preambleDetect t b p) s = .next (s.put (
        ((d.detSeen b p).onRad b fun r => { r with cur := some fresh, cand := none }).settleGain b p.pwr))) ∧
      (∀ c, r.cur = some c → ownStf b c p.start d.clk.now = true → exec (.preambleDetect t b p) s = .next (s.put d)) ∧
      (∀ c, r.cur = some c → ownStf b c p.start d.clk.now = false →
        c.pwr + d.captureMargin b ≤ r.measured p.pwr → payloadEnded b c d.clk.now = false →
        let ended := ((d.detSeen b p).rxResult b c 5).inc (Reg.RAD_CAPTURE_CNT b)
        exec (.preambleDetect t b p) s =
          .next (s.put ((ended.onRad b fun r => { r with cur := some fresh, cand := none }).settleGain b p.pwr))) ∧
      (∀ c, r.cur = some c → ownStf b c p.start d.clk.now = false →
        r.measured p.pwr < c.pwr + d.captureMargin b ∨ payloadEnded b c d.clk.now = true → c.hdrOk = false → r.cand = none →
        exec (.preambleDetect t b p) s = .next (s.put ((d.detSeen b p).onRad b fun r => { r with cand := some fresh }))))) ∧
  (∀ (s : State) (t : Time) (b : Band),
    let d := (s.seen t).rxSync b
    let r := d.radio b
    (r.cur = none → exec (.syncSearchTimeout t b) s = .next (s.put d)) ∧
    (∀ c, r.cur = some c → c.sync.isSome = true ∨ d.clk.now < syncLimit b c → exec (.syncSearchTimeout t b) s = .next (s.put d)) ∧
    (∀ c, r.cur = some c → c.sync = none → syncLimit b c ≤ d.clk.now → exec (.syncSearchTimeout t b) s = .next (s.put (d.headerFail b c 1))) ∧
    (∀ (sync : Time) (soft : List (Int × Int)),
      (r.cur = none → exec (.headerReceived t b sync soft) s = .next (s.put d)) ∧
      (∀ c, r.cur = some c → c.sync.isSome = true → exec (.headerReceived t b sync soft) s = .next (s.put d)) ∧
      (∀ c, r.cur = some c → c.sync = none → syncLimit b c < sync →
        exec (.headerReceived t b sync soft) s = .next (s.put (d.headerFail b c 1))) ∧
      (∀ c, r.cur = some c → c.sync = none → sync ≤ syncLimit b c →
        let bits := hdrWord soft d.freeVal
        let heard := d.freeNext.upHeard b c sync
        let found : RxDet := { c with sync := some sync }
        (hdrOk bits = false → exec (.headerReceived t b sync soft) s = .next (s.put (heard.headerFail b found 2))) ∧
        (hdrOk bits = true → hdrInvalid b c.cls bits = true → exec (.headerReceived t b sync soft) s =
          .next (s.put (((heard.rxResult b { found with hdrOk := true, hdr := bits } 3).rxIdle b).winsOver b))) ∧
        (hdrOk bits = true → hdrInvalid b c.cls bits = false → exec (.headerReceived t b sync soft) s =
          .next (s.put (heard.onRad b fun r => { r with cur := some { found with
            hdrOk := true, hdr := bits, eq := some (heard.eqRun b)
            cwTotal := (cwPlan b (hdrLength bits) (codeIndex b (hdrRate bits))).cws.length } }))))))

/-- CODEWORD_READY of a frame whose header has passed and that has codewords to come puts its soft values in flight, and counts
the peak; where the decoder is full it first ends the oldest with the layers it has had, counted and with the radio's forced-stop
event. CODEWORD_DECODED ends the oldest codeword in flight: its decoding fixes its bits, whether its parities hold and its
iterations, each of which is counted. Both act only on a frame that is being received (R66, R67). -/
def Obligations.Codewords : Prop :=
  ∀ (s : State) (t : Time) (b : Band),
    let d := (s.seen t).rxSync b
    let r := d.radio b
    (∀ (soft : List Int) (layers : Nat),
      (r.cur = none → exec (.codewordReady t b soft layers) s = .next (s.put d)) ∧
      (∀ c, r.cur = some c → c.hdrOk = false ∨ c.cwTotal ≤ c.cwReady → exec (.codewordReady t b soft layers) s = .next (s.put d)) ∧
      (∀ c, r.cur = some c → c.hdrOk = true → c.cwReady < c.cwTotal →
        let put (d : Device) : Device := d.onRad b fun r =>
          { r with flight := r.flight ++ [⟨c.cwReady, soft⟩], peakFlight := max r.peakFlight (r.flight.length + 1)
                   cur := r.cur.map fun c => { c with cwReady := c.cwReady + 1 } }
        (r.flight.length < flightLimit b → exec (.codewordReady t b soft layers) s = .next (s.put (put d))) ∧
        (flightLimit b ≤ r.flight.length → exec (.codewordReady t b soft layers) s = .next (s.put (put (
          ((d.cwEnd b layers).inc (Reg.RAD_FORCED_STOP_CNT b)).raiseRad b 6 0)))))) ∧
    (r.cur = none ∨ r.flight = [] → exec (.codewordDecoded t b) s = .next (s.put d)) ∧
    (∀ c x rest, r.cur = some c → r.flight = x :: rest →
      let ri := codeIndex b (hdrRate c.hdr)
      let out := decodeCw (cwPlan b (hdrLength c.hdr) ri) ri (d.cf (Reg.RAD_LDPC_CTRL b) 1 0) x.idx
        (min (d.maxIter b * 24) (d.maxIter b * codeMb ri)) x.soft
      let counted := (d.inc (Reg.RAD_CW_CNT b)).addCnt (Reg.RAD_ITER_CNT b) out.2.2 0xFFFFFFFF
      let ended : RxDet := { c with
        cwDone := c.cwDone + 1, cwFail := c.cwFail + b2n (!out.2.1), iterMax := max c.iterMax out.2.2, bits := c.bits.put x.idx out.1 }
      exec (.codewordDecoded t b) s = .next (s.put ((if out.2.1 = true then counted else counted.inc (Reg.RAD_CW_FAIL_CNT b)).onRad b
        fun k => { k with flight := rest, cur := some ended })))

/-- RX_FRAME_END, once every codeword has ended: result 0 where all passed and 4 otherwise, the frame, of the decoded bits, to the
Lantern where all passed and D2 runs, and the windows that waited for it end (R66, R73, R74). A frame not yet complete has no end.
FRAME_154_RX on a listening Radio M, not cut off by a Sesia detection: one that finds the ring of 64 full is dropped and counted
with EV103; one that a Sesia frame holds off, or whose FCS fails where such frames are not kept, is not seen; any other enters
the ring with its time, counted (R77, R78). -/
def Obligations.ReceivedFrames : Prop :=
  (∀ (s : State) (t : Time) (b : Band),
    let d := (s.seen t).rxSync b
    ((d.radio b).cur = none → exec (.rxFrameEnd t b) s = .next (s.put d)) ∧
    (∀ c, (d.radio b).cur = some c →
      let f := d.rxFrame b c c.payload
      (c.hdrOk = false ∨ c.cwDone < c.cwTotal → exec (.rxFrameEnd t b) s = .next (s.put d)) ∧
      (c.hdrOk = true → c.cwTotal ≤ c.cwDone → c.cwFail = 0 →
        let ended := (d.rxResult b c 0).rxIdle b
        (ended.domSt 2 = 3 → exec (.rxFrameEnd t b) s = .next (s.put ((ended.macRx f).winsOver b))) ∧
        (ended.domSt 2 ≠ 3 → exec (.rxFrameEnd t b) s = .next (s.put (ended.winsOver b)))) ∧
      (c.hdrOk = true → c.cwTotal ≤ c.cwDone → c.cwFail ≠ 0 →
        exec (.rxFrameEnd t b) s = .next (s.put (((d.rxResult b c 4).rxIdle b).winsOver b))))) ∧
  (∀ (s : State) (t : Time) (phr : Byte) (psdu : Bytes) (fcsOk : Bool) (rssi : Int) (sfd : Time),
    let d := (s.seen t).rxSync .m
    let r := d.rad.m
    let cut := r.detAt.any fun at_ => decide (sfd ≤ at_)
    (d.listens154 = false ∨ cut = true ∨ r.cur.isSome = true ∨ (fcsOk = false ∧ d.cb Reg.RADM_F154_CTRL 30 = true) →
      exec (.frame154Rx t phr psdu fcsOk rssi sfd) s = .next (s.put d)) ∧
    (d.listens154 = true → cut = false → r.cur = none → (fcsOk = true ∨ d.cb Reg.RADM_F154_CTRL 30 = false) →
      (64 ≤ r.ring154.length → exec (.frame154Rx t phr psdu fcsOk rssi sfd) s =
        .next (s.put ((d.inc Reg.RADM_F154_DROP_CNT).raise 103 0))) ∧
      (r.ring154.length < 64 → exec (.frame154Rx t phr psdu fcsOk rssi sfd) s =
        .next (s.put ((d.onRad .m fun r => { r with ring154 := r.ring154 ++
          [⟨phr, psdu, fcsOk, rssi, d.lampAt sfd - d.cf (Reg.RAD_FE_LAT .m) 15 0⟩] }).inc Reg.RADM_F154_RX_CNT)))))

/-! ## The cipher and the Lantern (chapters 4 to 6) -/

/-- JOB_ADMIT with the cipher open and a slot free moves the next waiting job, seals first, then checks, then derivations, to one
of the 64 slots and counts the peak; a seal is first admitted against its key's limit; with none waiting, all slots taken, or the
cipher closed it has no effect (R155). CHECK_JOB_END frees the slot and hands the frame on with the check's result (R153).
SEAL_JOB_END frees the slot of a frame that is sent no more, and completes the tag of one still to be sent, a REPLY's once its
acknowledgement is due (R155). CIPH_KDF_CMD with go = 1 waits as a derivation with busy set, and is refused with EV175 and error
for a slot in use (CURRENT or RETIRING); with go = 0 it has no effect (R146). KDF_JOB_END frees the slot and writes the derived
keys of an associated client whose root is known into the named slot; any other client's derivation fails (R144). -/
def Obligations.CipherJobs : Prop :=
  (∀ (s : State) (t : Time),
    let d := s.seen t
    (d.cipherOpen = false ∨ 64 ≤ d.ciph.jobs.length ∨ nextJob d.ciph.waiting = none → exec (.jobAdmit t) s = .next (s.put d)) ∧
    (∀ j, d.cipherOpen = true → d.ciph.jobs.length < 64 → nextJob d.ciph.waiting = some j →
      let taken := d.onCiph fun k => { k with waiting := k.waiting.filter fun x => x.id != j.id }
      let started := taken.onCiph fun k => { k with jobs := k.jobs ++ [j], peakJobs := max k.peakJobs (k.jobs.length + 1) }
      ((∀ b f, j.kind ≠ .sealing b f) → exec (.jobAdmit t) s = .next (s.put started)) ∧
      (∀ b f, j.kind = .sealing b f → exec (.jobAdmit t) s = .next (s.put (taken.admitSeal j b f))) ∧
      (∀ b f, j.kind = .sealing b f → (taken.radio b).runOfJob j.id = none → j.entry = none → exec (.jobAdmit t) s = .next (s.put started))) ∧
    (∀ id, (d.ciph.jobs.find? fun j => j.id == id) = none →
      exec (.checkJobEnd t id) s = .next (s.put d) ∧ exec (.sealJobEnd t id) s = .next (s.put d)) ∧
    (∀ id j f, (d.ciph.jobs.find? fun j => j.id == id) = some j → j.kind = .check f →
      let freed := d.onCiph fun k => { k with jobs := k.jobs.filter fun j => j.id != id }
      let x := freed.check f.band f.sf f.data
      exec (.checkJobEnd t id) s = .next (s.put (x.2.checkDone f x.1))) ∧
    (∀ id j b f, (d.ciph.jobs.find? fun j => j.id == id) = some j → j.kind = .sealing b f →
      ((d.radio b).runOfJob id = none →
        exec (.sealJobEnd t id) s = .next (s.put (d.onCiph fun k => { k with jobs := k.jobs.filter fun j => j.id != id }))) ∧
      (∀ x, (d.radio b).runOfJob id = some x → (∀ g, x.frame.kind ≠ .reply g) → x.frame.kind ≠ .pollReply →
        let data := d.sealBytes b j.kMac j.kEnc x.frame.data
        let counted := match j.entry with
          | some e => d.keyCount e (frameCmacOps data + frameCtrOps data)
          | none => d
        let put (y : TxRun) : TxRun :=
          if y.frame.sealJob = some j.id then { y with frame := { y.frame with data := data, sealJob := none } } else y
        exec (.sealJobEnd t id) s = .next (s.put ((counted.onRad b fun r => { r with tx := r.tx.map put, txNext := r.txNext.map put }).onCiph
          fun k => { k with jobs := k.jobs.filter fun x => x.id != j.id }))) ∧
      (∀ x, (d.radio b).runOfJob id = some x → (∃ g, x.frame.kind = .reply g) ∨ x.frame.kind = .pollReply →
        (d.clk.now < x.firstSym + qToHn (payloadQ b x.frame.cls) → exec (.sealJobEnd t id) s = .next (s.put d)) ∧
        (x.firstSym + qToHn (payloadQ b x.frame.cls) ≤ d.clk.now → exec (.sealJobEnd t id) s = .next (s.put (d.sealEnd j b x)))))) ∧
  (∀ (s : State) (t : Time),
    let d := s.seen t
    (∀ v : Word, d.Admits Reg.CIPH_KDF_CMD →
      let c := fld v 28 16
      let sl := fld v 30 30
      (bitOf v 31 = false → exec (.kdfCmd t v) s = .next (s.put d)) ∧
      (bitOf v 31 = true → (d.key c sl).st = .current ∨ (d.key c sl).st = .retiring →
        exec (.kdfCmd t v) s = .next (s.put d.kdfFail)) ∧
      (bitOf v 31 = true → (d.key c sl).st ≠ .current → (d.key c sl).st ≠ .retiring →
        exec (.kdfCmd t v) s = .next (s.put
          ((d.onCiph fun k => { k with kdfBusy := true, kdfError := false }).submit (.derive c sl (fld v 15 0) .command) none 0 0)))) ∧
    ((d.ciph.jobs.find? fun j => j.kind.rank == 2) = none → exec (.kdfJobEnd t) s = .next (s.put d)) ∧
    (∀ j c sl e why, (d.ciph.jobs.find? fun j => j.kind.rank == 2) = some j → j.kind = .derive c sl e why →
      let freed := d.onCiph fun k => { k with jobs := k.jobs.filter fun x => x.id != j.id }
      let more := (freed.ciph.jobs ++ freed.ciph.waiting).any fun x => x.kind.rank == 2
      let left := freed.onCiph fun k => { k with kdfBusy := more }
      (∀ r, (left.client c).assoc = true → left.rootOf (left.client c).serial = some r →
        exec (.kdfJobEnd t) s = .next (s.put
          (((left.deriveInto c sl e r (left.derivedState c sl)).derived c sl e why).mirrorKeySlot c sl))) ∧
      ((left.client c).assoc = false ∨ left.rootOf (left.client c).serial = none →
        exec (.kdfJobEnd t) s = .next (s.put left.kdfFail))))

/-- REORDER_SKIP, once a client's oldest held frame has waited 8 ms, moves its expected sequence number on to the nearest held
frame, counted and with EV056, and delivers what is then in order; before that, and with none held, it has no effect (R106).
KEY_SERVICE_EPOCH of an announced CURRENT key of an associated client, whose other slot is EMPTY and for which no derivation is
under way, submits the derivation of the next epoch into that slot; without one of these it has no effect (R157). RING_VERIFY
checks the retained ring oldest first, once, with D7 READY at a wake from Eclipse, and empties it, and the switches that waited
for it take place (R163). -/
def Obligations.ReorderEpochAndRing : Prop :=
  ∀ (s : State) (t : Time),
    let d := s.seen t
    (∀ c : Fin 8192,
      ((d.client c.val).held = [] → exec (.reorderSkip t c) s = .next (s.put d)) ∧
      (∀ x rest, (d.client c.val).held = x :: rest → d.clk.now < x.since + 8 * msec → exec (.reorderSkip t c) s = .next (s.put d)) ∧
      (∀ x rest i, (d.client c.val).held = x :: rest → x.since + 8 * msec ≤ d.clk.now →
        ((d.client c.val).held.map fun y => (y.seq + 4096 - (d.client c.val).rxNext) % 4096).min? = some i →
        let moved := d.onClient c.val fun k => { k with rxNext := (k.rxNext + i) % 4096 }
        exec (.reorderSkip t c) s = .next (s.put
          (((moved.inc Reg.LANT_REORDER_SKIP_CNT).raise 56 0).reorderDrain c.val (d.client c.val).held.length)))) ∧
    (∀ (c : Fin 8192) (sl : Nat), d.domDown 1 = false → d.cipherOpen = true → d.pwr.st = 0 → d.slotIn c.val .current = some sl →
      let e := ((d.key c.val sl).epoch + 1) % 65536
      ((d.key c.val sl).announced = true → (d.key c.val (1 - sl)).st = .empty → (d.client c.val).assoc = true → d.deriving_ c.val = false →
        exec (.keyServiceEpoch t c) s = .next (s.put
          ((d.onCiph fun k => { k with kdfBusy := true, kdfError := false }).submit (.derive c.val (1 - sl) e .epoch) none 0 0))) ∧
      ((d.key c.val sl).announced = false ∨ (d.key c.val (1 - sl)).st ≠ .empty ∨ (d.client c.val).assoc = false ∨ d.deriving_ c.val = true →
        exec (.keyServiceEpoch t c) s = .next (s.put d))) ∧
    (∀ c : Fin 8192, d.domDown 1 = true ∨ d.cipherOpen = false ∨ d.pwr.st ≠ 0 ∨ d.slotIn c.val .current = none →
      exec (.keyServiceEpoch t c) s = .next (s.put d)) ∧
    (d.domSt 7 = 3 → d.ciph.ringChecked = false → d.start.waking = some 2 →
      let checked := d.lant.ring.foldl (fun d e => d.verifyEntry e) d
      let empty := checked.onLant fun l => { l with ring := [], ringUsed := 0 }
      exec (.ringVerify t) s = .next (s.put
        ((((empty.epochSwitch empty.lant.sf).onCiph fun c => { c with ringChecked := true }).raise 173 0).drainBuffered).wakeCheck)) ∧
    (d.domSt 7 ≠ 3 ∨ d.ciph.ringChecked = true ∨ d.start.waking ≠ some 2 → exec (.ringVerify t) s = .next (s.put d))

/-- ASSOC_ANSWER, while D1 and the cipher run, takes the oldest checked ASSOC_REQ: an unknown serial is denied with status 2 and
EV174, a client that is associated already is answered again, and any other is placed as a new client (R336). With none waiting,
and while the Keeper or the cipher does not run, it has no effect. -/
def Obligations.AssociationAnswers : Prop :=
  ∀ (s : State) (t : Time),
    let d := s.seen t
    (d.lant.assocReqs = [] ∨ d.keeperUp = false ∨ d.cipherOpen = false → exec (.assocAnswer t) s = .next (s.put d)) ∧
    (∀ a rest, d.lant.assocReqs = a :: rest → d.keeperUp = true → d.cipherOpen = true →
      let taken := d.onLant fun l => { l with assocReqs := rest }
      (taken.rootOf a.serial = none → exec (.assocAnswer t) s = .next (s.put ((taken.deny a 2).raise 174 0))) ∧
      (∀ root x, taken.rootOf a.serial = some root → (taken.lant.clients.find? fun x => x.2.assoc && x.2.serial == a.serial) = some x →
        exec (.assocAnswer t) s = .next (s.put (taken.acceptAgain a x.1))) ∧
      (∀ root, taken.rootOf a.serial = some root → (taken.lant.clients.find? fun x => x.2.assoc && x.2.serial == a.serial) = none →
        exec (.assocAnswer t) s = .next (s.put (taken.acceptNew a))))

/-- SUPERFRAME_BOUNDARY: in a superframe not yet entered, with lamp time running and D2 up, it completes: the superframe is
entered; unless a change of Twin role holds the plan, the open maps, the profile switch and the plan commit due at it take effect;
a reload and a sleep entry due at it begin; the epoch switches due take place, but in Eclipse and before the retained ring is
checked; the plan's notes, bells and pending bits are placed, what follows them done, released clients reaped and the beacon
bodies fixed, in this order (R81, R88, R93, R111, R163). In the superframe already entered it has no effect. -/
def Obligations.SuperframeBoundaries : Prop :=
  ∀ (s : State) (t : Time),
    let d := s.seen t
    let n := d.lampSf
    (d.clk.lampRun = true → d.domDown 2 = false → n ≠ d.lant.sf →
      let entered := d.onLant fun l => { l with sf := n, silent := 0 }
      let changed := if entered.planFrozen = true then entered else ((entered.openApply n).profileBoundary n).planApply n
      let begun := (changed.reloadBoundary n).entryBoundary n
      let keyed := if begun.pwr.st = 2 ∨ (begun.start.waking = some 2 ∧ begun.ciph.ringChecked = false) then begun else begun.epochSwitch n
      let planned := (((keyed.notesBoundary n).bellBoundary n).pendPut n).segPick
      exec (.superframeBoundary t) s = .next (s.put ((((planned.boundaryRest n).reapClients).ringTake).bodiesPut n))) ∧
    (d.clk.lampRun = false ∨ d.domDown 2 = true ∨ n = d.lant.sf → exec (.superframeBoundary t) s = .next (s.put d))

/-- A write to LANT_OPEN_x is stored and takes effect at the first boundary at least 2 ms later, in place of one scheduled for
that boundary (R88). A commit schedules the shadow plan `sf_ahead` boundaries ahead, at least one, and one boundary later,
counted and with EV049, where less than 2 ms are left; a Twin's plan mirror is told (R93). DUTY_BUCKET_ROLL drops the buckets
that are 3,600 s old and looks at the duty windows again (R107). PROFILE_SWITCH announces profile P for the superframe after the
countdown, at least two ahead, or refuses it with EV054; a cancel before superframe C withdraws it, and has no effect with none
announced (R111, R114). -/
def Obligations.PlansAndProfiles : Prop :=
  (∀ (s : State) (t : Time),
    let d := s.seen t
    (∀ (b : Band) (v : Word), d.Admits (openReg b) →
      exec (.openMapWrite t b v) s = .next (s.put ((d.setCfg (openReg b) v).onLant fun l =>
        { l with openPend := l.openPend.set b ((l.openPend.get b).filter (fun x => x.2 != d.boundary2ms) ++ [(v, d.boundary2ms)]) }))) ∧
    (∀ k : BitVec 8, d.Admits Reg.LANT_PLAN_CMD →
      let n := d.lampSf + max 1 k.toNat
      let at_ (d : Device) (n : Nat) : Device :=
        (d.onLant fun l => { l with commit := some ⟨n, l.shadow⟩ }).mirrorNow mcPlan [.commit ⟨n, d.lant.shadow⟩]
      (d.lampHn + 2 * msec ≤ n * sfLen → exec (.planCommit t k) s = .next (s.put (at_ d n))) ∧
      (n * sfLen < d.lampHn + 2 * msec →
        exec (.planCommit t k) s = .next (s.put (at_ ((d.inc Reg.LANT_COMMIT_LATE_CNT).raise 49 0) (n + 1)))))) ∧
  (∀ (s : State) (t : Time),
    let d := s.seen t
    let kept (w : DutyWin) : DutyWin := { w with buckets := w.buckets.filter fun x => decide (d.lampHn / sec < x.sec + 3600) }
    exec (.dutyBucketRoll t) s = .next (s.put ((d.onLant fun l => { l with
      dutySec := d.lampHn / sec
      duty := l.duty.filterMap fun x => if kept x.2 = DutyWin.empty then none else some (x.1, kept x.2) }).dutyWatchAll)) ∧
    (d.Admits Reg.LANT_PROFILE_CMD →
      (∀ (p : Fin 16) (c : BitVec 6), d.profileRefused p.val = true →
        exec (.profileSwitchGo t p c) s = .next (s.put (d.raise 54 0))) ∧
      (∀ (p : Fin 16) (c : BitVec 6), d.profileRefused p.val = false →
        let n := d.lampSf + max 1 c.toNat + 1
        let told := d.onLant fun l => { l with switch_ := some ⟨1, p.val, n, d.bandsChanged p.val⟩ }
        (d.mirrors = false → exec (.profileSwitchGo t p c) s = .next (s.put told)) ∧
        (d.mirrors = true → exec (.profileSwitchGo t p c) s = .next (s.put (told.control (.profile p.val n))))) ∧
      (∀ x, d.lant.switch_ = some x → x.phase = 1 → d.lampHn < x.c * sfLen →
        exec (.profileSwitchCancel t) s = .next (s.put (d.onLant fun l => { l with switch_ := none }))) ∧
      (∀ x, d.lant.switch_ = some x → x.phase ≠ 1 ∨ x.c * sfLen ≤ d.lampHn → exec (.profileSwitchCancel t) s = .next (s.put d)) ∧
      (d.lant.switch_ = none → exec (.profileSwitchCancel t) s = .next (s.put d))))

/-- BELL_MATCH of the first enabled code within its error limit stores the match, counts it, raises EV008 and, where the code
wakes, sets its wake latch bit; a code that no register matches, and any while Radio L's PA_EN is asserted, has no effect (R134,
R135). PARENT_WINDOW_CLOSE of a relay that follows a parent starts the next superframe's watch; outside Eclipse it counts a miss
where no beacon was heard and no window was lost; of a relay that follows none, and while D2 does not run, it has no effect
(R137). -/
def Obligations.BellAndParent : Prop :=
  ∀ (s : State) (t : Time),
    let d := s.seen t
    let deaf := d.domDown 3 = false ∧ bitOf (d.rad.l.pinsAt d.clk.now) 0 = true
    (∀ code : Word, d.start.powered = false ∨ deaf ∨ d.bellHit code = none → exec (.bellMatch t code) s = .next (s.put d)) ∧
    (∀ (code : Word) (i : Nat), d.start.powered = true → ¬ deaf → d.bellHit code = some i →
      let stored := d.onPwr fun p => { p with
        bellAt := p.bellAt.put i d.clk.now
        bellLast := w32 (i * 0x20000000 + codeErrors code (d.cfg (Reg.MOOR_BELL_CODE i)) * 0x08000000 + d.rtcTicks % 0x08000000) }
      let told := (stored.inc Reg.MOOR_BELL_MATCH_CNT).raise 8 0
      (told.cb Reg.MOOR_BELL_CTRL (16 + i) = false → exec (.bellMatch t code) s = .next (s.put told)) ∧
      (told.cb Reg.MOOR_BELL_CTRL (16 + i) = true → told.pwr.st = 0 → exec (.bellMatch t code) s = .next (s.put told)) ∧
      (told.cb Reg.MOOR_BELL_CTRL (16 + i) = true → told.pwr.st ≠ 0 →
        exec (.bellMatch t code) s = .next (s.put ((told.onPwr fun p => { p with latch := setBit p.latch 3 }).hwSet Reg.MOOR_WAKE_LATCH 3)))) ∧
    (let follows := d.cb Reg.LANT_RELAY_CTRL 31 = true ∧ d.domSt 2 = 3 ∧ (d.lant.relay.st = 1 ∨ d.lant.relay.st = 2);
      (¬ follows → exec (.parentWindowClose t) s = .next (s.put d)) ∧
      (follows →
        let rel := d.lant.relay
        let watched := d.onRelay fun r => { r with heard := false, heardM := false, heardH := false, lostM := false, lostH := false }
        (d.lant.eclipseFlag = true → exec (.parentWindowClose t) s = .next (s.put watched)) ∧
        (d.lant.eclipseFlag = false → rel.heardM = true → rel.heardH = true → rel.heard = true →
          exec (.parentWindowClose t) s = .next (s.put watched)) ∧
        (d.lant.eclipseFlag = false →
          let m := if watched.parentBand .m = true ∧ rel.heardM = false ∧ rel.lostM = false then watched.bandMissed .m else watched
          let h := if m.parentBand .h = true ∧ rel.heardH = false ∧ rel.lostH = false then m.bandMissed .h else m
          exec (.parentWindowClose t) s =
            .next (s.put (if rel.heard = true ∨ rel.lostM = true ∨ rel.lostH = true then h else h.parentMissed)))))

/-! ## The packet engine (chapters 7 and 8) -/

/-- PACKET_ENTRY puts an injected packet to the KPR ingress and lets the next ingress in round-robin order enter, stamped with
the current generation, where no recirculated packet waits; with nothing at any ingress it enters none. RECIRC_ENTRY lets the
oldest recirculated packet enter again with its generation, counted. PASS_RESOLVE takes the oldest packet of the pipeline through
its resolution. Each has no effect where nothing waits for it or D6 does not run (R17, R166, R179, R183). -/
def Obligations.PipelineMoves : Prop :=
  ∀ (s : State) (t : Time),
    let d := s.seen t
    (∀ i, d.domDown 6 = true → exec (.packetEntry t i) s = .next (s.put d)) ∧
    (∀ i : Option Injection, d.domSt 6 = 3 →
      let pushed := match i with
        | some i => d.onPkt fun p => { p with ingress := p.ingress.upd [] (injPkt i).port fun l => l ++ [injPkt i] }
        | none => d
      (pushed.pkt.recirc ≠ [] → exec (.packetEntry t i) s = .next (s.put pushed)) ∧
      (pushed.pkt.recirc = [] → ((rrOrder pushed.pkt.rrPtr).find? fun p => !(pushed.pkt.ingress.get [] p).isEmpty) = none →
        exec (.packetEntry t i) s = .next (s.put pushed)) ∧
      (∀ p x r, pushed.pkt.recirc = [] → ((rrOrder pushed.pkt.rrPtr).find? fun p => !(pushed.pkt.ingress.get [] p).isEmpty) = some p →
        pushed.pkt.ingress.get [] p = x :: r →
        exec (.packetEntry t i) s = .next (s.put ((pushed.onCycle fun c => { c with entered := true }).onPkt fun k =>
          { k with ingress := k.ingress.set [] p r, rrPtr := (p + 1) % 12, inPipe := k.inPipe ++ [{ x with gen := k.gen }] })))) ∧
    (d.pkt.recirc = [] ∨ d.domSt 6 ≠ 3 → exec (.recircEntry t) s = .next (s.put d)) ∧
    (∀ x r, d.pkt.recirc = x :: r → d.domSt 6 = 3 → exec (.recircEntry t) s = .next (s.put
      ((d.onPkt fun k => { k with recirc := r, inPipe := k.inPipe ++ [x] }).inc Reg.PKT_RECIRC_CNT))) ∧
    (d.pkt.inPipe = [] → exec (.passResolve t) s = .next (s.put d)) ∧
    (∀ x r, d.pkt.inPipe = x :: r → exec (.passResolve t) s = .next (s.put ((d.onPkt fun k => { k with inPipe := r }).resolve x)))

/-- The pop registers. LEARN_POP and TS_POP take the head of their FIFO into the register pair and put out its word with bit 31
set, or 0 where it is empty (R177, R225); EV_OCC_READ puts out the selected event's occurrence count and clears it to what the
same cycle has added (R20, R354). -/
def Obligations.PopReads : Prop :=
  ∀ (s : State) (t : Time),
    let d := s.seen t
    (d.Admits Reg.PKT_LEARN_POP →
      (d.pkt.learn = [] → exec (.learnPop t) s = .next (s.put (d.emit (.data 0)))) ∧
      (∀ x r, d.pkt.learn = x :: r →
        let link := match x.link with
          | some h => 0x80000000 + h
          | none => 0
        exec (.learnPop t) s = .next (s.put (((d.onCycle fun c => { c with pops := c.pops + 1 }).onPkt fun p =>
          { p with learn := r, popMac := w32 (x.mac % 4294967296), popBd := w32 x.bd, popLink := w32 link }).emit
          (.data (w32 (0x80000000 + x.port * 0x08000000 + b2n x.bdType * 0x04000000 + x.mac / 4294967296))))))) ∧
    (d.Admits Reg.LANE_TS_POP →
      (d.lanes.ts = [] → exec (.tsPop t) s = .next (s.put (d.emit (.data 0)))) ∧
      (∀ x r, d.lanes.ts = x :: r → exec (.tsPop t) s = .next (s.put (
        (d.onLanes fun l => { l with ts := r, tsLo := w32 (x.stamp / 2), tsHi := w32 (x.stamp / 2 / 4294967296) }).emit
          (.data (w32 (0x80000000 + b2n x.sent * 0x40000000 + x.port * 0x8000000 + x.stamp % 2 * 0x4000000 + x.msgType * 0x400000 +
            x.tag % 65536))))))) ∧
    (d.Admits Reg.KEEP_EV_OCC →
      let ev := d.cf Reg.KEEP_EV_SEL 7 0
      let x := d.cycle.incs.get (d.ev.occ.get 0 ev, 0) ev
      exec (.evOccRead t) s = .next (s.put (((d.emit (.data (w32 x.1))).onEv fun e =>
        { e with occ := e.occ.set 0 ev (min 0xFFFF x.2) }).onCycle fun c => { c with incs := c.incs.del ev })))

/-- The table commands, at an index of the table with no command in hand: READ copies the entry to PKT_TBL_DATA, WRITE installs
the 64 staged bytes with hit = 0, unless a lookup has hit the entry in the same cycle, CLEAR clears the entry's valid bit, HASH
computes the bucket pair of the staged key; lookups of the same cycle see the entry before it (R20, R174, R178, R188). An index
outside the table, and a command in hand, sets the error bit alone. -/
def Obligations.TableCommands : Prop :=
  ∀ (s : State) (t : Time) (n : Fin 4) (i : BitVec 15),
    let d := s.seen t
    let k := tblKey n.val i.toNat
    let remembered (d' : Device) : Device := d'.onCycle fun c => { c with tables := c.tables.put k (d.entrySeen n.val i.toNat) }
    let refused := (d.onPkt fun p => { p with tblError := true }).hwSet Reg.PKT_TBL_STATUS 30
    d.Admits Reg.PKT_TBL_CMD →
    (d.pkt.tblBusy = false → i.toNat < tblSize n.val →
      exec (.tblRead t n i) s = .next (s.put (d.setTblData (d.pkt.entry n.val i.toNat))) ∧
      (d.cycle.hits.contains k = false →
        exec (.tblWrite t n i) s = .next (s.put (remembered (d.onPkt fun p =>
          p.setEntry n.val i.toNat (clrBit (BitVec.ofNat 512 (beNat d.tblData)) 473))))) ∧
      (d.cycle.hits.contains k = true →
        exec (.tblWrite t n i) s = .next (s.put (remembered (d.onPkt fun p =>
          p.setEntry n.val i.toNat (setBit (BitVec.ofNat 512 (beNat d.tblData)) 473))))) ∧
      exec (.tblClear t n i) s = .next (s.put ((remembered d).onPkt fun p =>
        p.setEntry n.val i.toNat (clrBit (d.pkt.entry n.val i.toNat) 479)))) ∧
    (d.pkt.tblBusy = true ∨ tblSize n.val ≤ i.toNat →
      exec (.tblRead t n i) s = .next (s.put refused) ∧ exec (.tblWrite t n i) s = .next (s.put refused) ∧
      exec (.tblClear t n i) s = .next (s.put refused)) ∧
    (d.pkt.tblBusy = false → 0 < tblSize n.val →
      let b := buckets n.val (d.cfg (Reg.PKT_TBL_SEED n.val)) (slice d.tblData 8 40)
      exec (.tblHash t n) s = .next (s.put (d.onPkt fun p => { p with tblB0 := b.1, tblB1 := b.2 }))) ∧
    (d.pkt.tblBusy = true → exec (.tblHash t n) s = .next (s.put refused))

/-- A generation commit advances the generation by one, with the default actions staged for it, waits with EV147 while the
previous one is referenced, and is refused while one waits; a packet that enters in the cycle of the commit is of the new
generation. A waiting one proceeds when the last reference ends; 1 ms after it the old generation's packets in the pipeline are
dropped, counted with EV146, and it completes (R186, R187, R190). -/
def Obligations.GenerationCommits : Prop :=
  ∀ (s : State) (t : Time),
    let d := s.seen t
    let advanced (d : Device) : Device :=
      let defs := (List.range 12).foldl (fun x p => Tab.set x actionDrop p (d.defPend p)) []
      let gen := (d.pkt.gen + 1) % 65536
      d.onPkt fun p => { p with gen := gen, commitWait := none, defsOld := p.defs, defs := defs
                                inPipe := if d.cycle.entered then restamp gen p.inPipe else p.inPipe }
    (d.Admits Reg.PKT_GEN_CMD →
      (d.pkt.commitWait.isSome = true →
        exec (.genCommit t) s = .next (s.put ((d.onPkt fun p => { p with refused := true }).hwSet Reg.PKT_GEN_STATUS 14))) ∧
      (d.pkt.commitWait = none → d.pkt.refs d.pkt.genPrev = true →
        exec (.genCommit t) s = .next (s.put ((d.onPkt fun p => { p with commitWait := some d.clk.now }).raise 147 0))) ∧
      (d.pkt.commitWait = none → d.pkt.refs d.pkt.genPrev = false → exec (.genCommit t) s = .next (s.put (advanced d)))) ∧
    (d.pkt.commitWait.isSome = true → d.pkt.refs d.pkt.genPrev = false → exec (.genCommitProceed t) s = .next (s.put (advanced d))) ∧
    (d.pkt.commitWait = none ∨ d.pkt.refs d.pkt.genPrev = true → exec (.genCommitProceed t) s = .next (s.put d)) ∧
    (d.pkt.commitWait = none → exec (.genDrainTimeout t) s = .next (s.put d)) ∧
    (∀ w, d.pkt.commitWait = some w → d.clk.now < w + msec → exec (.genDrainTimeout t) s = .next (s.put d)) ∧
    (∀ w, d.pkt.commitWait = some w → w + msec ≤ d.clk.now →
      let g := d.pkt.genPrev
      let n := ((d.pkt.inPipe ++ d.pkt.recirc).filter fun x => x.gen == g).length
      let kept := d.onPkt fun p =>
        { p with inPipe := p.inPipe.filter fun x => x.gen != g, recirc := p.recirc.filter fun x => x.gen != g }
      (n = 0 → exec (.genDrainTimeout t) s = .next (s.put (advanced kept))) ∧
      (n ≠ 0 → exec (.genDrainTimeout t) s = .next (s.put (advanced
        (((kept.addCnt (Reg.PKT_DROP_CNT 7) n 0xFFFFFFFF).addCnt Reg.PKT_GEN_DROP_CNT n 0xFFFFFFFF).raise 146 0)))))

/-- PORT_SELECT of an idle port that is up, after what no window fits has been dropped, puts the head of the highest queue that
may go into transmission from this instant; a port that is busy or down, or of which no queue may go, sends nothing (R197, R199).
PORT_FRAME_END, once the frame's wire time has passed, delivers it where the port leads, idles the port and frees the frame's
cells; before that, and on an idle port, it has no effect (R196). -/
def Obligations.PortScheduling : Prop :=
  ∀ (s : State) (t : Time) (p : Fin 9),
    let d := s.seen t
    let c := p.val + 3
    (let now := d.sweepOversize c;
      let first := [7, 6, 5, 4, 3, 2, 1, 0].find? (now.mayGo c)
      ((now.egressOf c).busy.isSome = true ∨ now.portUp c = false ∨ first = none → exec (.portSelect t p) s = .next (s.put now)) ∧
      (∀ n x r, (now.egressOf c).busy = none → now.portUp c = true → first = some n → (now.queue (pqKey c n)).pkts = x :: r →
        let taken := (now.settle (pqKey c n)).onQueue (pqKey c n) fun q => { q with pkts := r }
        exec (.portSelect t p) s = .next (s.put
          ((((taken.onEgress c fun _ => ⟨some (n, x), taken.clk.now⟩).frameStart c x).headCheck (pqKey c n)).tailRetry (pqKey c n))))) ∧
    ((d.egressOf c).busy = none → exec (.portFrameEnd t p) s = .next (s.put d)) ∧
    (∀ n x, (d.egressOf c).busy = some (n, x) → d.clk.now < (d.egressOf c).started + d.wireTime c x.data.length →
      exec (.portFrameEnd t p) s = .next (s.put d)) ∧
    (∀ n x, (d.egressOf c).busy = some (n, x) → (d.egressOf c).started + d.wireTime c x.data.length ≤ d.clk.now →
      let idle := (d.settle (pqKey c n)).onEgress c fun _ => Egress.idle
      (c < 9 →
        let wire := x.data ++ zeros (60 - x.data.length)
        exec (.portFrameEnd t p) s = .next (s.put (((idle.emit (.eth (c - 3) (wire ++ fcsBytes wire))).inc
          (Reg.LANE_ETH_TX_OK_CNT (c - 3))).freeCells x))) ∧
      (9 ≤ c → exec (.portFrameEnd t p) s = .next (s.put ((idle.deliver c n x).freeCells x))))

/-- The gates. GATE_ENTRY_CHANGE brings the port's credits up to date, takes the entry of the list that lamp time is in, and drops
what no window then fits; a write of PKT_GATE_DATA stores the entry in the inactive bank and is refused with EV155 for the active
one; a swap waits for the first boundary at least 1 ms ahead, and is refused with EV155 while one waits or for a list of length 0
(R198, R199, R200). METER_WRITE loads the selected meter from the rate and burst registers, its buckets full at its first packet,
and packets resolved in the same cycle still see the meter before it; METER_READ puts the selected meter's settings into those
registers (R202). -/
def Obligations.GatesAndMeters : Prop :=
  (∀ (s : State) (t : Time),
    let d := s.seen t
    (∀ e : Fin 6,
      let settled := d.settlePort e.val
      let x := settled.gateEntryAt e.val settled.lampHn
      exec (.gateEntryChange t e) s =
        .next (s.put ((settled.onGate e.val fun g => { g with entry := x.1, since := x.2 }).sweepOversize (e.val + 3)))) ∧
    (∀ v : Word, d.Admits Reg.PKT_GATE_DATA →
      let stored := d.setCfg Reg.PKT_GATE_DATA v
      let a := stored.cfg Reg.PKT_GATE_ADDR
      let active := (stored.gate (fld a 11 9)).bankB = bitOf a 8 ∧ stored.domSt 6 ≠ 2 ∧ stored.domSt 6 ≠ 4
      (6 ≤ fld a 11 9 → exec (.gateDataWrite t v) s = .next (s.put stored)) ∧
      (fld a 11 9 < 6 → active → exec (.gateDataWrite t v) s = .next (s.put (stored.raise 155 0))) ∧
      (fld a 11 9 < 6 → ¬ active → exec (.gateDataWrite t v) s = .next (s.put (stored.onPkt fun p =>
        { p with gateMem := p.gateMem.set 0 (512 * fld a 11 9 + 256 * b2n (bitOf a 8) + fld a 7 0) v })))) ∧
    (∀ e : Fin 6, d.Admits (Reg.PKT_GATE_CTRL e.val) →
      let length := gateCycle (d.gateList e.val (!(d.gate e.val).bankB))
      ((d.gate e.val).swapAt.isSome = true ∨ length = 0 → exec (.gateSwap t e) s = .next (s.put (d.raise 155 0))) ∧
      ((d.gate e.val).swapAt = none → length ≠ 0 →
        exec (.gateSwap t e) s = .next (s.put (d.onGate e.val fun g => { g with swapAt := some (ceilDiv (d.lampHn + msec) sfLen) }))))) ∧
  (∀ (s : State) (t : Time),
    let d := s.seen t
    d.Admits Reg.PKT_MTR_CMD →
    (∀ (aware : Bool) (dp : BitVec 2),
      let m : Meter := { cir := d.cf Reg.PKT_MTR_RATE_C 23 0, pir := d.cf Reg.PKT_MTR_RATE_P 23 0, cbs := d.cf Reg.PKT_MTR_CBS 23 0
                         pbs := d.cf Reg.PKT_MTR_PBS 23 0, aware := aware, dp := dp.toNat, tc := 0, tp := 0, last := d.clk.now, fresh := true }
      let before := d.onCycle fun c => { c with meters := c.meters.put d.mtrSel (d.pkt.meters.get Meter.zero d.mtrSel) }
      let put (d' : Device) : Device := d'.onPkt fun p => { p with meters := p.meters.set Meter.zero d.mtrSel m }
      ((d.cycle.meters.find? fun x => x.1 == d.mtrSel) = none → exec (.meterWrite t aware dp) s = .next (s.put (put before))) ∧
      ((d.cycle.meters.find? fun x => x.1 == d.mtrSel).isSome = true → exec (.meterWrite t aware dp) s = .next (s.put (put d)))) ∧
    (let m := d.pkt.meters.get Meter.zero d.mtrSel;
      exec (.meterRead t) s = .next (s.put ((((d.setCfg Reg.PKT_MTR_RATE_C (w32 m.cir)).setCfg Reg.PKT_MTR_RATE_P (w32 m.pir)).setCfg
        Reg.PKT_MTR_CBS (w32 (b2n m.aware * 0x80000000 + m.dp * 0x20000000 + m.cbs))).setCfg Reg.PKT_MTR_PBS (w32 m.pbs)))))

/-! ## Lanes and the Range ring (chapter 9) -/

/-- ETH_FRAME_RX on a port that is up counts a frame with a bad FCS, a runt, an oversize and a MAC control frame, each once
and in this order, and discards it; any other is counted as received, stamped where it is a PTP event, and enters the ingress
without its FCS (R209). LINK_UP_CHANGE makes the link that of block lock without high BER, on an enabled lane not under test, once
1 ms has passed without a fault (R211). LANE_TEST_WRITE stores the six defined bits and restarts the lane's checker and generator;
an Ethernet lane under test runs at the rate of the test with its link down, one no longer under test at its own; a Range link
with a lane under test is OFF (R220). PRBS_CHECKER_SYNC runs the lane's checker over the received bits, or over its own where it
is looped at the near end, and counts what it found (R221). -/
def Obligations.EthernetAndLaneTests : Prop :=
  (∀ (s : State) (t : Time) (e : Fin 6),
    let d := s.seen t
    (∀ data : Bytes, d.domSt 9 ≠ 3 ∨ (d.ethPort e.val).linkUp = false → exec (.ethFrameRx t e data) s = .next (s.put d)) ∧
    (∀ data : Bytes, d.domSt 9 = 3 → (d.ethPort e.val).linkUp = true →
      let body := data.take (data.length - 4)
      let checked := 4 ≤ data.length ∧ data.drop (data.length - 4) = fcsBytes body
      (¬ checked → exec (.ethFrameRx t e data) s = .next (s.put (d.inc (Reg.LANE_ETH_RX_FCS_CNT e.val)))) ∧
      (checked → data.length < 64 → exec (.ethFrameRx t e data) s = .next (s.put (d.inc (Reg.LANE_ETH_RX_RUNT_CNT e.val)))) ∧
      (checked → 64 ≤ data.length → d.maxFrame e.val < data.length →
        exec (.ethFrameRx t e data) s = .next (s.put (d.inc (Reg.LANE_ETH_RX_OVERSIZE_CNT e.val)))) ∧
      (checked → 64 ≤ data.length → data.length ≤ d.maxFrame e.val → fieldAt body 12 2 = 0x8808 →
        exec (.ethFrameRx t e data) s = .next (s.put (d.inc (Reg.LANE_ETH_RX_MACCTL_CNT e.val)))) ∧
      (checked → 64 ≤ data.length → data.length ≤ d.maxFrame e.val → fieldAt body 12 2 ≠ 0x8808 → d.domSt 6 = 4 →
        exec (.ethFrameRx t e data) s = .next (s.put (d.inc Reg.KEEP_LL_RELOAD_DISC_CNT))) ∧
      (checked → 64 ≤ data.length → data.length ≤ d.maxFrame e.val → fieldAt body 12 2 ≠ 0x8808 → d.domSt 6 ≠ 4 →
        exec (.ethFrameRx t e data) s = .next (s.put
          (((d.inc (Reg.LANE_ETH_RX_OK_CNT e.val)).stampRx e.val body).ingressPush (Pkt.fresh (e.val + 3) body))))) ∧
    (∀ block hiBer lf rf : Bool,
      (d.domSt 9 ≠ 3 → exec (.linkUpChange t e block hiBer lf rf) s = .next (s.put d)) ∧
      (d.domSt 9 = 3 → ∃ sig cdr, (block = true → sig = true ∧ cdr = true) ∧
        let p := d.ethPort e.val
        let last := if (lf || rf || p.localFault || p.remoteFault) = true then some d.clk.now else p.faultAt
        let quiet := match last with
          | some u => decide (u + msec ≤ d.clk.now)
          | none => true
        let told (d : Device) : Device := (d.freeNext.onLane e.val fun l => { l with sig := sig, cdr := cdr, block := block, hiBer := hiBer }).onLanes
          fun l => { l with eth := l.eth.upd Eth.reset e.val fun p => { p with localFault := lf, remoteFault := rf, faultAt := last } }
        exec (.linkUpChange t e block hiBer lf rf) s = .next (s.put (d.shown fun d =>
          (told d).setLink e.val ((told d).ethEn e.val && block && !hiBer && quiet && !(told d).laneTest e.val)))))) ∧
  (∀ (s : State) (t : Time) (n : Fin 8),
    let d := s.seen t
    (∀ v : Word, d.Admits (Reg.LANE_TEST n.val) →
      ∃ gen : BitVec 31, gen ≠ 0 ∧
        let stored (d : Device) : Device := ((d.setCfg (Reg.LANE_TEST n.val) (v &&& 0xFC000000)).onLane n.val fun l =>
          { l with chkSync := false, run := 0, errs := 0, chk := 0, gen := gen }).freeNext
        (n.val < 6 → (stored d).laneTest n.val = true → exec (.laneTestWrite t n v) s = .next (s.put (d.shown fun d =>
          ((stored d).onLane n.val (Lane.setRate ((stored d).testRate n.val))).setLink n.val false))) ∧
        (n.val < 6 → (stored d).laneTest n.val = false → exec (.laneTestWrite t n v) s = .next (s.put (d.shown fun d =>
          (stored d).onLane n.val (Lane.setRate (if (stored d).ethEn n.val = true then (stored d).ethRate n.val else 0))))) ∧
        (6 ≤ n.val → (stored d).laneTest n.val = true → (stored d).rngTest = true → (stored d).lanes.rng.st ≠ 0 →
          exec (.laneTestWrite t n v) s = .next (s.put (d.shown fun d =>
            let off := (stored d).rngLeave.rngOff
            off.onLane n.val fun l => if off.laneTest n.val then l.setRate (off.testRate n.val) else l.setRate 0)))) ∧
    (∀ bits : List Bool,
      (d.laneChk n.val = 0 ∨ d.domSt 9 ≠ 3 → exec (.prbsCheckerSync t n bits) s = .next (s.put d)) ∧
      (d.laneChk n.val ≠ 0 → d.domSt 9 = 3 →
        let own := prbsRun (d.laneGen n.val) (d.lane n.val).gen bits.length
        let looped := d.nearLoop n.val = true ∧ d.laneGen n.val ≠ 0
        let seen := if looped then own.1 else bits.map fun b => b != d.rxInv n.val
        let x := (d.lane n.val).checkAll (d.laneChk n.val) seen
        exec (.prbsCheckerSync t n bits) s = .next (s.put ((d.onLane n.val fun _ =>
          { x.1 with gen := if d.laneGen n.val = 0 then x.1.gen else own.2 }).prbsCount n.val x.2.1 x.2.2)))))

/-- The bring-up of the Range link. It starts from OFF, by a retrain command and 100 ms after a failed try, with the lanes that the
configuration gives, at rate 1, counted, and TRAIN frames going out; a first training step not checked within 100 ms fails. A
check whose time has passed counts the errors of its lanes; at the first step it keeps the lanes without errors and fails where
none is left. 100 µs after the check's end the step's result is taken: a further step goes on where both ends were clean, and
falls back to the equaliser settings and the rate kept where one was not. A link that is UP goes down and trains again when a lane
in use loses block lock or has had high BER for 64 µs (R214 to R219). -/
def Obligations.RangeBringUp : Prop :=
  ∀ (s : State) (t : Time),
    let d := s.seen t
    let r := d.lanes.rng
    (d.domSt 9 = 3 → r.st = 0 → exec (.rngBringupStart t) s = .next (s.put (d.shown Device.bringStart))) ∧
    (d.domSt 9 ≠ 3 ∨ r.st ≠ 0 → exec (.rngBringupStart t) s = .next (s.put d)) ∧
    (let late := r.st = 1 ∧ r.step = 1 ∧ r.checkFrom = none ∧ r.since + 100 * msec ≤ d.clk.now;
      (late → exec (.rngTrainTimeout t) s = .next (s.put (d.shown Device.rngFail))) ∧
      (¬ late → exec (.rngTrainTimeout t) s = .next (s.put d))) ∧
    (r.st = 3 → r.since + 100 * msec ≤ d.clk.now → exec (.rngRetryExpiry t) s = .next (s.put (d.shown Device.bringStart))) ∧
    (r.st ≠ 3 ∨ d.clk.now < r.since + 100 * msec → exec (.rngRetryExpiry t) s = .next (s.put d)) ∧
    (∀ b6 h6 b7 h7 : Bool,
      (d.domSt 9 ≠ 3 → exec (.rngLinkDown t b6 h6 b7 h7) s = .next (s.put d)) ∧
      (d.domSt 9 = 3 →
        let seen := (d.laneSees 6 b6 h6).laneSees 7 b7 h7
        let lost := (seen.lanes.rng.lane6 = true ∧ seen.laneLost 6 = true) ∨ (seen.lanes.rng.lane7 = true ∧ seen.laneLost 7 = true)
        (lost → seen.lanes.rng.st = 2 → exec (.rngLinkDown t b6 h6 b7 h7) s = .next (s.put (seen.shown fun d => d.rngDown))) ∧
        (¬ lost → exec (.rngLinkDown t b6 h6 b7 h7) s = .next (s.put seen)))) ∧
    (d.Admits Reg.LANE_RNG_CMD → exec (.rngRetrainCmd t) s = .next (s.put (d.shown fun d =>
      if d.lanes.rng.st = 2 then d.rngLeave.bringStart else if d.lanes.rng.st = 1 ∨ d.domSt 9 ≠ 3 then d else d.bringStart))) ∧
    (∀ e6 e7 : Nat,
      (r.st ≠ 1 ∨ r.checkedAt.isSome = true ∨ r.checkDue = none → exec (.rngCheckEnd t e6 e7) s = .next (s.put d)) ∧
      (∀ u, r.checkDue = some u → d.clk.now < u → exec (.rngCheckEnd t e6 e7) s = .next (s.put d)) ∧
      (∀ u, r.st = 1 → r.checkedAt = none → r.checkDue = some u → u ≤ d.clk.now →
        let counted (d : Device) : Device :=
          let one := if r.lane6 then d.prbsCount 6 e6 16777216 else d
          if r.lane7 then one.prbsCount 7 e7 16777216 else one
        let bad6 := r.lane6 && decide (0 < e6)
        let bad7 := r.lane7 && decide (0 < e7)
        (r.step ≠ 1 → exec (.rngCheckEnd t e6 e7) s = .next (s.put (d.shown fun d =>
          ((counted d).onRng fun r => { r with clean := !bad6 && !bad7, checkedAt := some (counted d).clk.now }).trainSend (some (!bad6 && !bad7))))) ∧
        (r.step = 1 → exec (.rngCheckEnd t e6 e7) s = .next (s.put (d.shown fun d =>
          let off6 := if bad6 then (counted d).onLane 6 (Lane.setRate 0) else counted d
          let off7 := if bad7 then off6.onLane 7 (Lane.setRate 0) else off6
          let kept := off7.onRng fun r =>
            { r with lane6 := r.lane6 && !bad6, lane7 := r.lane7 && !bad7, clean := true, checkedAt := some off7.clk.now }
          if kept.lanes.rng.lane6 || kept.lanes.rng.lane7 then kept.trainSend (some true) else kept.rngFail))))) ∧
    (r.checkedAt = none → exec (.rngStepResult t) s = .next (s.put d)) ∧
    (∀ u, r.checkedAt = some u → r.st ≠ 1 ∨ d.clk.now < u + 100 * usec → exec (.rngStepResult t) s = .next (s.put d)) ∧
    (∀ u, r.checkedAt = some u → r.st = 1 → u + 100 * usec ≤ d.clk.now → r.step ≠ 1 →
      (r.clean = true → r.peer.bind Train.result = some true → exec (.rngStepResult t) s = .next (s.put (d.shown fun d =>
        let held := d.settleRng
        (held.onRng fun r => { r with rate := r.step, kept6 := (held.lane 6).taps, kept7 := (held.lane 7).taps }).rngNext))) ∧
      (r.clean = false ∨ r.peer.bind Train.result ≠ some true → exec (.rngStepResult t) s = .next (s.put (d.shown fun d =>
        ((((d.rngTaps r.kept6 r.kept7).rngRate r.rate).trainSend none).rngUp).onRng fun r => { r with closing := true }))))

/-- Frames over the Range link. One whose length, length field or CRC does not fit is counted; in training a TRAIN frame is taken
and any other dropped; on a link that is UP each type goes where it belongs, and a TRAIN frame takes the link down, but for the
one that ends its bring-up (R214, R216, R218). The idle state is entered after the configured gap with nothing on the link or
waiting for it (R219); KEEPALIVE frames go out every 1 ms and TIME_EXCHANGE frames every 62.5 ms, on a link that is UP (R219,
R229, R301); a mirror channel whose oldest record has been unacknowledged for 200 µs sends its records again, counted (R304). -/
def Obligations.RangeFrames : Prop :=
  ∀ (s : State) (t : Time),
    let d := s.seen t
    let r := d.lanes.rng
    (∀ data : Bytes,
      let n := data.length
      let p := (data.drop 8).take (n - 16)
      let ty := fieldAt data 0 1
      let ch := fieldAt data 1 1
      let ack := fieldAt data (n - 8) 4
      let bad := n < 16 ∨ fieldAt data 2 2 ≠ n - 16 ∨ 9216 < n - 16 ∨ fieldAt data (n - 4) 4 ≠ crc32c (data.take (n - 4))
      (d.domSt 9 ≠ 3 ∨ r.st = 0 ∨ r.st = 3 → exec (.rngFrameRx t data) s = .next (s.put d)) ∧
      (d.domSt 9 = 3 → r.st ≠ 0 → r.st ≠ 3 → bad → exec (.rngFrameRx t data) s = .next (s.put (d.inc Reg.LANE_RNG_CRC_CNT))) ∧
      (d.domSt 9 = 3 → r.st = 1 → ¬ bad →
        (ty ≠ rtTrain ∨ Config.trainDecode p = none → exec (.rngFrameRx t data) s = .next (s.put d)) ∧
        (∀ m, ty = rtTrain → Config.trainDecode p = some m → exec (.rngFrameRx t data) s = .next (s.put (d.trainRx m)))) ∧
      (d.domSt 9 = 3 → r.st = 2 → ¬ bad →
        (ty = rtTrain → r.closing = false → exec (.rngFrameRx t data) s = .next (s.put (d.shown Device.rngDown))) ∧
        (ty = rtTrain → r.closing = true → exec (.rngFrameRx t data) s = .next (s.put (d.onRng fun r => { r with closing := false }))) ∧
        (ty = rtData → ch < 8 → exec (.rngFrameRx t data) s = .next (s.put ((d.ackTake ch ack).ingressPush (Pkt.fresh portRng p)))) ∧
        (ty = rtData → 8 ≤ ch → exec (.rngFrameRx t data) s = .next (s.put d)) ∧
        (ty = rtMirror → exec (.rngFrameRx t data) s = .next (s.put (d.mirrorRx ch (fieldAt data 4 4) ack p))) ∧
        (ty = rtTime → exec (.rngFrameRx t data) s = .next (s.put ((d.ackTake ch ack).timeRx p))) ∧
        (ty = rtKeep → exec (.rngFrameRx t data) s = .next (s.put (d.keepFrame ch ack p))))) ∧
    (let quiet := r.st = 2 ∧ d.idleGap ≠ 0 ∧ r.lastTx + d.idleGap * usec ≤ d.clk.now ∧ (d.egressOf portRng).busy = none ∧ d.rngWaits = false;
      (quiet → exec (.rngIdleEntry t) s = .next (s.put (d.shown fun d => d.onRng fun r => { r with txIdle := true }))) ∧
      (¬ quiet → exec (.rngIdleEntry t) s = .next (s.put d))) ∧
    (d.clk.now < r.lastKeep + msec ∨ d.pairKey = none ∨ r.st ≠ 2 → exec (.keepaliveTimer t) s = .next (s.put d)) ∧
    (∀ k, r.lastKeep + msec ≤ d.clk.now → d.pairKey = some k → r.st = 2 → exec (.keepaliveTimer t) s = .next (s.put
      ((d.rngSend rtKeep mcControl (d.keepBody ++ tag8 k d.keepBody)).onRng fun r => { r with lastKeep := d.clk.now }))) ∧
    (∀ ch : Fin 6,
      (d.mirrorOpen = false ∨ (d.mirror ch.val).unacked = [] ∨ d.clk.now < (d.mirror ch.val).sentAt + 200 * usec →
        exec (.mirrorRetxTimeout t ch) s = .next (s.put d)) ∧
      (d.mirrorOpen = true → (d.mirror ch.val).unacked ≠ [] → (d.mirror ch.val).sentAt + 200 * usec ≤ d.clk.now →
        exec (.mirrorRetxTimeout t ch) s = .next (s.put ((d.mirror ch.val).unacked.foldl (fun d f => d.mirrorEmit ch.val f)
          ((d.inc Reg.LANE_RNG_RETX_CNT).onMirror ch.val fun c => { c with sentAt := d.clk.now }))))) ∧
    (r.st ≠ 2 ∨ d.domDown 2 = true → exec (.timeExchangeTimer t) s = .next (s.put d)) ∧
    (∀ u, r.lastTime = some u → d.clk.now < u + 62500 * usec → exec (.timeExchangeTimer t) s = .next (s.put d)) ∧
    (r.st = 2 → d.domDown 2 = false → (r.lastTime = none ∨ ∃ u, r.lastTime = some u ∧ u + 62500 * usec ≤ d.clk.now) →
      let marked := (d.onTime fun x => { x with t1 := some (d.rngStamp true) }).onRng fun r => { r with lastTime := some d.clk.now }
      exec (.timeExchangeTimer t) s = .next (s.put (marked.rngSend rtTime 0 (Config.timeEncode 1 (d.rngStamp true) 0))))

/-! ## Time (chapter 10) -/

/-- The time references. A PPS edge of the domain's polarity is captured by each domain that listens to it, A before B, as the
domain's open edge; an RMC or ZDA sentence labels the edge; a feed is the write of its high word, with the low word written
before: of a second for a GNSS source, of an offset for an external one (R229, R230, R239). A domain without input for its loss
time acquires again; with reversion on, the preferred domain is taken back after 60 s; the time gate opens by itself at its
timeout where no domain tracks; a write of the RTC second at a lamp second sets it from lamp time (R228, R232, R227). -/
def Obligations.TimeReferences : Prop :=
  ∀ (s : State) (t : Time) (x : RefDom),
    let d := s.seen t
    (∀ falling : Bool,
      let hears (d : Device) (x : RefDom) : Prop := d.refSrc x = 1 ∧ d.cb (Reg.LANT_DOM_CFG (domIdx x)) 28 = falling
      let captured (d : Device) (x : RefDom) : Device := d.onRef x fun r =>
        { r with edge := some (d.lampHn, d.clk.now), lastEdge := if r.edge.isSome then none else r.lastEdge
                 count := if r.edge.isSome && r.st == .acquiring then 0 else r.count }
      (d.domDown 2 = true → exec (.ppsEdge t falling) s = .next (s.put d)) ∧
      (d.domDown 2 = false → ¬ hears d .a → ¬ hears d .b → exec (.ppsEdge t falling) s = .next (s.put d)) ∧
      (d.domDown 2 = false → hears d .a → ¬ hears (captured d .a) .b → exec (.ppsEdge t falling) s = .next (s.put (captured d .a))) ∧
      (d.domDown 2 = false → ¬ hears d .a → hears d .b → exec (.ppsEdge t falling) s = .next (s.put (captured d .b))) ∧
      (d.domDown 2 = false → hears d .a → hears (captured d .a) .b →
        exec (.ppsEdge t falling) s = .next (s.put (captured (captured d .a) .b)))) ∧
    (∀ text : Bytes,
      (d.keeperUp = false ∨ nmeaFields text = none → exec (.nmeaSentence t text) s = .next (s.put d)) ∧
      (∀ f, d.keeperUp = true → nmeaFields text = some f →
        (nmeaType f = [0x52, 0x4D, 0x43] → exec (.nmeaSentence t text) s = .next (s.put (d.rmc f))) ∧
        (∀ u, nmeaType f = [0x5A, 0x44, 0x41] → zdaSeconds f = some u → exec (.nmeaSentence t text) s = .next (s.put (d.labelEdges u))) ∧
        (nmeaType f = [0x5A, 0x44, 0x41] → zdaSeconds f = none → exec (.nmeaSentence t text) s = .next (s.put d)) ∧
        (nmeaType f ≠ [0x52, 0x4D, 0x43] → nmeaType f ≠ [0x5A, 0x44, 0x41] → exec (.nmeaSentence t text) s = .next (s.put d)))) ∧
    (∀ hi : Word, d.Admits (Reg.LANT_DOM_FEED_HI (domIdx x)) →
      let v : DWord := BitVec.ofNat 64 (hi.toNat * 4294967296 + (d.refDom x).feedLo.toNat)
      (d.refSrc x = 1 → exec (.domFeed t x hi) s = .next (s.put (d.gnssLabel x v.toNat))) ∧
      (d.refSrc x = 2 → exec (.domFeed t x hi) s = .next (s.put (d.measure x (4 * v.toInt)))) ∧
      (d.refSrc x ≠ 1 → d.refSrc x ≠ 2 → exec (.domFeed t x hi) s = .next (s.put d))) ∧
    (∀ w u, d.lossAfter x = some w → (d.refDom x).lastSeen = some u →
      (u + w ≤ d.clk.now → exec (.domainLossTimeout t x) s = .next (s.put (d.refLoss x))) ∧
      (d.clk.now < u + w → exec (.domainLossTimeout t x) s = .next (s.put d))) ∧
    (d.lossAfter x = none ∨ (d.refDom x).lastSeen = none → exec (.domainLossTimeout t x) s = .next (s.put d)) ∧
    (∀ u, d.time.prefSince = some u → d.cb Reg.LANT_TIME_CTRL 30 = true → u + 60 * sec ≤ d.clk.now →
      exec (.revertTimer t) s = .next (s.put (d.reselect true))) ∧
    (∀ u, d.time.prefSince = some u → d.cb Reg.LANT_TIME_CTRL 30 = false ∨ d.clk.now < u + 60 * sec →
      exec (.revertTimer t) s = .next (s.put d)) ∧
    (d.time.prefSince = none → exec (.revertTimer t) s = .next (s.put d)) ∧
    (let held (x : RefDom) : Prop := (d.refDom x).st = .tracking ∨ (d.refDom x).st = .locked;
      (d.time.readyAt = none → exec (.timeGateTimeout t) s = .next (s.put d)) ∧
      (∀ u, d.time.readyAt = some u → d.time.gateOpen = true ∨ held .a ∨ held .b ∨ d.clk.now < u + d.cf Reg.LANT_TIME_CTRL 22 15 * sec →
        exec (.timeGateTimeout t) s = .next (s.put d)) ∧
      (∀ u, d.time.readyAt = some u → d.time.gateOpen = false → ¬ held .a → ¬ held .b → u + d.cf Reg.LANT_TIME_CTRL 22 15 * sec ≤ d.clk.now →
        exec (.timeGateTimeout t) s = .next (s.put ((d.onTime fun x => { x with gateOpen := true }).raise 68 0)))) ∧
    (d.clk.lampRun = true → d.domDown 2 = false → d.lampHn % sec < 2 →
      exec (.rtcSecondWrite t) s = .next (s.put { d with clk := { d.clk with rtcFix := d.lampHn / sec * 32768 * 2000000000 } })) ∧
    (d.clk.lampRun = false ∨ d.domDown 2 = true ∨ 2 ≤ d.lampHn % sec → exec (.rtcSecondWrite t) s = .next (s.put d))

/-! ## Memory, scrubs and the CRC unit (chapters 11 and 12) -/

/-- DRAM. A request to a channel that is not OFF joins its queue of 128, at the instant it is admitted and waking it from
self-refresh, or is held behind it; a completed one is counted as a row hit or miss, its 64 bytes are written or put out, its bank
keeps the row only where it asked so, and the oldest held request is admitted (R240, R244). A row open too long is closed; a
refresh closes every row; a channel idle long enough closes its rows and begins self-refresh (R243, R249). SRAM_SCRUB of a domain
that is not OFF: a clean word has no effect; a corrected word is counted, with EV194; an uncorrectable one is counted, kept as the
last, its item lost as its block says, and EV195 raised (R252). The CRC units: a start loads the state from INIT, data feeds the
low 1 to 4 bytes through the polynomial, and a write of the high half of the state sets it, each within the unit's width; the
unit's pointer then stands behind the requester (R17, R254, R255). -/
def Obligations.MemoryCommands : Prop :=
  (∀ (s : State) (t : Time),
    let d := s.seen t
    (∀ (req addr : Nat) (keep : Bool) (data : Option Bytes),
      let ch := dramChan addr
      let c := d.mem.chan ch
      let r : DReq := ⟨d.mem.nextReq, req, addr / 64 * 64, pageOpen req keep, data.map (padTo 64), d.clk.now⟩
      let named := d.onMem fun m => { m with nextReq := m.nextReq + 1 }
      (c.st = 0 → exec (.dramRequest t req addr keep data) s = .next (s.put d)) ∧
      (c.st ≠ 0 → c.reqs.length < 128 → (named.mem.chan ch).startsOrder r = false →
        exec (.dramRequest t req addr keep data) s = .next (s.put (named.onMem fun m => m.onChan ch fun _ =>
          { named.mem.chan ch with reqs := (named.mem.chan ch).reqs ++ [r], lastReq := d.clk.now
                                   st := if (named.mem.chan ch).st = 3 ∨ (named.mem.chan ch).st = 4 then 5 else (named.mem.chan ch).st }))) ∧
      (c.st ≠ 0 → c.reqs.length < 128 → (named.mem.chan ch).startsOrder r = true →
        exec (.dramRequest t req addr keep data) s = .next (s.put (named.dramAdmit ch r))) ∧
      (c.st ≠ 0 → 128 ≤ c.reqs.length → exec (.dramRequest t req addr keep data) s =
        .next (s.put (named.onMem fun m => m.onChan ch fun c => { c with held := c.held ++ [r] })))) ∧
    (∀ (ch : Fin 2) (bank : Fin 8),
      let b := (d.mem.chan ch).banks.get Bank.closed bank
      let isOver := b.row.isSome = true ∧ d.cf (Reg.MEM_CH_CTRL ch) 7 0 * 8000 ≤ (d.clk.now - b.lastUse) * 2133
      (isOver → exec (.rowCloseTimeout t ch bank) s = .next (s.put (d.onMem fun m => m.onChan ch fun c =>
        { c with banks := c.banks.upd Bank.closed bank fun b => { b with row := none } }))) ∧
      (¬ isOver → exec (.rowCloseTimeout t ch bank) s = .next (s.put d))) ∧
    (∀ ch : Fin 2,
      let c := d.mem.chan ch
      (c.st = 2 → exec (.refreshDue t ch) s = .next (s.put (d.onMem fun m => m.onChan ch Channel.closeRows))) ∧
      (c.st ≠ 2 → exec (.refreshDue t ch) s = .next (s.put d)) ∧
      (c.st = 2 → c.reqs = [] → c.lastReq + d.srIdle ≤ d.clk.now → exec (.selfRefreshEntry t ch) s = .next (s.put
        ((d.onMem fun m => m.onChan ch fun c => { c.closeRows with st := 3, entry := d.clk.now }).inc Reg.MEM_SR_ENTRY_CNT))) ∧
      (c.st ≠ 2 ∨ c.reqs ≠ [] ∨ d.clk.now < c.lastReq + d.srIdle → exec (.selfRefreshEntry t ch) s = .next (s.put d)) ∧
      (c.pick d.clk.now = none → exec (.dramRequestComplete t ch) s = .next (s.put d)) ∧
      (∀ r, c.pick d.clk.now = some r →
        let b := c.banks.get Bank.closed r.bank
        let counted := d.inc (if b.row = some (dramRow r.addr) then Reg.MEM_CH_ROWHIT_CNT ch else Reg.MEM_CH_ROWMISS_CNT ch)
        let moved := match r.data with
          | some x => counted.onMem fun m => { m with bytes := writeBytes m.bytes r.addr x }
          | none => counted.emit (.mem r.addr (readBytes counted.mem.bytes r.addr 64))
        let openMax := moved.cf (Reg.MEM_CH_CTRL ch) 7 0
        let served := moved.onMem fun m => m.onChan ch fun c =>
          { c with reqs := c.reqs.filter fun q => q.id ≠ r.id, lastReq := moved.clk.now, st := 2
                   banks := c.banks.upd Bank.closed r.bank fun b => b.served r openMax moved.clk.now }
        (c.held = [] → exec (.dramRequestComplete t ch) s = .next (s.put served)) ∧
        (∀ h rest, c.held = h :: rest → exec (.dramRequestComplete t ch) s =
          .next (s.put ((served.onMem fun m => m.onChan ch fun c => { c with held := rest }).dramAdmit ch h)))))) ∧
  (∀ (s : State) (t : Time),
    let d := s.seen t
    (∀ (blk : Fin 7) (sub : Band) (w : Nat),
      let n := blockDom blk.val sub
      (d.domSt n = 0 → ∀ r, exec (.sramScrub t blk sub w r) s = .next (s.put d)) ∧
      (d.domSt n ≠ 0 →
        exec (.sramScrub t blk sub w .clean) s = .next (s.put d) ∧
        exec (.sramScrub t blk sub w .corrected) s = .next (s.put ((d.inc (Reg.DOM_SRAM_CORR_CNT n)).sramRaise 194)) ∧
        exec (.sramScrub t blk sub w .uncorrectable) s = .next (s.put
          ((((d.inc (Reg.DOM_SRAM_UNCORR_CNT n)).onDom n fun x => { x with sramLast := w32 (blk.val * 0x10000000 + w % 0x1000000) }).itemLost
            blk.val sub w).sramRaise 195)))) ∧
    (∀ (q : Nat) (n : Fin 4),
      let c := d.cvUnit n.val
      let put (s' : DWord) (op : CvOp) : Device := d.onCv n.val fun _ =>
        ⟨{ c.now with s := s', ptr := (q % 8 + 1) % 8 }, d.clk.now, c.now, [(q % 8, op)]⟩
      (d.refusal q (Reg.CV_CMD n) 4 = none →
        exec (.cvStart t q n) s = .next (s.put (d.cvPut q n.val .start)) ∧
        (c.since ≠ d.clk.now → exec (.cvStart t q n) s = .next (s.put (put
          (BitVec.ofNat 64 (d.cfg64 (Reg.CV_INIT_LO n) (Reg.CV_INIT_HI n) % 2 ^ d.cvWidth n)) .start)))) ∧
      (∀ v : Word, d.refusal q (Reg.CV_DATA n) 4 = none →
        let bytes := (beBytes 4 v.toNat).drop (4 - (d.cf (Reg.CV_CTRL n) 10 9 + 1))
        let fed := cvFeed (d.cvWidth n) (d.cfg64 (Reg.CV_POLY_LO n) (Reg.CV_POLY_HI n)) (d.cb (Reg.CV_CTRL n) 7) (c.now.s.toNat % 2 ^ d.cvWidth n) bytes
        exec (.cvData t q n v) s = .next (s.put (d.cvPut q n.val (.feed v))) ∧
        (c.since ≠ d.clk.now → exec (.cvData t q n v) s = .next (s.put (put (BitVec.ofNat 64 fed) (.feed v))))) ∧
      (∀ hi : Word, d.refusal q (Reg.CV_STATE_HI n) 4 = none →
        exec (.cvStateWrite t q n hi) s = .next (s.put (d.cvPut q n.val (.stateHi hi))) ∧
        (c.since ≠ d.clk.now → exec (.cvStateWrite t q n hi) s = .next (s.put (put
          (BitVec.ofNat 64 ((hi.toNat * 4294967296 + c.now.lo.toNat) % 2 ^ d.cvWidth n)) (.stateHi hi)))))))

/-! ## Reloads, start, reset and supply (chapters 13 and 14) -/

/-- DOMAIN_READY lets a domain in RESET's start or in RELOADING go on: it is READY, and the start or the rollback goes on behind
it; in any other state it has no effect. RELOAD_CMD of a staged list that may be loaded begins it, in the superframe at least 2 ms
ahead where it names D2 to D5, and takes effect at once where it names none; any other is refused with EV037. RELOAD_COMPLETE
activates it once every named domain is READY; a domain that reloads longer than its limit rolls the reload back, and in the
rollback faults (R272, R279 to R281). A domain that starts longer than its limit raises EV002 and faults (R290); the flash is
searched for every attempt until found or 20 times (R390). -/
def Obligations.ReloadsAndStarts : Prop :=
  ∀ (s : State) (t : Time) (n : Fin 10),
    let d := s.seen t
    let st := d.domSt n.val
    let restored := if n.val = 8 then d.restoreMem else d
    (st ≠ 2 → st ≠ 4 → exec (.domainReady t n) s = .next (s.put d)) ∧
    (st = 4 → exec (.domainReady t n) s = .next (s.put ((restored.domGo n.val).rollbackEnd))) ∧
    (st = 2 → n.val ≠ 2 → exec (.domainReady t n) s = .next (s.put ((restored.domGo n.val).startGo))) ∧
    (st = 2 → n.val = 2 →
      let ready := d.domGo 2
      (ready.start.stage = stageDone → ready.pwr.st = 0 → exec (.domainReady t n) s = .next (s.put ready.radiosLate.startGo)) ∧
      (ready.start.stage ≠ stageDone ∨ ready.pwr.st ≠ 0 → exec (.domainReady t n) s = .next (s.put ready.startGo))) ∧
    (∀ mask : BitVec 10, d.Admits Reg.KEEP_LL_RELOAD_CMD →
      let named := d.onLL fun l => { l with stage := 3, reloadMask := mask }
      let marked := named.named.foldl (fun d n => d.onDom n fun x => { x with reloadPending := true }) named
      (d.reloadOk mask = false → exec (.reloadCmd t mask) s = .next (s.put (d.raise 37 0))) ∧
      (d.reloadOk mask = true → mask = 0 → exec (.reloadCmd t mask) s = .next (s.put marked.activate)) ∧
      (d.reloadOk mask = true → mask &&& 0x3C ≠ 0 →
        exec (.reloadCmd t mask) s = .next (s.put (marked.onLL fun l => { l with reloadAt := some marked.boundary2ms }))) ∧
      (d.reloadOk mask = true → mask ≠ 0 → mask &&& 0x3C = 0 → exec (.reloadCmd t mask) s = .next (s.put marked.reloadBegin))) ∧
    (let isOver := d.ll.stage = 3 ∧ d.ll.reloadAt = none ∧ d.named.all (fun n => d.domSt n == 3) = true;
      (isOver → exec (.reloadComplete t) s = .next (s.put d.activate)) ∧ (¬ isOver → exec (.reloadComplete t) s = .next (s.put d))) ∧
    (let late := bitOf d.ll.reloadMask n.val = true ∧ st = 4 ∧ (d.dom n.val).since + reloadLimit n.val ≤ d.clk.now;
      (late → d.ll.stage = 3 → exec (.reloadFail t n) s = .next (s.put d.rollback)) ∧
      (late → d.ll.stage = 4 → exec (.reloadFail t n) s = .next (s.put ((d.domFault n.val).rollbackEnd))) ∧
      (¬ late ∨ (d.ll.stage ≠ 3 ∧ d.ll.stage ≠ 4) → exec (.reloadFail t n) s = .next (s.put d))) ∧
    (let late := st = 2 ∧ 2 ≤ n.val ∧ d.start.stage ≠ stageDone ∧ 5 ≤ d.start.stage ∧ (d.dom n.val).since + startLimit n.val ≤ d.clk.now;
      (late → exec (.startLimitExpiry t n) s = .next (s.put (((d.raise 2 0).domFault n.val).startGo))) ∧
      (¬ late → exec (.startLimitExpiry t n) s = .next (s.put d))) ∧
    (∀ found : Bool,
      let tried := (d.onLL fun l => { l with flash := { l.flash with sfdp := found } }).onStart fun s => { s with sfdpTries := s.sfdpTries + 1 }
      (d.start.bringUp = false → exec (.sfdpRetry t found) s = .next (s.put d)) ∧
      (d.start.bringUp = true → found = true ∨ 19 ≤ d.start.sfdpTries →
        exec (.sfdpRetry t found) s = .next (s.put ((tried.onStart fun s => { s with bringUp := false }).startLoad))) ∧
      (d.start.bringUp = true → found = false → d.start.sfdpTries < 19 → exec (.sfdpRetry t found) s = .next (s.put tried)))

/-- The rails. A supply that rises to the start voltage powers D0 and starts cold (a lower one is only noted); each rail
follows once its delay has passed and it is in regulation, the eighth step ends the sequence, and a rail still out of regulation
1 ms later fails it; it is tried again after 100 ms, from the third failure on after 10 s (R286, R288). BROWNOUT of a supply that
falls below 7.2 V writes its Log record, drops the rails, is counted and owes EV021 at the next start (R363); MOORING_POWER_LOSS
below it, with the rails down, is a power-on of the Mooring (R381). THERMAL_TRIP drops the rails and keeps them down;
THERMAL_RELEASE starts cold where the supply and RESET_N allow (R393). -/
def Obligations.SupplyAndRails : Prop :=
  (∀ (s : State) (t : Time),
    let d := s.seen t
    (∀ mv : Nat, mv < vStart → exec (.vinRise t mv) s = .next (s.put (d.onPwr fun p => { p with vin := mv }))) ∧
    (∀ mv : Nat, vStart ≤ mv → d.start.powered = false →
      let on := (d.powerOn.onDom 0 fun x => { x with st := 2, since := d.powerOn.clk.now }).onStart fun s => { s with powered := true }
      exec (.vinRise t mv) s = .next (s.put ((on.coldStart 0 none).onPwr fun p => { p with vin := mv }))) ∧
    (∀ mv : Nat, vStart ≤ mv → d.start.powered = true →
      let noted := d.onPwr fun p => { p with vin := mv }
      let idle := d.start.rail = 0 ∧ d.start.pwrGood = false ∧ d.pwr.st = 0 ∧ d.pwr.tripped = false ∧ d.start.resetLow = none
      (idle → exec (.vinRise t mv) s = .next (s.put (noted.coldStart 0 none))) ∧
      (¬ idle → exec (.vinRise t mv) s = .next (s.put noted))) ∧
    (∀ ok : Bool,
      let k := d.start.rail
      let due := d.start.t0 + railDelay d.railProfile k
      (k = 0 ∨ d.start.resetLow.isSome = true ∨ d.clk.now < due → exec (.railStep t ok) s = .next (s.put d)) ∧
      (k ≠ 0 → d.start.resetLow = none → due ≤ d.clk.now →
        (k = 8 → exec (.railStep t ok) s = .next (s.put d.railsUp)) ∧
        (k ≠ 8 → ok = true → exec (.railStep t ok) s = .next (s.put (d.onStart fun s => { s with rail := k + 1 }))) ∧
        (k ≠ 8 → ok = false → due + msec ≤ d.clk.now → exec (.railStep t ok) s = .next (s.put (d.onStart fun s =>
          { s with railFail := s.rail, attempts := min 255 (s.attempts + 1), rail := 0, railFault := true, t0 := d.clk.now
                   owe := if s.owe.contains 1 then s.owe else s.owe ++ [1] }))) ∧
        (k ≠ 8 → ok = false → d.clk.now < due + msec → exec (.railStep t ok) s = .next (s.put d)))) ∧
    (let again := d.start.railFault = true ∧ d.start.resetLow = none ∧
        d.start.t0 + (if d.start.attempts < 3 then 100 * msec else 10 * sec) ≤ d.clk.now;
      (again → exec (.railFaultRetry t) s = .next (s.put (d.onStart fun s => { s with railFault := false, rail := 1, t0 := d.clk.now }))) ∧
      (¬ again → exec (.railFaultRetry t) s = .next (s.put d)))) ∧
  (∀ (s : State) (t : Time),
    let d := s.seen t
    let owed (d : Device) (ev : Nat) : Device := d.onStart fun s => { s with owe := if s.owe.contains ev then s.owe else s.owe ++ [ev] }
    (∀ mv : Nat,
      (d.start.powered = false ∨ 7200 ≤ mv ∨ d.pwr.vin < 7200 → exec (.brownout t mv) s = .next (s.put d)) ∧
      (d.start.powered = true → mv < 7200 → 7200 ≤ d.pwr.vin → exec (.brownout t mv) s = .next (s.put (owed
        (((((d.brownLog mv).freeNext).railsDrop).onPwr fun p => { p with vin := mv }).inc Reg.MOOR_BROWNOUT_CNT) 21)))) ∧
    (d.start.powered = true → d.pwr.vin < 7200 → d.start.pwrGood = false → exec (.mooringPowerLoss t) s = .next (s.put d.powerOn)) ∧
    (d.start.powered = false ∨ 7200 ≤ d.pwr.vin ∨ d.start.pwrGood = true → exec (.mooringPowerLoss t) s = .next (s.put d)) ∧
    (d.start.powered = true → d.pwr.tripped = false → exec (.thermalTrip t) s = .next (s.put (owed
      ((d.railsDrop.onPwr fun p => { p with tripped := true }).inc Reg.MOOR_THERM_TRIP_CNT) 41))) ∧
    (d.start.powered = false ∨ d.pwr.tripped = true → exec (.thermalTrip t) s = .next (s.put d)) ∧
    (d.pwr.tripped = false → exec (.thermalRelease t) s = .next (s.put d)) ∧
    (d.pwr.tripped = true →
      let free := d.onPwr fun p => { p with tripped := false }
      (7200 ≤ d.pwr.vin → d.start.resetLow = none → exec (.thermalRelease t) s = .next (s.put (free.coldStart 4 none))) ∧
      (d.pwr.vin < 7200 ∨ d.start.resetLow ≠ none → exec (.thermalRelease t) s = .next (s.put free))))

/-- RESET_N. Asserted on a powered device it holds the pads, resets the event state and every domain but D0, stops lamp time and
the rails' sequence; released after 2 s or more it clears the ladders' halt and starts cold, earlier it starts warm where the
power was good and it was not moored (R285). BRING_UP of a D1 that starts trains the DRAM, or restores its training, and goes on to
the load, waits for the flash, or degrades; at any other time it has no effect (R289). -/
def Obligations.ResetAndBringUp : Prop :=
  ∀ (s : State) (t : Time),
    let d := s.seen t
    (d.start.powered = false ∨ d.start.resetLow.isSome = true → exec (.resetAssert t) s = .next (s.put d)) ∧
    (d.start.powered = true → d.start.resetLow = none →
      let held := (((((d.padHold 0).padHold 1).padHold 2).padHold 3)).evReset
      let code := if held.start.pwrGood = true then 1 else 0
      let down := [9, 8, 7, 6, 5, 4, 3, 2, 1].foldl (fun d n => d.domReset (if d.domSt n = 0 then 0 else code) n) held
      let stopped : Device := { down with clk := { down.clk with lampRun := false } }
      exec (.resetAssert t) s = .next (s.put ((stopped.onStart fun s =>
        { s with resetLow := some stopped.clk.now, rail := 0, todo := [], bringUp := false, stage := 0 }).onTwin fun w =>
        { w with yielding := w.yielding || w.role == 2 }))) ∧
    (d.start.resetLow = none → exec (.resetRelease t) s = .next (s.put d)) ∧
    (∀ u, d.start.resetLow = some u →
      let up := (d.onStart fun s => { s with resetLow := none }).onTender fun k => { k with ladders := [], faultWait := [] }
      (u + 2 * sec ≤ d.clk.now → exec (.resetRelease t) s = .next (s.put (up.haltEnd.coldStart 1 none))) ∧
      (d.clk.now < u + 2 * sec → d.start.pwrGood = true → d.pwr.st ≠ 4 → exec (.resetRelease t) s = .next (s.put (up.warmStart 2))) ∧
      (d.clk.now < u + 2 * sec → d.start.pwrGood = false ∨ d.pwr.st = 4 → exec (.resetRelease t) s = .next (s.put (up.coldStart 2 none)))) ∧
    (∀ runs, d.domSt 1 ≠ 2 ∨ d.start.stage ≠ 1 → exec (.bringUp t runs) s = .next (s.put d)) ∧
    (∀ runs, d.domSt 1 = 2 → d.start.stage = 1 →
      let begun := (d.onStart fun s => { s with stage := 2 }).onDom 8 fun x => { x with st := 2, since := d.clk.now }
      let done := begun.bringTrain runs
      (done.mem.ok = false → exec (.bringUp t runs) s = .next (s.put done.degrade)) ∧
      (done.mem.ok = true → done.ll.flash.sfdp = true ∨ done.start.waking = some 2 → exec (.bringUp t runs) s = .next (s.put done.startLoad)) ∧
      (done.mem.ok = true → done.ll.flash.sfdp = false → done.start.waking ≠ some 2 →
        exec (.bringUp t runs) s = .next (s.put (done.onStart fun s => { s with bringUp := true, sfdpTries := 0 }))))

/-! ## The Twin, power states and pins (chapters 14 and 15) -/

/-- The peer of the Twin as this device sees it. A heartbeat whose last three half periods are of one pattern, each within the
tolerance, keeps the peer alive, and tells its role while no KEEPALIVE does; one of no pattern shows the peer's pins OFF. A peer
unheard for the loss time is lost, with EV014, and the device goes on by its role and seniority; a heard one returns, and a device
that gives way to it becomes STANDBY (R300, R302, R313). -/
def Obligations.TwinHeartbeats : Prop :=
  ∀ (s : State) (t : Time),
    let d := s.seen t
    (∀ h1 h2 h3 : Time,
      let beat := d.onTwin fun w => { w with pinsOk := true, lastHb := d.clk.now }
      (hbClass h1 h2 h3 = none →
        exec (.hbPatternClassify t h1 h2 h3) s = .next (s.put (d.onTwin fun w => { w with pinsOk := false, lastHb := d.clk.now }))) ∧
      (hbClass h1 h2 h3 = some .yield → exec (.hbPatternClassify t h1 h2 h3) s = .next (s.put beat.yieldSeen)) ∧
      (hbClass h1 h2 h3 = some .lit → beat.keepOk = false → exec (.hbPatternClassify t h1 h2 h3) s = .next (s.put (beat.peerReports 2))) ∧
      (hbClass h1 h2 h3 = some .starting → beat.keepOk = false →
        exec (.hbPatternClassify t h1 h2 h3) s = .next (s.put (beat.peerReports 1))) ∧
      (hbClass h1 h2 h3 = some .lit ∨ hbClass h1 h2 h3 = some .starting ∨ hbClass h1 h2 h3 = some .standby → beat.keepOk = true →
        exec (.hbPatternClassify t h1 h2 h3) s = .next (s.put beat)) ∧
      (hbClass h1 h2 h3 = some .standby → beat.keepOk = false → d.twin.peerRole = 3 ∨ d.twin.peerRole = 4 →
        exec (.hbPatternClassify t h1 h2 h3) s = .next (s.put beat)) ∧
      (hbClass h1 h2 h3 = some .standby → beat.keepOk = false → d.twin.peerRole ≠ 3 → d.twin.peerRole ≠ 4 →
        ∃ r, (r = 3 ∨ r = 4) ∧ exec (.hbPatternClassify t h1 h2 h3) s = .next (s.put (beat.freeNext.peerReports r)))) ∧
    (d.twinEn = false ∨ d.twin.lost = true ∨ d.twin.role = 0 ∨ d.clk.now < d.twin.lastHb + d.hbLoss →
      exec (.heartbeatLoss t) s = .next (s.put d)) ∧
    (d.twinEn = true → d.twin.lost = false → d.twin.role ≠ 0 → d.twin.lastHb + d.hbLoss ≤ d.clk.now →
      let take := match d.twin.takeAt with
        | some (_, 1) => none
        | x => x
      let gone := d.onTwin fun w => { w with
        lost := true, pinsOk := false, keepAt := none, handover := none, yielding := w.yielding && !w.handover.isSome, takeAt := take }
      let told := (gone.inc Reg.MOOR_TWIN_HB_LOSS_CNT).raise 14 0
      (d.twin.role = 2 → d.twin.senior = false → exec (.heartbeatLoss t) s = .next (s.put (told.becomeIsolated true))) ∧
      (d.twin.role = 3 → d.twin.senior = true → exec (.heartbeatLoss t) s = .next (s.put (told.trigger (told.clk.now + msec) 3))) ∧
      (d.twin.role = 3 → d.twin.senior = false → exec (.heartbeatLoss t) s = .next (s.put (told.becomeIsolated false))) ∧
      ((d.twin.role = 2 ∧ d.twin.senior = true) ∨ d.twin.role = 1 ∨ d.twin.role = 4 → exec (.heartbeatLoss t) s = .next (s.put told))) ∧
    (d.twin.lost = false ∨ d.twin.lastHb + d.hbLoss ≤ d.clk.now → exec (.heartbeatReturn t) s = .next (s.put d)) ∧
    (d.twin.lost = true → d.clk.now < d.twin.lastHb + d.hbLoss →
      let take := match d.twin.takeAt with
        | some (_, 3) => none
        | some (_, 4) => none
        | x => x
      let back := d.onTwin fun w => { w with lost := false, takeAt := take }
      let yields := d.twin.role = 4 ∨ (d.twin.role = 2 ∧ d.twin.peerRole = 2 ∧ d.twin.senior = false)
      (yields → exec (.heartbeatReturn t) s = .next (s.put ((back.onTwin fun w => { w with lastTrigger := 6 }).becomeStandby))) ∧
      (¬ yields → exec (.heartbeatReturn t) s = .next (s.put back)))

/-- Taking over. A senior device that has waited as STARTING for its time without a LIT peer becomes LIT (R298); HANDOVER on a
LIT device with the Range link UP names a superframe at least 4 ms ahead and tells the peer, on a STANDBY one asks for it, and on
a STARTING or ISOLATED one is refused with EV016; FORCE triggers a STANDBY or ISOLATED device 1 ms later (R307). A due change takes
over where the serving domains are READY and it may, waits while one of them reloads, and is refused otherwise (R308). The LIT
device stops at its handover's boundary (R309). -/
def Obligations.TwinChanges : Prop :=
  ∀ (s : State) (t : Time),
    let d := s.seen t
    (let waited := d.twin.role = 1 ∧ d.twin.senior = true ∧ d.twin.peerRole ≠ 2 ∧ d.twin.mirrorStale = false ∧
        d.twin.startedAt + d.startWait ≤ d.clk.now;
      (waited → exec (.startWaitExpiry t) s = .next (s.put d.becomeLit)) ∧ (¬ waited → exec (.startWaitExpiry t) s = .next (s.put d))) ∧
    (d.Admits Reg.MOOR_TWIN_CMD →
      (∀ k : BitVec 8,
        let n := d.lampSf + max 1 k.toNat
        let h := if n * sfLen < d.lampHn + 4 * msec then n + 1 else n
        (d.twin.role = 2 → d.twin.handover = none → d.twinPresent = true → d.lanes.rng.st = 2 → d.twin.yielding = false →
          exec (.handoverCmd t k) s = .next (s.put ((d.onTwin fun w => { w with handover := some h }).control (.handover h)))) ∧
        (d.twin.role = 2 → d.twin.handover.isSome = true → exec (.handoverCmd t k) s = .next (s.put d)) ∧
        (d.twin.role = 2 → d.twin.handover = none → d.twinPresent = false ∨ d.lanes.rng.st ≠ 2 ∨ d.twin.yielding = true →
          exec (.handoverCmd t k) s = .next (s.put (d.raise 16 0))) ∧
        (d.twin.role = 3 → d.lanes.rng.st = 2 → exec (.handoverCmd t k) s = .next (s.put (d.control (.handoverReq k.toNat)))) ∧
        (d.twin.role = 0 → exec (.handoverCmd t k) s = .next (s.put d)) ∧
        (d.twin.role = 1 ∨ d.twin.role = 4 ∨ (d.twin.role = 3 ∧ d.lanes.rng.st ≠ 2) →
          exec (.handoverCmd t k) s = .next (s.put (d.raise 16 0)))) ∧
      (d.twin.role = 3 ∨ d.twin.role = 4 → d.mayTake = true → d.servingAll (fun x => x == 3 || x == 4) = true →
        exec (.forceCmd t) s = .next (s.put (d.onTwin fun w => { w with takeAt := some (d.clk.now + msec, 5) }))) ∧
      (d.twin.role = 3 ∨ d.twin.role = 4 → d.mayTake = false ∨ d.servingAll (fun x => x == 3 || x == 4) = false →
        exec (.forceCmd t) s = .next (s.put d.refuseTake)) ∧
      (d.twin.role ≠ 3 → d.twin.role ≠ 4 → exec (.forceCmd t) s = .next (s.put d))) ∧
    (d.twin.takeAt = none → exec (.lampChange t) s = .next (s.put d)) ∧
    (∀ due code, d.twin.takeAt = some (due, code) →
      let dropped := d.onTwin fun w => { w with takeAt := none }
      let heard := code = 4 ∧ d.twin.airHeard = true
      let bare := d.twin.role = 4 ∧ d.twin.wasLit = true ∧ code = 4
      let may := d.twin.role = 3 ∨ d.twin.role = 4 ∨ d.twin.role = 1
      (d.clk.now < due → exec (.lampChange t) s = .next (s.put d)) ∧
      (due ≤ d.clk.now → ¬ may ∨ heard → exec (.lampChange t) s = .next (s.put dropped)) ∧
      (due ≤ d.clk.now → may → ¬ heard → bare ∨ (d.servingAll (fun x => x == 3) = true ∧ d.mayTake = true) →
        exec (.lampChange t) s = .next (s.put (d.takeOver code))) ∧
      (due ≤ d.clk.now → may → ¬ heard → ¬ bare → d.servingAll (fun x => x == 3) = false → d.servingAll (fun x => x == 3 || x == 4) = true →
        d.mayTake = true → exec (.lampChange t) s = .next (s.put d)) ∧
      (due ≤ d.clk.now → may → ¬ heard → ¬ bare → d.mayTake = false ∨ d.servingAll (fun x => x == 3 || x == 4) = false →
        d.servingAll (fun x => x == 3) = false ∨ d.mayTake = false →
        exec (.lampChange t) s = .next (s.put d.refuseTake))) ∧
    (d.twin.handover = none → exec (.handoverBoundary t) s = .next (s.put d)) ∧
    (∀ h, d.twin.handover = some h →
      (d.twin.role = 2 → h * sfLen ≤ d.lampHn + msec → exec (.handoverBoundary t) s =
        .next (s.put (((d.onTwin fun w => { w with yielding := true }).voidNotes true).gateWatch))) ∧
      (d.twin.role ≠ 2 ∨ d.lampHn + msec < h * sfLen → exec (.handoverBoundary t) s = .next (s.put d)))

/-- Entering a power state. Of a twin a request is refused with EV016, while one is under way with EV011, and Moored with EV011
while anything of the spool or the ring would be lost; one that must wait is held, and accepted once it need not (R318). The entry
completes when the plan's last superframe is served and no cipher job runs: the pads of groups 1 to 3 are held, the radios, the
packet engine and the lanes, then the cipher, the DRAM and Keeper are off, the Lantern too but in Eclipse, and the state is the
target's, with the alert masks kept and EV004 (R326, R329).

Leaving a power state. A due tick of the sequencer in a sleep state samples supply and temperature, and sets the wake latch
where a threshold was crossed since the last tick or a pin fires (R324); the RTC alarm sets its own bit (R325); with a source
latched and enabled, or a fault, the device leaves: counted, the source kept, by the state it was in (R327). Awake, and with no
source and no fault, a tick and an exit have no effect. -/
def Obligations.PowerStates : Prop :=
  ∀ (s : State) (t : Time),
    let d := s.seen t
    (d.Admits Reg.MOOR_PWR_CMD →
      let asks (answer : Host.Outcome State Fault Refusal) (target : Nat) : Prop :=
        let lost := target = 3 ∧ (d.keep.fwd < d.keep.wr ∨ d.lant.ring ≠ [])
        let aimed := d.onPwr fun p => { p with target := target }
        (d.twinEn = true → answer = .next (s.put (d.raise 16 0))) ∧
        (d.twinEn = false → d.pwr.st = 1 ∨ d.pwr.held = true → answer = .next (s.put (d.raise 11 0))) ∧
        (d.twinEn = false → d.pwr.st ≠ 1 → d.pwr.held = false → d.pwr.st ≠ 0 → answer = .next (s.put d)) ∧
        (d.twinEn = false → d.pwr.st = 0 → d.pwr.held = false → lost → answer = .next (s.put (d.raise 11 0))) ∧
        (d.twinEn = false → d.pwr.st = 0 → d.pwr.held = false → ¬ lost → aimed.pwrWaits = true →
          answer = .next (s.put (aimed.onPwr fun p => { p with held := true }))) ∧
        (d.twinEn = false → d.pwr.st = 0 → d.pwr.held = false → ¬ lost → aimed.pwrWaits = false → answer = .next (s.put aimed.pwrAccept))
      asks (exec (.pwrRequestEclipse t) s) 1 ∧ asks (exec (.pwrRequestDeepEclipse t) s) 2 ∧ asks (exec (.pwrRequestMoored t) s) 3) ∧
    (d.pwr.held = true → d.pwrWaits = false → exec (.pwrRequestAccept t) s = .next (s.put d.pwrAccept)) ∧
    (d.pwr.held = false ∨ d.pwrWaits = true → exec (.pwrRequestAccept t) s = .next (s.put d)) ∧
    (d.pwr.st ≠ 1 ∨ d.lant.eclipseFlag = false ∨ d.ciph.jobs ≠ [] → exec (.entryComplete t) s = .next (s.put d)) ∧
    (d.pwr.st = 1 → d.lant.eclipseFlag = true → d.ciph.jobs = [] →
      let held := ((d.padHold 1).padHold 2).padHold 3
      let quiet := (([4, 5, 6, 9].foldl (fun d n => d.domReset 0 n) held).ciphOff.logFlush.domReset 0 8).domReset 0 1
      let dark := if d.pwr.target = 1 then quiet else quiet.lantOff
      let moored := if d.pwr.target = 3 then dark.moor else dark
      exec (.entryComplete t) s = .next (s.put (((moored.onEv fun e => { e with alertCopy := d.alertMasks }).onPwr fun p =>
        { p with st := d.pwr.target + 1, entryAt := none, firstTick := false, tickAt := none }).raise 4 0))) ∧
    let asleep : Prop := d.pwr.st = 2 ∨ d.pwr.st = 3 ∨ d.pwr.st = 4
    (∀ (mv : Nat) (temp : BitVec 16), ¬ asleep ∨ d.tickDue = false → exec (.sequencerTick t mv temp) s = .next (s.put d)) ∧
    (∀ (mv : Nat) (temp : BitVec 16), asleep → d.tickDue = true →
      let v := d.pwr.firstTick && d.vinCrossed (min 65535 mv)
      let w := d.pwr.firstTick && d.tempCrossed temp
      let sampled := ((d.onPwr fun p =>
        { p with vin := mv, sampleVin := min 65535 mv, sampleTemp := temp, firstTick := true, tickAt := some d.rtcTicks }).thermSample temp).tempGroups temp
      let byV := if v then sampled.latchSet 1 else sampled
      let byT := if w then byV.latchSet 2 else byV
      let told := if v || w then byT.raise 9 0 else byT
      (told.gpioFires = true → exec (.sequencerTick t mv temp) s = .next (s.put (told.latchSet 0))) ∧
      (told.gpioFires = false → exec (.sequencerTick t mv temp) s = .next (s.put told))) ∧
    (let a := (d.cfg Reg.MOOR_RTC_ALARM).toNat;
      let now := a ≠ 0 ∧ d.start.powered = true ∧ d.rtcSec % 4294967296 = a
      (now → exec (.rtcAlarm t) s = .next (s.put (d.latchSet 4))) ∧ (¬ now → exec (.rtcAlarm t) s = .next (s.put d))) ∧
    (∀ runs, ¬ asleep ∨ (d.wakeSource = none ∧ d.eclipseFault = false) → exec (.wakeExit t runs) s = .next (s.put d)) ∧
    (∀ runs, d.wakeSource.isSome = true ∨ d.eclipseFault = true →
      let last := d.wakeSource.getD d.pwr.lastWake
      let out := (d.onPwr fun p => { p with st := 5, lastWake := last }).inc Reg.MOOR_WAKE_CNT
      (d.pwr.st = 2 → exec (.wakeExit t runs) s = .next (s.put (bringUp runs out.exitEclipse))) ∧
      (d.pwr.st = 3 → exec (.wakeExit t runs) s = .next (s.put (bringUp runs out.exitDeep))) ∧
      (d.pwr.st = 4 → exec (.wakeExit t runs) s = .next (s.put (out.coldStart 0 (some 4)))))

/-- The pins. A level that has stood for the debounce time is taken unless the pin is frozen, and an earlier one is only seen;
more transitions than allowed freeze the pin, with EV006; a frozen pin is looked at again after its hold and the ten seconds
counted, and thaws with EV020 where they are few enough; an active wake pin held for the stuck time raises EV007 once (R332 to
R334). PAD_RELEASE lets the named groups of pads go (R330). -/
def Obligations.Pins : Prop :=
  ∀ (s : State) (t : Time) (pin : Fin 16),
    let d := s.seen t
    let i := pin.val
    let g := d.gpio i
    (∀ groups : BitVec 4, d.Admits Reg.MOOR_PAD_RELEASE →
      exec (.padRelease t groups) s = .next (s.put (d.padRelease groups))) ∧
    (∀ (level : Bool) (since : Time),
      (d.start.powered = false → exec (.gpioDebounce t pin level since) s = .next (s.put d)) ∧
      (d.start.powered = true → g.frozen = true ∨ d.clk.now < since + d.debounce i →
        exec (.gpioDebounce t pin level since) s = .next (s.put (d.onGpio i fun g => { g with raw := level }))) ∧
      (d.start.powered = true → g.frozen = false → since + d.debounce i ≤ d.clk.now →
        exec (.gpioDebounce t pin level since) s = .next (s.put ((d.onGpio i fun g => { g with raw := level, level := level }).gpioSync i)))) ∧
    (∀ n : Nat,
      (d.start.powered = true → g.frozen = false → d.chatterMax < n → exec (.gpioChatterCheck t pin n) s = .next (s.put
        ((d.onGpio i fun g => { g with frozen := true, frozenAt := d.clk.now, frozenBefore := false }).raise 6 0))) ∧
      (d.start.powered = false ∨ g.frozen = true ∨ n ≤ d.chatterMax → exec (.gpioChatterCheck t pin n) s = .next (s.put d))) ∧
    (∀ n : Nat,
      (d.start.powered = false ∨ g.frozen = false ∨ d.clk.now < g.frozenAt + 11 * sec → exec (.gpioReassess t pin n) s = .next (s.put d)) ∧
      (d.start.powered = true → g.frozen = true → g.frozenAt + 11 * sec ≤ d.clk.now →
        (d.chatterMax < n → exec (.gpioReassess t pin n) s = .next (s.put (d.onGpio i fun g => { g with frozenAt := d.clk.now }))) ∧
        (n ≤ d.chatterMax → exec (.gpioReassess t pin n) s = .next (s.put
          (((d.onGpio i fun g => { g with frozen := false, frozenBefore := false, level := g.raw }).raise 20 0).gpioSync i))))) ∧
    (g.activeAt = none → exec (.gpioStuck t pin) s = .next (s.put d)) ∧
    (∀ u, g.activeAt = some u →
      (d.start.powered = true → u + d.stuckTime ≤ d.clk.now → g.stuck = false → d.stuckTime ≠ 0 →
        exec (.gpioStuck t pin) s = .next (s.put ((d.onGpio i fun g => { g with stuck := true }).raise 7 0))) ∧
      (d.start.powered = false ∨ d.clk.now < u + d.stuckTime ∨ g.stuck = true ∨ d.stuckTime = 0 →
        exec (.gpioStuck t pin) s = .next (s.put d)))


/-! ## Keeper services (chapter 16) -/

/-- SPOOL_WRITE appends the oldest report to the spool and sends what the forward window admits (R339); a valid acknowledgement
moves the forward position, and any other datagram has no effect; records unacknowledged for their time are sent again, with
EV245 once at the eighth time (R342). A geofence without a fix for 3 s goes back to its first region (R345). A SYNC of a running
port that is no pure master makes it slave and feeds the domain that follows it (R346). -/
def Obligations.SpoolGeofencePtp : Prop :=
  ∀ (s : State) (t : Time),
    let d := s.seen t
    (d.domDown 1 = true ∨ d.keep.splIn = [] → exec (.spoolWrite t) s = .next (s.put d)) ∧
    (∀ x r, d.domDown 1 = false → d.keep.splIn = x :: r →
      let taken := d.onKeep fun k => { k with splIn := r }
      (x.rep = none → exec (.spoolWrite t) s = .next (s.put (taken.spoolSend taken.fwdWindow))) ∧
      (∀ m, x.rep = some m →
        let put := taken.spoolReport m x.data
        exec (.spoolWrite t) s = .next (s.put (put.spoolSend put.fwdWindow)))) ∧
    (∀ m : Bytes,
      let pos := fieldAt m 16 8
      let acked := d.onKeep fun k => { k with
        fwd := pos, sendNext := max k.sendNext pos, unacked := k.unacked.filter fun x => decide (pos < x.1 + x.2),
        fwdMoved := d.clk.now, timeouts := 0, stalled := false }
      (d.domDown 1 = true ∨ d.spoolAckOk m = false → exec (.spoolAckRx t m) s = .next (s.put d)) ∧
      (d.domDown 1 = false → d.spoolAckOk m = true →
        exec (.spoolAckRx t m) s = .next (s.put (acked.spoolWatch.mirrorPos.spoolSend acked.fwdWindow)))) ∧
    (d.forwards = false ∨ d.keep.unacked = [] ∨ d.clk.now < d.keep.fwdMoved + (d.keep.timeouts + 1) * d.fwdTimeout →
      exec (.spoolFwdTimeout t) s = .next (s.put d)) ∧
    (d.forwards = true → d.keep.unacked ≠ [] → d.keep.fwdMoved + (d.keep.timeouts + 1) * d.fwdTimeout ≤ d.clk.now →
      let again := d.onKeep fun k => { k with sendNext := k.fwd, unacked := [], timeouts := k.timeouts + 1 }
      (again.keep.timeouts < 8 ∨ again.keep.stalled = true → exec (.spoolFwdTimeout t) s = .next (s.put (again.spoolSend again.fwdWindow))) ∧
      (8 ≤ again.keep.timeouts → again.keep.stalled = false →
        let told := (again.onKeep fun k => { k with stalled := true }).raise 245 0
        exec (.spoolFwdTimeout t) s = .next (s.put (told.spoolSend told.fwdWindow)))) ∧
    (d.keeperUp = true → d.geoOn = true → d.keep.lastFix + 3 * sec ≤ d.clk.now → exec (.geoFixTimeout t) s = .next (s.put (d.geoReset true))) ∧
    (d.keeperUp = false ∨ d.geoOn = false ∨ d.clk.now < d.keep.lastFix + 3 * sec → exec (.geoFixTimeout t) s = .next (s.put d)) ∧
    (∀ (e : Fin 6) (off : Int),
      (d.keeperUp = false ∨ d.ptpRuns e.val = false ∨ d.ptpMode e.val = 1 → exec (.ptpSyncComplete t e off) s = .next (s.put d)) ∧
      (d.keeperUp = true → d.ptpRuns e.val = true → d.ptpMode e.val ≠ 1 →
        let slave := d.ptpSlave e.val
        let x : RefDom := if slave.cb Reg.KEEP_PTP_CTRL 30 then .b else .a
        (slave.cf Reg.KEEP_PTP_CTRL 29 27 ≠ e.val ∨ slave.refSrc x ≠ 2 → exec (.ptpSyncComplete t e off) s = .next (s.put slave)) ∧
        (slave.cf Reg.KEEP_PTP_CTRL 29 27 = e.val → slave.refSrc x = 2 → slave.Admits (Reg.LANT_DOM_FEED_HI (domIdx x)) →
          exec (.ptpSyncComplete t e off) s = .next (s.put (slave.feed x (BitVec.ofInt 64 off))))))

/-- MGMT_RX takes a datagram for this device on an open management path: one whose tag fails is counted, with EV240; a HELLO
waits for its answer; one of an earlier boot is answered STALE_NONCE; any other joins the queue as its counter allows (R349,
R350). HELLO answers the oldest one while the Keeper runs, and one with a body is answered BAD_OP. Each operation executes the
request at the head of the queue when it is its own: the answer goes out, an OK is counted, and a Log record of kind 7 is asked for
(R351); while degraded only reads and a restart run, and it has no effect on another's request. -/
def Obligations.ManagementRequests : Prop :=
  ∀ (s : State) (t : Time),
    let d := s.seen t
    (∀ m : Datagram,
      let q := mgmtReq m
      let ours : Prop := d.mgmtOn m = true ∧ d.mgmtForUs m.data = true
      (¬ ours → exec (.mgmtRx t m) s = .next (s.put d)) ∧
      (ours → d.mgmtTagOk m.data q.keyRead = false →
        exec (.mgmtRx t m) s = .next (s.put ((d.inc Reg.KEEP_MGMT_AUTH_FAIL_CNT).raise 240 0))) ∧
      (ours → d.mgmtTagOk m.data q.keyRead = true →
        (q.op = 1 → exec (.mgmtRx t m) s = .next (s.put (d.onKeep fun k => { k with hellos := k.hellos ++ [q] }))) ∧
        (q.op ≠ 1 → fieldAt m.data 16 8 ≠ d.keep.bootNonce.toNat →
          exec (.mgmtRx t m) s = .next (s.put (d.answer q mgStaleNonce (beBytes 8 d.keep.bootNonce.toNat)))) ∧
        (q.op ≠ 1 → fieldAt m.data 16 8 = d.keep.bootNonce.toNat → exec (.mgmtRx t m) s = .next (s.put (d.mgmtAccept q))))) ∧
    (d.keep.hellos = [] ∨ d.keeperUp = false → exec (.hello t) s = .next (s.put d)) ∧
    (∀ q rest, d.keep.hellos = q :: rest → d.keeperUp = true →
      let taken := d.onKeep fun k => { k with hellos := rest }
      let body := beBytes 2 0x0302 ++ beBytes 1 0xB1 ++ beBytes 1 taken.start.stage ++ beBytes 1 taken.twin.role ++ zeros 3
        ++ beBytes 8 taken.ll.devChar.toNat ++ beBytes 8 taken.lampNs
      (q.body = [] → exec (.hello t) s = .next (s.put ((taken.answer q mgOk body).inc Reg.KEEP_MGMT_OK_CNT))) ∧
      (q.body ≠ [] → exec (.hello t) s = .next (s.put (taken.answer q mgBadOp [])))) ∧
    (∀ x ∈ [(2, Instr.read t, mgRead), (3, .writeGuarded t, mgWrite), (4, .stageBegin t, mgStageBegin), (5, .stageData t, mgStageData),
        (6, .stageEnd t, mgStageEnd), (7, .reload t, mgReload), (8, .ladder t, mgLadder), (9, .logRead t, mgLogRead),
        (10, .charRead t, mgCharRead), (11, .restart t, mgRestart)],
      (d.keep.queue = [] ∨ d.keeperUp = false → exec x.2.1 s = .next (s.put d)) ∧
      (∀ q rest, d.keep.queue = q :: rest → d.keeperUp = true →
        let taken := d.onKeep fun k => { k with queue := rest }
        let barred := d.start.degraded = true ∧ readOp x.1 = false ∧ x.1 ≠ 11
        let done (r : MgResult) : Device :=
          let told := r.dev.answer q r.status r.body
          (if r.status = mgOk then told.inc Reg.KEEP_MGMT_OK_CNT else told).logReq 7 (mgmtRecord q r.status) true
        (q.op ≠ x.1 → exec x.2.1 s = .next (s.put d)) ∧
        (q.op = x.1 → barred → exec x.2.1 s = .next (s.put (done (taken.mgNo mgDegraded)))) ∧
        (q.op = x.1 → ¬ barred → exec x.2.1 s = .next (s.put (done (x.2.2 q taken))))))

/-! ## Events, the Log and the Tender (chapter 17) -/

/-- EV_PEND_CLEAR clears the pending bits written 1 of its word (R355), but for one that was set in the same cycle (R20).
LOG_COMMIT hands the buffer to the Log, or sets `error` while a commit is in progress; LOG_COMMIT_DONE stores the record in
progress and begins the next; LOG_SECOND_END raises EV027 with the requests above 31 of the second (R361, R362). -/
def Obligations.EventsAndLog : Prop :=
  ∀ (s : State) (t : Time),
    let d := s.seen t
    (∀ (i : Fin 8) (v : Word), d.Admits (Reg.KEEP_EV_PEND i) →
      ∃ w : Word, (∀ k, bitOf w k = (bitOf v k && !(d.cycle.sets.contains (32 * Reg.KEEP_EV_PEND i + k)))) ∧
        exec (.evPendClear t i v) s = .next (s.put (d.onEv fun e =>
          { e with pending := e.pending &&& ~~~ (BitVec.setWidth 256 w <<< (32 * i.val)) }))) ∧
    (d.Admits Reg.KEEP_LOG_CMD →
      (d.log.busy = true →
        exec (.logCommit t) s = .next (s.put ((d.onLog fun l => { l with error := true }).hwSet Reg.KEEP_LOG_STATUS 29))) ∧
      (d.log.busy = false → exec (.logCommit t) s = .next (s.put (d.logReq (fieldAt d.logBuffer 3 1) (slice d.logBuffer 24 228) true)))) ∧
    (d.log.cur = none → exec (.logCommitDone t) s = .next (s.put d)) ∧
    (∀ r, d.log.cur = some r → exec (.logCommitDone t) s = .next (s.put (d.onLog fun l => Log.pump ({ l with cur := none }.store r)))) ∧
    (d.log.reqs ≤ 31 → exec (.logSecondEnd t) s = .next (s.put d.logRoll)) ∧
    (31 < d.log.reqs → exec (.logSecondEnd t) s = .next (s.put (d.logRoll.raise 27 (w32 (d.log.reqs - 31)))))

/-- The watches and ladders. A kick restarts the periods of its mask's watches and ends the ladders it satisfies; a watch that
passes its period unkicked, its pauses left out, raises EV025 and starts its domain's ladder at its first step (R365). A ladder's
step runs when nothing holds it; one past its deadline has failed, and the next step is planned (R367 to R369). A request asks
for a step, and a halt is cleared with every watch's period begun again, by the ladder's command register. -/
def Obligations.WatchesAndLadders : Prop :=
  ∀ (s : State) (t : Time),
    let d := s.seen t
    (∀ mask : BitVec 16, d.Admits Reg.MOOR_WATCH_KICK →
      exec (.watchKick t mask) s = .next (s.put (((bitsOf mask 16).foldl (fun d w => d.onWatch w fun _ => ⟨d.clk.now, false, false, 0⟩) d).ladderReap))) ∧
    (∀ w : Fin 16,
      let kicked := s.pending.any (Instr.kicks t w)
      let late : Prop := d.watchPeriod w.val ≤ d.clk.now - (d.watch w.val).kicked - (d.watch w.val).paused
      let counts : Prop := d.start.powered = true ∧ d.watchOn w.val = true ∧ d.watchPaused w.val = false ∧ (d.watch w.val).expired = false
      (kicked = true ∨ ¬ counts ∨ ¬ late → exec (.watchExpiry t w) s = .next (s.put d)) ∧
      (kicked = false → counts → late →
        let told := (d.onWatch w.val fun x => { x with expired := true }).raise 25 (w32 w.val)
        exec (.watchExpiry t w) s = .next (s.put (told.ladderStart (told.watchDom w.val) (some w.val) (told.watchFirst w.val) 1)))) ∧
    (∀ n : Fin 10,
      (d.ladderOf n.val = none → exec (.ladderStep t n) s = .next (s.put d) ∧ exec (.ladderDeadline t n) s = .next (s.put d)) ∧
      (∀ l, d.ladderOf n.val = some l →
        let held : Prop := l.running = true ∨ d.start.resetLow.isSome = true ∨ d.pwr.tripped = true ∨ d.stepWaits l = true
        let isOver : Prop := l.running = true ∧ l.since + d.stepLimit l ≤ d.clk.now
        (held → exec (.ladderStep t n) s = .next (s.put d)) ∧
        (¬ held → exec (.ladderStep t n) s = .next (s.put (d.stepRun l))) ∧
        (¬ isOver → exec (.ladderDeadline t n) s = .next (s.put d)) ∧
        (isOver → exec (.ladderDeadline t n) s = .next (s.put
          ((d.onTender fun k => { k with lastResult := 2 }).ladderPlan { l with step := min 4 (l.step + 1), requested := false }))))) ∧
    (d.Admits Reg.MOOR_LADDER_CMD →
      (∀ n step : Nat,
        (d.ladderAsk 5 (n % 16) (step % 8) = none → exec (.ladderRequest t n step) s = .next (s.put d)) ∧
        (∀ d', d.ladderAsk 5 (n % 16) (step % 8) = some d' → exec (.ladderRequest t n step) s = .next (s.put d'))) ∧
      (d.tender.halted = false → exec (.ladderHaltClear t) s = .next (s.put d)) ∧
      (d.tender.halted = true → exec (.ladderHaltClear t) s = .next (s.put
        (((List.range 16).foldl (fun d w => d.onWatch w fun _ => ⟨d.clk.now, false, false, 0⟩) d).onTender fun k => { k with halted := false }))))

/-! ## Test and debug (chapter 18) -/

/-- The TAP. EXTEST, CLAMP and HIGHZ drive the pins only while the debug unit is unlocked or RESET_N is low, and act as BYPASS
otherwise; SAMPLE/PRELOAD captures without driving; IDCODE shifts the identification code out; every other code is BYPASS (R371).
What the boundary register captures is not stated (log 2). DBG_CHAL shifts a challenge out and keeps it, or zeros while unlocked
or blocked; DBG_RESP, BYPASS while unlocked, unlocks with the answer to the challenge, with EV029, and any other answer counts
the failure, with EV030, and blocks for 1 s doubled with each failure up to 4,096 s; a block ends in its time; RELOCK locks
(R372). -/
def Obligations.TapAndDebugLock : Prop :=
  ∀ (s : State) (t : Time),
    let d := s.seen t
    let may : Prop := d.dbg.unlocked = true ∨ d.start.resetLow.isSome = true
    let bypassed := (d.onDbg fun k => { k with ir := 0x1F, drive := 0 }).emit (.tap 0)
    (∀ bits : Nat,
      (may → ∃ x, exec (.extest t bits) s = .next (s.put (((d.onDbg fun k => { k with ir := 0x00, drive := 1, boundary := bits }).emit (.tap x)).freeNext))) ∧
      (¬ may → exec (.extest t bits) s = .next (s.put bypassed)) ∧
      (∃ x, exec (.samplePreload t bits) s = .next (s.put (((d.onDbg fun k => { k with ir := 0x01, drive := 0, boundary := bits }).emit (.tap x)).freeNext)))) ∧
    exec (.idcode t) s = .next (s.put ((d.onDbg fun k => { k with ir := 0x02, drive := 0 }).emit (.tap 0x2D33809D))) ∧
    (may → exec (.clamp t) s = .next (s.put ((d.onDbg fun k => { k with ir := 0x03, drive := 1 }).emit (.tap 0))) ∧
      exec (.highz t) s = .next (s.put ((d.onDbg fun k => { k with ir := 0x04, drive := 2 }).emit (.tap 0)))) ∧
    (¬ may → exec (.clamp t) s = .next (s.put bypassed) ∧ exec (.highz t) s = .next (s.put bypassed)) ∧
    (∀ code : BitVec 5, exec (.bypass t code) s = .next (s.put bypassed)) ∧
    (∀ random : Block,
      let picked := d.onDbg fun k => { k with ir := 0x10, drive := 0 }
      (d.dbg.unlocked = true ∨ d.dbgBlocked = true → exec (.dbgChal t random) s = .next (s.put (picked.emit (.tap 0)))) ∧
      (d.dbg.unlocked = false → d.dbgBlocked = false → exec (.dbgChal t random) s = .next (s.put
        ((picked.onDbg fun k => { k with challenge := some (random, d.clk.now) }).emit (.tap random.toNat))))) ∧
    (∀ response : Block,
      let sel := d.onDbg fun k => { k with ir := 0x11, drive := 0 }
      let f := min 255 (d.dbg.failRun + 1)
      let ends := d.clk.now + min 4096 (2 ^ (f - 1)) * sec
      (d.dbg.unlocked = true → exec (.dbgResp t response) s = .next (s.put bypassed)) ∧
      (d.dbg.unlocked = false → sel.dbgBlocked = true → exec (.dbgResp t response) s = .next (s.put sel)) ∧
      (d.dbg.unlocked = false → sel.dbgBlocked = false → sel.dbgMatch response = true → exec (.dbgResp t response) s = .next (s.put
        (((sel.onDbg fun k => { k with unlocked := true, failRun := 0, challenge := none, blocked := none }).raise 29 0).dbgRecord 0))) ∧
      (d.dbg.unlocked = false → sel.dbgBlocked = false → sel.dbgMatch response = false → exec (.dbgResp t response) s = .next (s.put
        (((sel.onDbg fun k => { k with failRun := f, challenge := none, blocked := some ends }).raise 30 (w32 f)).dbgRecord 1)))) ∧
    (d.dbgBlocked = true → exec (.dbgBlockExpiry t) s = .next (s.put d)) ∧
    (d.dbgBlocked = false → exec (.dbgBlockExpiry t) s = .next (s.put (d.onDbg fun k => { k with blocked := none }))) ∧
    (d.dbg.unlocked = true → exec (.dbgRelock t) s = .next (s.put ((d.onDbg fun k => { k with unlocked := false }).dbgRecord 2))) ∧
    (d.dbg.unlocked = false → exec (.dbgRelock t) s = .next (s.put d))

/-- An unlocked debug unit. An access to a debug register or over the system bus answers OK with its data, to any other target an
error; a core that runs is halted by a request, a step, an enabled breakpoint and a watchpoint, with EV031, and resumes by a
request. While it is locked an access is BYPASS and a request has no effect (R373). What the program counter then holds is not
stated (log 2). -/
def Obligations.DebugAccess : Prop :=
  ∀ (s : State) (t : Time),
    let d := s.seen t
    let bypassed := (d.onDbg fun k => { k with ir := 0x1F, drive := 0 }).emit (.tap 0)
    (∀ (target : BitVec 6) (addr data : Word), s.dev.dbgHole target addr = false →
      (d.dbg.unlocked = false →
        exec (.dbgAccessRead t target addr) s = .next (s.put bypassed) ∧ exec (.dbgAccessWrite t target addr data) s = .next (s.put bypassed)) ∧
      (d.dbg.unlocked = true →
        (target = 0 →
          exec (.dbgAccessRead t target addr) s = .next (s.put (d.accCapture.accDone 0 (d.accCapture.dbgRead (addr.toNat % 0x10000)))) ∧
          exec (.dbgAccessWrite t target addr data) s = .next (s.put ((d.accCapture.dbgWrite (addr.toNat % 0x10000) data).accDone 0 data))) ∧
        (target = 1 →
          exec (.dbgAccessRead t target addr) s = .next (s.put ((d.accCapture.sysRead addr.toNat).2.accDone 0 (d.accCapture.sysRead addr.toNat).1)) ∧
          exec (.dbgAccessWrite t target addr data) s = .next (s.put ((registerWrite 6 addr.toNat 4 data d.accCapture).accDone 0 data))) ∧
        (2 ≤ target.toNat →
          exec (.dbgAccessRead t target addr) s = .next (s.put (d.accCapture.accDone 2 0)) ∧
          exec (.dbgAccessWrite t target addr data) s = .next (s.put (d.accCapture.accDone 2 0))))) ∧
    (∀ n : Fin 4,
      let c := d.core n.val
      let runs : Prop := d.coresRun = true ∧ c.halted = false
      (d.dbg.unlocked = false → exec (.dbgHalt t n) s = .next (s.put d) ∧ exec (.dbgResume t n) s = .next (s.put d) ∧ exec (.dbgStep t n) s = .next (s.put d)) ∧
      (d.dbg.unlocked = true →
        exec (.dbgResume t n) s = .next (s.put ((d.onCore n.val fun c => { c with halted := false, reason := 0 }).haltOver)) ∧
        (runs → ∃ pc, exec (.dbgHalt t n) s = .next (s.put (d.coreHalt n.val 1 pc).freeNext)) ∧
        (¬ runs → exec (.dbgHalt t n) s = .next (s.put d)) ∧
        (d.coresRun = true → c.halted = true → ∃ pc, exec (.dbgStep t n) s = .next (s.put (d.coreHalt n.val 2 pc).freeNext)) ∧
        (d.coresRun = false ∨ c.halted = false → exec (.dbgStep t n) s = .next (s.put d))) ∧
      (∀ i : Fin 4,
        let bp := c.bp.get 0 i.val
        (bitOf bp 0 = true → runs → exec (.dbgBreakpoint t n i) s = .next (s.put (d.coreHalt n.val 3 (bp &&& 0xFFFFFFFC)))) ∧
        (bitOf bp 0 = false ∨ ¬ runs → exec (.dbgBreakpoint t n i) s = .next (s.put d))) ∧
      (∀ (addr : Word) (write : Bool),
        let seen : Prop := c.watches 0 addr write = true ∨ c.watches 1 addr write = true
        (seen → runs → ∃ pc, exec (.dbgWatchpoint t n addr write) s = .next (s.put (d.coreHalt n.val 4 pc).freeNext)) ∧
        (¬ seen ∨ ¬ runs → exec (.dbgWatchpoint t n addr write) s = .next (s.put d))))

/-! ## Rules as the specification states them -/

/-- KEEP_EV_HEAD_0 to _3 show the head entry of the event queue, and read 0 when it is empty; EV_POP removes the head entry
(R357). Where an OVERFLOW entry was formed in the cycle of the pop, the entries it stands for follow as the room allows (R20). -/
def Obligations.EventQueueHead : Prop :=
  ∀ (s : State) (t : Time),
    let d := s.seen t
    (∀ i, i < 4 → d.ev.queue = [] → d.peek (Reg.KEEP_EV_HEAD i) = 0) ∧
    (∀ i x rest, i < 4 → d.ev.queue = x :: rest → d.peek (Reg.KEEP_EV_HEAD i) = w32 (fieldAt x.bytes (4 * i) 4)) ∧
    (d.Admits Reg.KEEP_EV_POP →
      exec (.evPop t) s = .next (s.put d.evDrop) ∧
      (d.cycle.lost = [] → d.ev.queue = [] → exec (.evPop t) s = .next (s.put d)) ∧
      (∀ x rest, d.cycle.lost = [] → d.ev.queue = x :: rest → exec (.evPop t) s = .next (s.put (d.onEv fun e => { e with queue := rest }))) ∧
      (∀ x y rest, d.cycle.formed = false → d.ev.queue = x :: y :: rest →
        exec (.evPop t) s = .next (s.put (d.onEv fun e => { e with queue := y :: rest }))))

/-- An entry whose valid bit is 0 is live in no generation, so no lookup of a packet of any generation finds it; TBL_CLEAR puts
the bit to 0 in the entry at its index, from the next cycle on for every packet, those in flight as well (R188). -/
def Obligations.ClearedEntriesAreLiveInNoGeneration : Prop :=
  (∀ (e : Entry) (g : Nat), e.valid = false → e.live g = false) ∧
  (∀ (entry : Nat → Entry) (gen ty key : Nat) (places : List Nat) (i : Nat) (e : Entry),
    probe entry gen ty key places = some (i, e) → i ∈ places ∧ e = entry i ∧ e.valid = true) ∧
  (∀ (s : State) (t : Time) (n : Fin 4) (i : BitVec 15),
    let d := s.seen t
    d.Admits Reg.PKT_TBL_CMD → d.pkt.tblBusy = false → i.toNat < tblSize n.val →
      ∃ (e : Entry) (before : Cycle → Cycle), e.valid = false ∧ (∀ c, ∃ l, before c = { c with tables := l }) ∧
        exec (.tblClear t n i) s = .next (s.put ((d.onCycle before).onPkt fun p => p.setEntry n.val i.toNat e)) ∧
        ∀ later, d.clk.now < later →
          ((s.put ((d.onCycle before).onPkt fun p => p.setEntry n.val i.toNat e)).seen later).entrySeen n.val i.toNat = e)

/-- A packet of B bytes occupies ceil(B ÷ 256) cells of 256 bytes: so many are taken when it is queued, and so many given back
when it has left. The on-chip buffer holds 49,152 cells and the overflow region of DRAM 4,194,304: a packet that would need more
is refused. A packet newly put in a link queue goes to DRAM while on-chip occupancy is at or above spill_level, by default 36,864;
one of a port queue never does. A link queue keeps its first 4 descriptors in its link's hot context and the rest in DRAM. EV151 is
raised when spilling starts (R193). -/
def Obligations.PacketsOccupyCells : Prop :=
  ∀ (d : Device) (k : Nat) (x : QPkt) (col : Colour) (dp : Nat),
    let c := (x.data.length + 255) / 256
    x.cells = c ∧
    (d.spills k = true ↔ 72 ≤ k ∧ d.cf Reg.PKT_BUF_CTRL 15 0 ≤ d.pkt.cells) ∧
    State.reset.dev.cf Reg.PKT_BUF_CTRL 15 0 = 36864 ∧
    (d.spills k = true → (d.qPush k x).pkt.dramCells = d.pkt.dramCells + c ∧ (d.qPush k x).pkt.cells = d.pkt.cells) ∧
    (d.spills k = false → (d.qPush k x).pkt.cells = d.pkt.cells + c ∧ (d.qPush k x).pkt.dramCells = d.pkt.dramCells) ∧
    (x.dram = false → (d.freeCells x).pkt.cells = d.pkt.cells - c ∧ (d.freeCells x).pkt.dramCells = d.pkt.dramCells) ∧
    (x.dram = true → (d.freeCells x).pkt.dramCells = d.pkt.dramCells - c ∧ (d.freeCells x).pkt.cells = d.pkt.cells) ∧
    (d.spills k = false → 49152 < d.pkt.cells + c → d.qRefusal k x col dp ≠ none) ∧
    (d.spills k = true → 4194304 < d.pkt.dramCells + c → d.qRefusal k x col dp ≠ none) ∧
    (∀ q : Queue, q.hotDescs.length ≤ 4 ∧ (q.dramDescs ≠ [] → q.hotDescs.length = 4) ∧ q.hotDescs ++ q.dramDescs = q.pkts) ∧
    (d.pkt.spilling = false → (d.qPush k x).pkt.spilling = true → ∃ before : Device, d.qPush k x = before.raise 151 0)

/-- After a match of a code, that code does not match again for 1 s; the Bell ignores its input while Radio L's PA_EN is asserted
(R135). BELL_MATCH completes in every case: while the Bell ignores its input, with the power down and where no code is matched
it has no effect, and a match is kept with its instant. -/
def Obligations.ACodeMatchesOnceInASecond : Prop :=
  ∀ (s : State) (t : Time) (code : Word),
    let d := s.seen t
    let deaf : Prop := d.start.powered = false ∨ (d.domDown 3 = false ∧ bitOf (d.rad.l.pinsAt d.clk.now) 0 = true)
    (deaf ∨ d.bellHit code = none → exec (.bellMatch t code) s = .next (s.put d)) ∧
    (∀ i, ¬ deaf → d.bellHit code = some i →
      ∃ d', exec (.bellMatch t code) s = .next (s.put d') ∧ d'.pwr.bellAt.find? (fun x => x.1 == i) = some (i, d.clk.now) ∧
        d'.cnt Reg.MOOR_BELL_MATCH_CNT = (d.inc Reg.MOOR_BELL_MATCH_CNT).cnt Reg.MOOR_BELL_MATCH_CNT) ∧
    (∀ i u, d.pwr.bellAt.find? (fun x => x.1 == i) = some (i, u) → d.clk.now < u + sec → d.bellHit code ≠ some i)

/-! ## The cipher's own laws -/

/-- A counter that a replay window has taken never passes it again, whatever counters pass after it (the sense of R154). -/
def Obligations.NoCounterPassesTwice : Prop :=
  ∀ (w : RWin) (c : Nat) (later : List Nat), w.passes c = true →
    ((later.foldl (fun w c => if w.passes c then w.take c else w) (w.take c)).passes c) = false

/-- CTR is its own inverse: what is encrypted under a key and a counter block, decrypted under them, is the body (R149). -/
def Obligations.CtrDecryptsWhatItEncrypts : Prop :=
  ∀ (key : Block) (ctr m : Bytes), ctrCrypt key ctr (ctrCrypt key ctr m) = m
end

