-- ==== Sys2Proof/Laws/Memory.lean ====
section
/-! SUPPORT. The memory list keeps its canonical form: addresses strictly rising, no entry equal to what an unlisted
address reads as (log 11). -/

namespace Sys2Proof.Machine

theorem Tab.wfFrom_mono {α : Type} [DecidableEq α] {f : Nat → α} : ∀ {t : Tab α} {a b : Nat}, a ≤ b → Tab.wfFrom b f t = true → Tab.wfFrom a f t = true
  | [], _, _, _, _ => rfl
  | (k, v) :: r, a, b, h, w => by
    simp only [Tab.wfFrom, Bool.and_eq_true, decide_eq_true_eq] at w ⊢
    exact ⟨⟨Nat.le_trans h w.1.1, w.1.2⟩, w.2⟩

theorem Tab.wfFrom_del {α : Type} [DecidableEq α] {f : Nat → α} (k : Nat) : ∀ {t : Tab α} {a : Nat}, Tab.wfFrom a f t = true → Tab.wfFrom a f (Tab.del t k) = true
  | [], _, w => w
  | (k', v) :: r, a, w => by
    have w' := w
    simp only [Tab.wfFrom, Bool.and_eq_true, decide_eq_true_eq] at w
    unfold Tab.del
    split
    · exact Tab.wfFrom_mono (Nat.le_succ_of_le w.1.1) w.2
    · simp only [Tab.wfFrom, Bool.and_eq_true, decide_eq_true_eq]
      exact ⟨w.1, Tab.wfFrom_del k w.2⟩

theorem Tab.wfFrom_put {α : Type} [DecidableEq α] {f : Nat → α} (k : Nat) (v : α) (hv : v ≠ f k) : ∀ {t : Tab α} {a : Nat}, a ≤ k → Tab.wfFrom a f t = true → Tab.wfFrom a f (Tab.put t k v) = true
  | [], a, h, _ => by simp [Tab.put, Tab.wfFrom, h, hv]
  | (k', v') :: r, a, h, w => by
    have w' := w
    simp only [Tab.wfFrom, Bool.and_eq_true, decide_eq_true_eq] at w
    unfold Tab.put
    split
    · rename_i c
      simp only [Tab.wfFrom, Bool.and_eq_true, decide_eq_true_eq]
      exact ⟨⟨h, hv⟩, ⟨c, w.1.2⟩, w.2⟩
    · split
      · rename_i c e
        simp only [Tab.wfFrom, Bool.and_eq_true, decide_eq_true_eq]
        exact ⟨⟨h, hv⟩, e ▸ w.2⟩
      · rename_i c e
        simp only [Tab.wfFrom, Bool.and_eq_true, decide_eq_true_eq]
        exact ⟨w.1, Tab.wfFrom_put k v hv (by omega) w.2⟩

theorem Tab.wf_set {α : Type} [DecidableEq α] (dflt : α) (t : Tab α) (k : Nat) (v : α) (w : Tab.wf dflt t = true) : Tab.wf dflt (Tab.set t dflt k v) = true := by
  unfold Tab.set; split
  · exact Tab.wfFrom_del k w
  · rename_i h; exact Tab.wfFrom_put k v h (Nat.zero_le _) w

theorem writeByte_wf (m : List Host.Cell) (a : Nat) (v : Byte) (w : Memory.wf m = true) : Memory.wf (writeByte m a v) = true :=
  Tab.wf_set 0 m a v w

theorem writeBytes_wf : ∀ (l : Bytes) (m : List Host.Cell) (a : Nat), Memory.wf m = true → Memory.wf (writeBytes m a l) = true
  | [], _, _, w => w
  | v :: r, m, a, w => writeBytes_wf r _ _ (writeByte_wf m a v w)

theorem Tab.wfFrom_filter {α : Type} [DecidableEq α] {f : Nat → α} (p : Nat × α → Bool) : ∀ {t : Tab α} {a : Nat}, Tab.wfFrom a f t = true → Tab.wfFrom a f (t.filter p) = true
  | [], _, w => w
  | (k, v) :: r, a, w => by
    simp only [Tab.wfFrom, Bool.and_eq_true, decide_eq_true_eq] at w
    rw [List.filter_cons]
    split
    · simp only [Tab.wfFrom, Bool.and_eq_true, decide_eq_true_eq]; exact ⟨w.1, Tab.wfFrom_filter p w.2⟩
    · exact Tab.wfFrom_mono (Nat.le_succ_of_le w.1.1) (Tab.wfFrom_filter p w.2)

theorem Memory.wf_filter (p : Host.Cell → Bool) (m : List Host.Cell) (w : Memory.wf m = true) : Memory.wf (m.filter p) = true :=
  Tab.wfFrom_filter p w

end Sys2Proof.Machine
end

