-- ==== Sys2Proof/Laws/Kept.lean ====
section
/-! SUPPORT. What every operation keeps (`Device.Kept`): the instant that `begin` sets, the OTP contents and the
bound of the event queue, and what `Q` says of memory. One lemma says it for each operation; here are those of `Machine/Ops.lean`. -/

-- One theorem at a time: in the package as one text many would otherwise wait at once, each on a thread of its own.
set_option Elab.async false

namespace Sys2Proof.Machine

/-- What every operation but `begin` keeps: the instant, the OTP contents, where `S` holds the bound of the event queue,
and what `Q` says of the memory list: any `Q` where the operation stores nothing, a `Q` that stores respect
(`MemClosed`) where it may. -/
def Device.Kept (S : Prop) (Q : List Host.Cell → Prop) (c : Nat) (k : Otp) (d : Device) : Prop :=
  d.clk.now = c ∧ d.otp = k ∧ Q d.mem.bytes ∧ (S → d.ev.Bound)

/-- Every way in which the device changes its memory list respects `Q`. -/
def MemClosed (Q : List Host.Cell → Prop) : Prop :=
  Q [] ∧ (∀ m a b, Q m → Q (writeBytes m a b)) ∧ ∀ (p : Host.Cell → Bool) m, Q m → Q (m.filter p)

variable {S : Prop} {Q : List Host.Cell → Prop} {c : Nat} {k : Otp} {d : Device}

theorem kept_mk {regs doms rad lant time ciph pkt lanes cv ll start twin pwr keep log tender dbg cycle free out} :
    (Device.mk d.clk regs doms rad lant time ciph pkt lanes d.mem cv ll start twin pwr keep d.ev log tender dbg d.otp cycle free out).Kept S Q c k ↔ d.Kept S Q c k := Iff.rfl

theorem kept_mk_clk {lr lf rf regs doms rad lant time ciph pkt lanes cv ll start twin pwr keep log tender dbg cycle free out} :
    (Device.mk ⟨d.clk.now, lr, lf, rf⟩ regs doms rad lant time ciph pkt lanes d.mem cv ll start twin pwr keep d.ev log tender dbg d.otp cycle free out).Kept S Q c k ↔ d.Kept S Q c k := Iff.rfl

theorem onLant_kept {f} (h : d.Kept S Q c k) : (d.onLant f).Kept S Q c k := h
theorem onTime_kept {f} (h : d.Kept S Q c k) : (d.onTime f).Kept S Q c k := h
theorem onCiph_kept {f} (h : d.Kept S Q c k) : (d.onCiph f).Kept S Q c k := h
theorem onPkt_kept {f} (h : d.Kept S Q c k) : (d.onPkt f).Kept S Q c k := h
theorem onLanes_kept {f} (h : d.Kept S Q c k) : (d.onLanes f).Kept S Q c k := h
theorem onRng_kept {f} (h : d.Kept S Q c k) : (d.onRng f).Kept S Q c k := h
theorem onLL_kept {f} (h : d.Kept S Q c k) : (d.onLL f).Kept S Q c k := h
theorem onStart_kept {f} (h : d.Kept S Q c k) : (d.onStart f).Kept S Q c k := h
theorem onTwin_kept {f} (h : d.Kept S Q c k) : (d.onTwin f).Kept S Q c k := h
theorem onPwr_kept {f} (h : d.Kept S Q c k) : (d.onPwr f).Kept S Q c k := h
theorem onKeep_kept {f} (h : d.Kept S Q c k) : (d.onKeep f).Kept S Q c k := h
theorem onLog_kept {f} (h : d.Kept S Q c k) : (d.onLog f).Kept S Q c k := h
theorem onTender_kept {f} (h : d.Kept S Q c k) : (d.onTender f).Kept S Q c k := h
theorem onDbg_kept {f} (h : d.Kept S Q c k) : (d.onDbg f).Kept S Q c k := h
theorem onRelay_kept {f} (h : d.Kept S Q c k) : (d.onRelay f).Kept S Q c k := h
theorem onRad_kept {b f} (h : d.Kept S Q c k) : (d.onRad b f).Kept S Q c k := h
theorem onDom_kept {n f} (h : d.Kept S Q c k) : (d.onDom n f).Kept S Q c k := h
theorem onClient_kept {n f} (h : d.Kept S Q c k) : (d.onClient n f).Kept S Q c k := h
theorem onLink_kept {n f} (h : d.Kept S Q c k) : (d.onLink n f).Kept S Q c k := h
theorem onQueue_kept {n f} (h : d.Kept S Q c k) : (d.onQueue n f).Kept S Q c k := h
theorem onCycle_kept {f} (h : d.Kept S Q c k) : (d.onCycle f).Kept S Q c k := h
theorem noteInc_kept {a b n} (h : d.Kept S Q c k) : (d.noteInc a b n).Kept S Q c k := h
theorem hwSet_kept {a i} (h : d.Kept S Q c k) : (d.hwSet a i).Kept S Q c k := h
theorem incRead_kept {a} (h : d.Kept S Q c k) : (d.incRead a).Kept S Q c k := h
theorem uncount_kept {a} (h : d.Kept S Q c k) : (d.uncount a).Kept S Q c k := h
theorem setCfg_kept {a v} (h : d.Kept S Q c k) : (d.setCfg a v).Kept S Q c k := h
theorem addCnt_kept {a n m} (h : d.Kept S Q c k) : (d.addCnt a n m).Kept S Q c k := h
theorem inc_kept {a} (h : d.Kept S Q c k) : (d.inc a).Kept S Q c k := h
theorem inc16_kept {a} (h : d.Kept S Q c k) : (d.inc16 a).Kept S Q c k := h
theorem emit_kept {o} (h : d.Kept S Q c k) : (d.emit o).Kept S Q c k := h
theorem freeNext_kept (h : d.Kept S Q c k) : (d.freeNext).Kept S Q c k := h
theorem logReq_kept {a b w} (h : d.Kept S Q c k) : (d.logReq a b w).Kept S Q c k := h
theorem logExempt_kept {a b w} (h : d.Kept S Q c k) : (d.logExempt a b w).Kept S Q c k := h
theorem logRoll_kept (h : d.Kept S Q c k) : (d.logRoll).Kept S Q c k := h
theorem evMark_kept {n} (h : d.Kept S Q c k) : (d.evMark n).Kept S Q c k := h

theorem onMem_kept {f : Mem → Mem} (hf : Q d.mem.bytes → Q (f d.mem).bytes) (h : d.Kept S Q c k) : (d.onMem f).Kept S Q c k :=
  ⟨h.1, h.2.1, hf h.2.2.1, h.2.2.2⟩

theorem onEv_kept {f : Events → Events}
    (hf : d.ev.queue.length ≤ 1024 → (d.ev.overflowHeld = false → d.ev.queue.length ≤ 1023) →
      (f d.ev).queue.length ≤ 1024 ∧ ((f d.ev).overflowHeld = false → (f d.ev).queue.length ≤ 1023))
    (h : d.Kept S Q c k) : (d.onEv f).Kept S Q c k :=
  ⟨h.1, h.2.1, h.2.2.1, fun s => hf (h.2.2.2 s).1 (h.2.2.2 s).2⟩

/-- An event update that leaves the queue as it is. -/
theorem onEv_queue_kept {f : Events → Events} (hf : (f d.ev).queue = d.ev.queue) (h : d.Kept S Q c k) : (d.onEv f).Kept S Q c k :=
  onEv_kept (by unfold Events.overflowHeld; rw [hf]; exact fun a b => ⟨a, b⟩) h

/-- An event update that empties the queue. -/
theorem onEv_clear_kept {f : Events → Events} (hf : (f d.ev).queue = []) (h : d.Kept S Q c k) : (d.onEv f).Kept S Q c k :=
  onEv_kept (by rw [hf]; exact fun _ _ => ⟨Nat.zero_le _, fun _ => Nat.zero_le _⟩) h

theorem ite_kept {p : Prop} [Decidable p] {x y : Device} (hx : x.Kept S Q c k) (hy : y.Kept S Q c k) : (if p then x else y).Kept S Q c k := by
  split
  · exact hx
  · exact hy

theorem foldl_kept {α : Type} {g : Device → α → Device} {l : List α} (hg : ∀ d a, d.Kept S Q c k → (g d a).Kept S Q c k) : ∀ {d : Device}, d.Kept S Q c k → (l.foldl g d).Kept S Q c k := by
  induction l with
  | nil => exact fun h => h
  | cons a r ih => exact fun h => ih (hg _ _ h)

theorem bumpLast_length (l : List EvEntry) : (bumpLast l).length = l.length := by
  fun_induction bumpLast l <;> simp_all
theorem bumpLast_kind (l : List EvEntry) : ((bumpLast l).getLast?).map EvEntry.kind = (l.getLast?).map EvEntry.kind := by
  fun_induction bumpLast l with
  | case1 => rfl
  | case2 x => rfl
  | case3 x r h ih =>
    cases r with
    | nil => exact absurd rfl h
    | cons y r =>
      have : bumpLast (y :: r) ≠ [] := by
        intro e; have := congrArg List.length e; simp [bumpLast_length] at this
      rw [List.getLast?_cons_of_ne_nil this, ih]; simp [List.getLast?_cons]

theorem overflowHeld_iff (e : Events) : e.overflowHeld = decide ((e.queue.getLast?).map EvEntry.kind = some 1) := by
  unfold Events.overflowHeld
  cases e.queue.getLast? <;> simp

theorem evPush_kept {x : EvEntry} (h : d.Kept S Q c k) : (d.evPush x).Kept S Q c k := by
  unfold Device.evPush; dsimp only
  split
  · rename_i o
    refine onEv_kept (d := d.onCycle _) (fun hl _ => ⟨?_, ?_⟩) (onCycle_kept h)
    · simpa [bumpLast_length] using hl
    · intro e
      rw [overflowHeld_iff] at e o
      simp only [bumpLast_kind] at e
      change decide (Option.map EvEntry.kind d.ev.queue.getLast? = some 1) = false at e
      rw [o] at e; exact absurd e (by decide)
  · split
    · exact onEv_kept (fun _ _ => by simp; omega) h
    · rename_i o _
      refine evMark_kept (onEv_kept (d := d.onCycle _) (fun _ hf => ⟨?_, ?_⟩) (onCycle_kept h))
      · have := hf (by simpa [Device.onCycle] using o); simp; omega
      · intro e; simp [Events.overflowHeld, EvEntry.overflow] at e
theorem evDrop_kept {d : Device} (h : d.Kept S Q c k) : d.evDrop.Kept S Q c k := by
  have hd : (d.ev.queue.drop 1).length ≤ d.ev.queue.length - 1 := by simp
  unfold Device.evDrop; dsimp only
  split
  · split
    · refine onEv_kept (d := d.onCycle _) (fun hl _ => ⟨?_, fun e => ?_⟩) (onCycle_kept h)
      · have hl' : d.ev.queue.length ≤ 1024 := hl
        simp [Device.onCycle]; omega
      · simp [Events.overflowHeld, EvEntry.overflow] at e
    · refine onEv_kept (d := d.onCycle _) (fun hl _ => ?_) (onCycle_kept h)
      have hl' : d.ev.queue.length ≤ 1024 := hl
      simp [Device.onCycle]; omega
  · split
    · exact foldl_kept (fun _ _ h => evPush_kept h) (onEv_clear_kept rfl (onCycle_kept h))
    · refine onEv_kept (fun hl hf => ?_) h
      cases e : d.ev.queue with
      | nil => simp
      | cons a r =>
        rw [e] at hl; simp at hl
        exact ⟨by simp; omega, fun _ => by simp; omega⟩

theorem evEntry_kept {d : Device} {x : EvEntry} {logIt : Bool} (hd : d.Kept S Q c k) : (Device.evEntry d x logIt).Kept S Q c k := by
  unfold Device.evEntry; try dsimp only
  repeat' first | with_reducible assumption | with_reducible apply evPush_kept | with_reducible apply logReq_kept | split

theorem evAccept_kept {d : Device} {ev : Nat} {detail : Word} {logIt : Bool}
    (hd : d.Kept S Q c k) : (Device.evAccept d ev detail logIt).Kept S Q c k := by
  unfold Device.evAccept; try dsimp only
  repeat' first | with_reducible assumption | with_reducible apply evEntry_kept | with_reducible apply evMark_kept | split

theorem raise_kept {d : Device} {ev : Nat} {detail : Word} (hd : d.Kept S Q c k) : (Device.raise d ev detail).Kept S Q c k := by
  unfold Device.raise; try dsimp only
  repeat' first
    | with_reducible assumption | with_reducible apply evAccept_kept | with_reducible apply evMark_kept
    | with_reducible apply onEv_queue_kept | rfl | split

theorem logSecond_kept {d : Device} (hd : d.Kept S Q c k) : (Device.logSecond d).Kept S Q c k := by
  unfold Device.logSecond; try dsimp only
  repeat' first | with_reducible assumption | with_reducible apply logRoll_kept | with_reducible apply raise_kept | split

theorem raiseRad_kept {d : Device} {b : Band} {off : Nat} {detail : Word} (hd : d.Kept S Q c k) : (Device.raiseRad d b off detail).Kept S Q c k := by
  unfold Device.raiseRad; try dsimp only
  repeat' first | with_reducible assumption | with_reducible apply raise_kept

theorem access_kept {req addr width : Nat} {f : Device → Device}
    (hf : (f d).Kept S Q c k) (hd : d.Kept S Q c k) : (d.access req addr width f).Kept S Q c k := by
  unfold Device.access; split
  · exact raise_kept hd
  · exact hf

theorem keeperAccess_kept {addr : Nat} {f : Device → Device}
    (hf : (f d).Kept S Q c k) (hd : d.Kept S Q c k) : (d.keeperAccess addr f).Kept S Q c k := access_kept hf hd

end Sys2Proof.Machine
end

