-- ==== Sys2Proof/Laws/KeptRadio.lean ====
section
/-! SUPPORT. What every operation keeps: the packet engine, the queues, the radios and the timebase. -/

-- One theorem at a time: in the package as one text many would otherwise wait at once, each on a thread of its own.
set_option Elab.async false

namespace Sys2Proof.Machine

variable {S : Prop} {Q : List Host.Cell → Prop} {c : Nat} {k : Otp} {d : Device}

theorem lookup_kept {d : Device} {t : Nat} {gen : Nat} {ty : Nat} {key : Bytes} {x0 : Option Entry} {rr : Device}
    (e : (Device.lookup d t gen ty key) = (x0, rr)) (hd : d.Kept S Q c k) : rr.Kept S Q c k := by
  unfold Device.lookup at e; try dsimp only at e
  repeat' split at e
  all_goals first | (cases e; done) | (cases e; (repeat' first | with_reducible assumption | with_reducible apply onCycle_kept | with_reducible apply onPkt_kept); done)

theorem lookup_kept2 {d : Device} {t : Nat} {gen : Nat} {ty : Nat} {key : Bytes}
    (hd : d.Kept S Q c k) : (Device.lookup d t gen ty key).2.Kept S Q c k := lookup_kept (rr := (Device.lookup d t gen ty key).2) rfl hd

theorem tblStore_kept {d : Device} {t : Nat} {i : Nat} {e0 : Entry} (hd : d.Kept S Q c k) : (Device.tblStore d t i e0).Kept S Q c k := by
  unfold Device.tblStore; try dsimp only
  repeat' first | with_reducible assumption | with_reducible apply onCycle_kept | with_reducible apply onPkt_kept

theorem spillUpdate_kept {d : Device} (hd : d.Kept S Q c k) : (Device.spillUpdate d).Kept S Q c k := by
  unfold Device.spillUpdate; try dsimp only
  repeat' first | with_reducible assumption | with_reducible apply onPkt_kept | with_reducible apply raise_kept | split

theorem freeCells_kept {d : Device} {x : QPkt} (hd : d.Kept S Q c k) : (Device.freeCells d x).Kept S Q c k := by
  unfold Device.freeCells; try dsimp only
  repeat' first | with_reducible assumption | with_reducible apply onPkt_kept | with_reducible apply spillUpdate_kept

theorem qPush_kept {d : Device} {k0 : Nat} {x : QPkt} (hd : d.Kept S Q c k) : (Device.qPush d k0 x).Kept S Q c k := by
  unfold Device.qPush; try dsimp only
  repeat' first
    | with_reducible assumption | with_reducible apply onPkt_kept | with_reducible apply onQueue_kept
    | with_reducible apply spillUpdate_kept

theorem enqueue_kept {d : Device} {k0 : Nat} {x : QPkt} {col : Colour} {dp : Nat}
    (hd : d.Kept S Q c k) : (Device.enqueue d k0 x col dp).Kept S Q c k := by
  unfold Device.enqueue; try dsimp only
  repeat' first
    | with_reducible assumption | with_reducible apply inc_kept | with_reducible apply onCycle_kept | with_reducible apply qPush_kept
    | with_reducible apply raise_kept | split

theorem tailRetry_kept {d : Device} {k0 : Nat} (hd : d.Kept S Q c k) : (Device.tailRetry d k0).Kept S Q c k := by
  unfold Device.tailRetry; try dsimp only
  repeat' first
    | with_reducible assumption | with_reducible apply enqueue_kept | with_reducible apply onCycle_kept | with_reducible apply uncount_kept
    | with_reducible apply foldl_kept | split | (dsimp only) | (intro _ _ _; try dsimp only)

theorem enqueueCopy_kept {d : Device} {k0 : Nat} {x : QPkt} (hd : d.Kept S Q c k) : (Device.enqueueCopy d k0 x).Kept S Q c k := by
  unfold Device.enqueueCopy; try dsimp only
  repeat' first | with_reducible assumption | with_reducible apply inc_kept | with_reducible apply qPush_kept | split

theorem requeue_kept {d : Device} {a1 : List (Nat × QPkt)} (hd : d.Kept S Q c k) : (Device.requeue d a1).Kept S Q c k := by
  fun_induction Device.requeue d a1
  all_goals try dsimp only
  all_goals repeat' first | with_reducible assumption | with_reducible apply onQueue_kept

theorem dupDrop_kept {d : Device} {k0 : Nat} {seq : Nat} (hd : d.Kept S Q c k) : (Device.dupDrop d k0 seq).Kept S Q c k := by
  unfold Device.dupDrop; try dsimp only
  repeat' first
    | with_reducible assumption | with_reducible apply freeCells_kept | with_reducible apply onQueue_kept
    | with_reducible apply tailRetry_kept | with_reducible apply foldl_kept

theorem emptyQueue_kept {d : Device} {k0 : Nat} {r0 : Nat} (hd : d.Kept S Q c k) : (Device.emptyQueue d k0 r0).Kept S Q c k := by
  unfold Device.emptyQueue; try dsimp only
  repeat' first
    | with_reducible assumption | with_reducible apply freeCells_kept | with_reducible apply inc_kept | with_reducible apply onQueue_kept
    | with_reducible apply foldl_kept | split | (dsimp only) | (intro _ _ _; try dsimp only)

theorem flushLinks_kept {d : Device} {links : List Nat} (hd : d.Kept S Q c k) : (Device.flushLinks d links).Kept S Q c k := by
  unfold Device.flushLinks; try dsimp only
  repeat' first
    | with_reducible assumption | with_reducible apply emptyQueue_kept | with_reducible apply foldl_kept | split | (dsimp only)
    | (intro _ _ _; try dsimp only)

theorem onEgress_kept {d : Device} {p : Nat} {f : Egress → Egress} (hd : d.Kept S Q c k) : (Device.onEgress d p f).Kept S Q c k := by
  unfold Device.onEgress; try dsimp only
  repeat' first | with_reducible assumption | with_reducible apply onPkt_kept

theorem onGate_kept {d : Device} {e0 : Nat} {f : Gate → Gate} (hd : d.Kept S Q c k) : (Device.onGate d e0 f).Kept S Q c k := by
  unfold Device.onGate; try dsimp only
  repeat' first | with_reducible assumption | with_reducible apply onPkt_kept

theorem settle_kept {d : Device} {k0 : Nat} (hd : d.Kept S Q c k) : (Device.settle d k0).Kept S Q c k := by
  unfold Device.settle; try dsimp only
  repeat' first | with_reducible assumption | with_reducible apply onQueue_kept

theorem chargeLink_kept {d : Device} {k0 : Nat} {planned : Time} {first : Time} {phyLen : Nat}
    (hd : d.Kept S Q c k) : (Device.chargeLink d k0 planned first phyLen).Kept S Q c k := by
  unfold Device.chargeLink; try dsimp only
  repeat' first | with_reducible assumption | with_reducible apply onQueue_kept | with_reducible apply settle_kept

theorem unchargeLink_kept {d : Device} {k0 : Nat} {planned : Time} {phyLen : Nat}
    (hd : d.Kept S Q c k) : (Device.unchargeLink d k0 planned phyLen).Kept S Q c k := by
  unfold Device.unchargeLink; try dsimp only
  repeat' first | with_reducible assumption | with_reducible apply onQueue_kept | with_reducible apply settle_kept | split

theorem settleRng_kept {d : Device} (hd : d.Kept S Q c k) : (Device.settleRng d).Kept S Q c k := by
  unfold Device.settleRng; try dsimp only
  repeat' first
    | with_reducible assumption | with_reducible apply settle_kept | with_reducible apply foldl_kept | split | (dsimp only)
    | (intro _ _ _; try dsimp only)

theorem tsPush_kept {d : Device} {x : TsEntry} (hd : d.Kept S Q c k) : (Device.tsPush d x).Kept S Q c k := by
  unfold Device.tsPush; try dsimp only
  repeat' first
    | with_reducible assumption | with_reducible apply inc_kept | with_reducible apply onLanes_kept | with_reducible apply raise_kept
    | split

theorem stampSent_kept {d : Device} {e0 : Nat} {x : QPkt} (hd : d.Kept S Q c k) : (Device.stampSent d e0 x).Kept S Q c k := by
  unfold Device.stampSent; try dsimp only
  repeat' first | with_reducible assumption | with_reducible apply tsPush_kept | split

theorem rngOut_kept {d : Device} {data : Bytes} (hd : d.Kept S Q c k) : (Device.rngOut d data).Kept S Q c k := by
  unfold Device.rngOut; try dsimp only
  repeat' first | with_reducible assumption | with_reducible apply emit_kept | with_reducible apply onRng_kept | split

theorem rngSend_kept {d : Device} {ty : Nat} {ch : Nat} {payload : Bytes} (hd : d.Kept S Q c k) : (Device.rngSend d ty ch payload).Kept S Q c k := by
  unfold Device.rngSend; try dsimp only
  repeat' first
    | with_reducible assumption | with_reducible apply freeNext_kept | with_reducible apply onRng_kept | with_reducible apply rngOut_kept

theorem dropOversize_kept {d : Device} {p : Nat} {n : Nat} {a3 : List QPkt} (hd : d.Kept S Q c k) : (Device.dropOversize d p n a3).Kept S Q c k := by
  fun_induction Device.dropOversize d p n a3
  all_goals try dsimp only
  all_goals repeat' first
    | with_reducible assumption | with_reducible apply freeCells_kept | with_reducible apply inc_kept | with_reducible apply onQueue_kept
    | with_reducible apply raise_kept | split | (dsimp only) | (intro _ _ _; try dsimp only) | (simp only [kept_mk])
    | (simp only [kept_mk_clk]) | (apply_assumption)

theorem sweepOversize_kept {d : Device} {p : Nat} (hd : d.Kept S Q c k) : (Device.sweepOversize d p).Kept S Q c k := by
  unfold Device.sweepOversize; try dsimp only
  repeat' first
    | with_reducible assumption | with_reducible apply dropOversize_kept | with_reducible apply foldl_kept | split | (dsimp only)
    | (intro _ _ _; try dsimp only)

theorem headCheck_kept {d : Device} {k0 : Nat} (hd : d.Kept S Q c k) : (Device.headCheck d k0).Kept S Q c k := by
  unfold Device.headCheck; try dsimp only
  repeat' first | with_reducible assumption | with_reducible apply dropOversize_kept | split

theorem arrive_kept {d : Device} {k0 : Nat} {x : QPkt} {col : Colour} {dp : Nat}
    (hd : d.Kept S Q c k) : (Device.arrive d k0 x col dp).Kept S Q c k := by
  unfold Device.arrive; try dsimp only
  repeat' first | with_reducible assumption | with_reducible apply enqueue_kept | with_reducible apply headCheck_kept

theorem arriveCopy_kept {d : Device} {k0 : Nat} {x : QPkt} (hd : d.Kept S Q c k) : (Device.arriveCopy d k0 x).Kept S Q c k := by
  unfold Device.arriveCopy; try dsimp only
  repeat' first | with_reducible assumption | with_reducible apply enqueueCopy_kept | with_reducible apply headCheck_kept

theorem frameStart_kept {d : Device} {p : Nat} {x : QPkt} (hd : d.Kept S Q c k) : (Device.frameStart d p x).Kept S Q c k := by
  unfold Device.frameStart; try dsimp only
  repeat' first
    | with_reducible assumption | with_reducible apply emit_kept | with_reducible apply onRng_kept | with_reducible apply stampSent_kept
    | split

theorem portSelect_kept {p : Fin 9} {d : Device} (hd : d.Kept S Q c k) : (portSelect p d).Kept S Q c k := by
  unfold portSelect; try dsimp only
  repeat' first
    | with_reducible assumption | with_reducible apply frameStart_kept | with_reducible apply headCheck_kept
    | with_reducible apply onEgress_kept | with_reducible apply onQueue_kept | with_reducible apply settle_kept
    | with_reducible apply sweepOversize_kept | with_reducible apply tailRetry_kept | split

theorem deliver_kept {d : Device} {c0 : Nat} {n : Nat} {x : QPkt} (hd : d.Kept S Q c k) : (Device.deliver d c0 n x).Kept S Q c k := by
  unfold Device.deliver; try dsimp only
  repeat' first
    | with_reducible assumption | with_reducible apply emit_kept | with_reducible apply inc_kept | with_reducible apply onKeep_kept
    | with_reducible apply rngSend_kept | split

theorem portFrameEnd_kept {p : Fin 9} {d : Device} (hd : d.Kept S Q c k) : (portFrameEnd p d).Kept S Q c k := by
  unfold portFrameEnd; try dsimp only
  repeat' first
    | with_reducible assumption | with_reducible apply deliver_kept | with_reducible apply freeCells_kept
    | with_reducible apply onEgress_kept | with_reducible apply settle_kept | split

theorem settlePort_kept {d : Device} {e0 : Nat} (hd : d.Kept S Q c k) : (Device.settlePort d e0).Kept S Q c k := by
  unfold Device.settlePort; try dsimp only
  repeat' first
    | with_reducible assumption | with_reducible apply settle_kept | with_reducible apply foldl_kept | split | (dsimp only)
    | (intro _ _ _; try dsimp only)

theorem gateAdvance_kept {d : Device} {e0 : Nat} (hd : d.Kept S Q c k) : (Device.gateAdvance d e0).Kept S Q c k := by
  unfold Device.gateAdvance; try dsimp only
  repeat' first
    | with_reducible assumption | with_reducible apply onGate_kept | with_reducible apply settlePort_kept
    | with_reducible apply sweepOversize_kept

theorem gateEntryChange_kept {e0 : Fin 6} {d : Device} (hd : d.Kept S Q c k) : (gateEntryChange e0 d).Kept S Q c k := by
  unfold gateEntryChange; try dsimp only
  repeat' first | with_reducible assumption | with_reducible apply gateAdvance_kept

theorem gateDataPut_kept {d : Device} {v : Word} (hd : d.Kept S Q c k) : (Device.gateDataPut d v).Kept S Q c k := by
  unfold Device.gateDataPut; try dsimp only
  repeat' first
    | with_reducible assumption | with_reducible apply onPkt_kept | with_reducible apply raise_kept | with_reducible apply setCfg_kept
    | split

theorem gateDataWrite_kept {v : Word} {d : Device} (hd : d.Kept S Q c k) : (gateDataWrite v d).Kept S Q c k := by
  unfold gateDataWrite; try dsimp only
  repeat' first | with_reducible assumption | with_reducible apply gateDataPut_kept | with_reducible apply keeperAccess_kept

theorem gateSwapReq_kept {d : Device} {e0 : Nat} (hd : d.Kept S Q c k) : (Device.gateSwapReq d e0).Kept S Q c k := by
  unfold Device.gateSwapReq; try dsimp only
  repeat' first | with_reducible assumption | with_reducible apply onGate_kept | with_reducible apply raise_kept | split

theorem gateSwap_kept {e0 : Fin 6} {d : Device} (hd : d.Kept S Q c k) : (gateSwap e0 d).Kept S Q c k := by
  unfold gateSwap; try dsimp only
  repeat' first | with_reducible assumption | with_reducible apply gateSwapReq_kept | with_reducible apply keeperAccess_kept

theorem gateBoundary_kept {d : Device} {sf : Nat} (hd : d.Kept S Q c k) : (Device.gateBoundary d sf).Kept S Q c k := by
  unfold Device.gateBoundary; try dsimp only
  repeat' first
    | with_reducible assumption | with_reducible apply onGate_kept | with_reducible apply raise_kept | with_reducible apply settlePort_kept
    | with_reducible apply sweepOversize_kept | with_reducible apply foldl_kept | split | (dsimp only) | (intro _ _ _; try dsimp only)

theorem meterPkt_kept {d : Device} {i : Nat} {bytes : Nat} {inYellow : Bool} {x0 : Colour} {x1 : Nat} {rr : Device}
    (e : (Device.meterPkt d i bytes inYellow) = (x0, x1, rr)) (hd : d.Kept S Q c k) : rr.Kept S Q c k := by
  unfold Device.meterPkt at e; try dsimp only at e
  repeat' split at e
  all_goals first | (cases e; done) | (cases e; (repeat' first | with_reducible assumption | with_reducible apply inc_kept | with_reducible apply onCycle_kept | with_reducible apply onPkt_kept); done)

theorem meterPkt_kept2 {d : Device} {i : Nat} {bytes : Nat} {inYellow : Bool}
    (hd : d.Kept S Q c k) : (Device.meterPkt d i bytes inYellow).2.2.Kept S Q c k := meterPkt_kept (rr := (Device.meterPkt d i bytes inYellow).2.2) rfl hd

theorem meterStore_kept {d : Device} {aware : Bool} {dp : Nat} (hd : d.Kept S Q c k) : (Device.meterStore d aware dp).Kept S Q c k := by
  unfold Device.meterStore; try dsimp only
  repeat' first | with_reducible assumption | with_reducible apply onCycle_kept | with_reducible apply onPkt_kept | split

theorem meterLoad_kept {d : Device} (hd : d.Kept S Q c k) : (Device.meterLoad d).Kept S Q c k :=
  setCfg_kept (setCfg_kept (setCfg_kept (setCfg_kept hd)))

theorem meterWrite_kept {aware : Bool} {dp : BitVec 2} {d : Device} (hd : d.Kept S Q c k) : (meterWrite aware dp d).Kept S Q c k := by
  unfold meterWrite; try dsimp only
  repeat' first | with_reducible assumption | with_reducible apply keeperAccess_kept | with_reducible apply meterStore_kept

theorem meterRead_kept {d : Device} (hd : d.Kept S Q c k) : (meterRead d).Kept S Q c k := by
  unfold meterRead; try dsimp only
  repeat' first | with_reducible assumption | with_reducible apply keeperAccess_kept | with_reducible apply meterLoad_kept

theorem bellSkip_kept {d : Device} (hd : d.Kept S Q c k) : (Device.bellSkip d).Kept S Q c k := by
  unfold Device.bellSkip; try dsimp only
  repeat' first | with_reducible assumption | with_reducible apply inc_kept | with_reducible apply raise_kept

theorem keeperPlanTx_kept {d : Device} {b : Band} {f : TxFrame} (hd : d.Kept S Q c k) : (Device.keeperPlanTx d b f).Kept S Q c k := by
  unfold Device.keeperPlanTx; try dsimp only
  repeat' first | with_reducible assumption | with_reducible apply onRad_kept

theorem ingressPush_kept {d : Device} {x : Pkt} (hd : d.Kept S Q c k) : (Device.ingressPush d x).Kept S Q c k := by
  unfold Device.ingressPush; try dsimp only
  repeat' first | with_reducible assumption | with_reducible apply onPkt_kept | split

theorem enterNext_kept {d : Device} (hd : d.Kept S Q c k) : (Device.enterNext d).Kept S Q c k := by
  unfold Device.enterNext; try dsimp only
  repeat' first | with_reducible assumption | with_reducible apply onCycle_kept | with_reducible apply onPkt_kept | split

theorem packetEntry_kept {inj : Option Injection} {d : Device} (hd : d.Kept S Q c k) : (packetEntry inj d).Kept S Q c k := by
  unfold packetEntry; try dsimp only
  repeat' first | with_reducible assumption | with_reducible apply enterNext_kept | with_reducible apply ingressPush_kept | split

theorem recircEntry_kept {d : Device} (hd : d.Kept S Q c k) : (recircEntry d).Kept S Q c k := by
  unfold recircEntry; try dsimp only
  repeat' first | with_reducible assumption | with_reducible apply inc_kept | with_reducible apply onPkt_kept | split

theorem parseDone_kept {d : Device} {x : Pkt} {p : Parsed} (hd : d.Kept S Q c k) : (Device.parseDone d x p).Kept S Q c k := by
  unfold Device.parseDone; try dsimp only
  repeat' first
    | with_reducible assumption | with_reducible apply inc_kept | with_reducible apply onPkt_kept | with_reducible apply raise_kept | split

theorem probeHit_kept {d : Device} {x : Pkt} {t : Nat} {ty : Nat} {prec : Nat} {key : Option Bytes} {x0 : List Hit} {rr : Device}
    (e : (Device.probeHit d x t ty prec key) = (x0, rr)) (hd : d.Kept S Q c k) : rr.Kept S Q c k := by
  unfold Device.probeHit at e; try dsimp only at e
  repeat' split at e
  all_goals first | (cases e; done) | (cases e; (repeat' first | with_reducible assumption | (with_reducible refine lookup_kept (by assumption) ?_)); done)

theorem probeHit_kept2 {d : Device} {x : Pkt} {t : Nat} {ty : Nat} {prec : Nat} {key : Option Bytes}
    (hd : d.Kept S Q c k) : (Device.probeHit d x t ty prec key).2.Kept S Q c k := probeHit_kept (rr := (Device.probeHit d x t ty prec key).2) rfl hd

theorem learnPost_kept {d : Device} {x : Learn} (hd : d.Kept S Q c k) : (Device.learnPost d x).Kept S Q c k := by
  unfold Device.learnPost; try dsimp only
  repeat' first
    | with_reducible assumption | with_reducible apply inc_kept | with_reducible apply onPkt_kept | with_reducible apply raise_kept | split

theorem learnProbe_kept {d : Device} {x : Pkt} {p : Parsed} (hd : d.Kept S Q c k) : (Device.learnProbe d x p).Kept S Q c k := by
  unfold Device.learnProbe; try dsimp only
  repeat' first
    | with_reducible assumption | with_reducible apply learnPost_kept | (with_reducible refine lookup_kept (by assumption) ?_)
    | with_reducible apply lookup_kept2 | split

theorem probes_kept {d : Device} {x : Pkt} {p : Option Parsed} {x0 : List Hit} {rr : Device}
    (e : (Device.probes d x p) = (x0, rr)) (hd : d.Kept S Q c k) : rr.Kept S Q c k := by
  unfold Device.probes at e; try dsimp only at e
  repeat' split at e
  all_goals first | (cases e; done) | (cases e; (repeat' first | with_reducible assumption | with_reducible apply learnProbe_kept | (with_reducible refine probeHit_kept (by assumption) ?_) | with_reducible apply probeHit_kept2); done)

theorem probes_kept2 {d : Device} {x : Pkt} {p : Option Parsed}
    (hd : d.Kept S Q c k) : (Device.probes d x p).2.Kept S Q c k := probes_kept (rr := (Device.probes d x p).2) rfl hd

theorem copyToKeeper_kept {d : Device} {x : Pkt} {data : Bytes} {code : Nat} {prec : Nat}
    (hd : d.Kept S Q c k) : (Device.copyToKeeper d x data code prec).Kept S Q c k := by
  unfold Device.copyToKeeper; try dsimp only
  repeat' first | with_reducible assumption | with_reducible apply arriveCopy_kept

theorem mirrorTo_kept {d : Device} {x : Pkt} {data : Bytes} {port : Nat} (hd : d.Kept S Q c k) : (Device.mirrorTo d x data port).Kept S Q c k := by
  unfold Device.mirrorTo; try dsimp only
  repeat' first | with_reducible assumption | with_reducible apply arriveCopy_kept | split

theorem pktDrop_kept {d : Device} {r0 : Nat} (hd : d.Kept S Q c k) : (Device.pktDrop d r0).Kept S Q c k := by
  unfold Device.pktDrop; try dsimp only
  repeat' first | with_reducible assumption | with_reducible apply inc_kept | with_reducible apply raise_kept | split

theorem forward_kept {d : Device} {x : Pkt} {p : Option Parsed} {y : Bytes} {h0 : Hit} {meter : Option Nat}
    (hd : d.Kept S Q c k) : (Device.forward d x p y h0 meter).Kept S Q c k := by
  unfold Device.forward; try dsimp only
  repeat' first
    | with_reducible assumption | with_reducible apply arrive_kept | with_reducible apply freeNext_kept
    | (with_reducible refine meterPkt_kept (by assumption) ?_) | with_reducible apply meterPkt_kept2 | split

theorem recircPush_kept {d : Device} {x : Pkt} {q : Parsed} (hd : d.Kept S Q c k) : (Device.recircPush d x q).Kept S Q c k := by
  unfold Device.recircPush; try dsimp only
  repeat' first | with_reducible assumption | with_reducible apply onPkt_kept

theorem dispose_kept {d : Device} {x : Pkt} {p : Option Parsed} {y : Bytes} {h0 : Hit} {meter : Option Nat} {copied : Bool}
    (hd : d.Kept S Q c k) : (Device.dispose d x p y h0 meter copied).Kept S Q c k := by
  unfold Device.dispose; try dsimp only
  repeat' first
    | with_reducible assumption | with_reducible apply copyToKeeper_kept | with_reducible apply forward_kept
    | with_reducible apply pktDrop_kept | with_reducible apply recircPush_kept | split

theorem resolve_kept {d : Device} {x : Pkt} (hd : d.Kept S Q c k) : (Device.resolve d x).Kept S Q c k := by
  unfold Device.resolve; try dsimp only
  repeat' first
    | with_reducible assumption | with_reducible apply copyToKeeper_kept | with_reducible apply dispose_kept
    | with_reducible apply mirrorTo_kept | with_reducible apply parseDone_kept | (with_reducible refine probes_kept (by assumption) ?_)
    | with_reducible apply probes_kept2 | split

theorem passResolve_kept {d : Device} (hd : d.Kept S Q c k) : (passResolve d).Kept S Q c k := by
  unfold passResolve; try dsimp only
  repeat' first | with_reducible assumption | with_reducible apply onPkt_kept | with_reducible apply resolve_kept | split

theorem learnPop_kept {d : Device} (hd : d.Kept S Q c k) : (learnPop d).Kept S Q c k := by
  unfold learnPop; try dsimp only
  repeat' first
    | with_reducible assumption | with_reducible apply emit_kept | with_reducible apply keeperAccess_kept
    | with_reducible apply onCycle_kept | with_reducible apply onPkt_kept | split

theorem setTblData_kept {d : Device} {e0 : Entry} (hd : d.Kept S Q c k) : (Device.setTblData d e0).Kept S Q c k := by
  unfold Device.setTblData; try dsimp only
  repeat' first
    | with_reducible assumption | with_reducible apply setCfg_kept | with_reducible apply foldl_kept | split | (dsimp only)
    | (intro _ _ _; try dsimp only)

theorem tblCmd_kept {t index : Nat} {f : Device → Device} (hf : (f d).Kept S Q c k) (hd : d.Kept S Q c k) : (d.tblCmd t index f).Kept S Q c k := by
  unfold Device.tblCmd; refine keeperAccess_kept ?_ hd; split
  · exact hwSet_kept (onPkt_kept hd)
  · exact hf

theorem tblRead_kept {t : Fin 4} {index : BitVec 15} {d : Device} (hd : d.Kept S Q c k) : (tblRead t index d).Kept S Q c k := by
  unfold tblRead; try dsimp only
  repeat' first | with_reducible assumption | with_reducible apply setTblData_kept | with_reducible apply tblCmd_kept

theorem tblWrite_kept {t : Fin 4} {index : BitVec 15} {d : Device} (hd : d.Kept S Q c k) : (tblWrite t index d).Kept S Q c k := by
  unfold tblWrite; try dsimp only
  repeat' first | with_reducible assumption | with_reducible apply tblCmd_kept | with_reducible apply tblStore_kept

theorem tblClear_kept {t : Fin 4} {index : BitVec 15} {d : Device} (hd : d.Kept S Q c k) : (tblClear t index d).Kept S Q c k := by
  unfold tblClear; try dsimp only
  repeat' first
    | with_reducible assumption | with_reducible apply onCycle_kept | with_reducible apply onPkt_kept | with_reducible apply tblCmd_kept

theorem tblHash_kept {t : Fin 4} {d : Device} (hd : d.Kept S Q c k) : (tblHash t d).Kept S Q c k := by
  unfold tblHash; try dsimp only
  repeat' first | with_reducible assumption | with_reducible apply onPkt_kept | with_reducible apply tblCmd_kept

theorem genAdvance_kept {d : Device} (hd : d.Kept S Q c k) : (Device.genAdvance d).Kept S Q c k := by
  unfold Device.genAdvance; try dsimp only
  repeat' first | with_reducible assumption | with_reducible apply onPkt_kept

theorem genCommitReq_kept {d : Device} (hd : d.Kept S Q c k) : (Device.genCommitReq d).Kept S Q c k := by
  unfold Device.genCommitReq; try dsimp only
  repeat' first
    | with_reducible assumption | with_reducible apply genAdvance_kept | with_reducible apply hwSet_kept | with_reducible apply onPkt_kept
    | with_reducible apply raise_kept | split

theorem genCommit_kept {d : Device} (hd : d.Kept S Q c k) : (genCommit d).Kept S Q c k := by
  unfold genCommit; try dsimp only
  repeat' first | with_reducible assumption | with_reducible apply genCommitReq_kept | with_reducible apply keeperAccess_kept

theorem genCommitProceed_kept {d : Device} (hd : d.Kept S Q c k) : (genCommitProceed d).Kept S Q c k := by
  unfold genCommitProceed; try dsimp only
  repeat' first | with_reducible assumption | with_reducible apply genAdvance_kept | split

theorem genDrainTimeout_kept {d : Device} (hd : d.Kept S Q c k) : (genDrainTimeout d).Kept S Q c k := by
  unfold genDrainTimeout; try dsimp only
  repeat' first
    | with_reducible assumption | with_reducible apply addCnt_kept | with_reducible apply genAdvance_kept | with_reducible apply onPkt_kept
    | with_reducible apply raise_kept | split

theorem pinsShow_kept {d : Device} {b : Band} (hd : d.Kept S Q c k) : (Device.pinsShow d b).Kept S Q c k := by
  unfold Device.pinsShow; try dsimp only
  repeat' first | with_reducible assumption | with_reducible apply emit_kept

theorem seqApply_kept {d : Device} {b : Band} {sq : SeqId} {i : Nat} (hd : d.Kept S Q c k) : (Device.seqApply d b sq i).Kept S Q c k := by
  unfold Device.seqApply; try dsimp only
  repeat' first | with_reducible assumption | with_reducible apply onRad_kept

theorem seqFlush_kept {d : Device} {b : Band} {upTo : Time} (hd : d.Kept S Q c k) : (Device.seqFlush d b upTo).Kept S Q c k := by
  unfold Device.seqFlush; try dsimp only
  repeat' first
    | with_reducible assumption | with_reducible apply seqApply_kept | with_reducible apply foldl_kept | split | (dsimp only)
    | (intro _ _ _; try dsimp only)

theorem seqBegin_kept {d : Device} {b : Band} {sq : SeqId} {z0 : Time} {gain : Nat} {ant : Nat}
    (hd : d.Kept S Q c k) : (Device.seqBegin d b sq z0 gain ant).Kept S Q c k := by
  unfold Device.seqBegin; try dsimp only
  repeat' first | with_reducible assumption | with_reducible apply onRad_kept | with_reducible apply seqFlush_kept | split

theorem paForce_kept {d : Device} {b : Band} (hd : d.Kept S Q c k) : (Device.paForce d b).Kept S Q c k := by
  unfold Device.paForce; try dsimp only
  repeat' first | with_reducible assumption | with_reducible apply onRad_kept

theorem seqSync_kept {d : Device} {b : Band} (hd : d.Kept S Q c k) : (Device.seqSync d b).Kept S Q c k := by
  unfold Device.seqSync; try dsimp only
  repeat' first | with_reducible assumption | with_reducible apply paForce_kept | with_reducible apply seqBegin_kept | split

theorem sequenceStep_kept {b : Band} {sq : SeqId} {i : Fin 8} {d : Device} (hd : d.Kept S Q c k) : (sequenceStep b sq i d).Kept S Q c k := by
  unfold sequenceStep; try dsimp only
  repeat' first
    | with_reducible assumption | with_reducible apply pinsShow_kept | with_reducible apply seqApply_kept
    | with_reducible apply seqSync_kept | split

theorem replan_kept {d : Device} {b : Band} {code : Option Nat} (hd : d.Kept S Q c k) : (Device.replan d b code).Kept S Q c k := by
  unfold Device.replan; try dsimp only
  repeat' first | with_reducible assumption | with_reducible apply onRad_kept | split

theorem bgAbort_kept {d : Device} {b : Band} (hd : d.Kept S Q c k) : (Device.bgAbort d b).Kept S Q c k := by
  unfold Device.bgAbort; try dsimp only
  repeat' first | with_reducible assumption | with_reducible apply inc16_kept | with_reducible apply onRad_kept | split

theorem calDeferExpiry_kept {b : Band} {g : Fin 16} {d : Device} (hd : d.Kept S Q c k) : (calDeferExpiry b g d).Kept S Q c k := by
  unfold calDeferExpiry; try dsimp only
  repeat' first | with_reducible assumption | with_reducible apply onRad_kept | with_reducible apply raiseRad_kept | split

theorem calWait_kept {d : Device} {b : Band} (hd : d.Kept S Q c k) : (Device.calWait d b).Kept S Q c k := by
  unfold Device.calWait; try dsimp only
  repeat' first | with_reducible assumption | with_reducible apply onRad_kept

theorem radTemp_kept {d : Device} {b : Band} {temp : BitVec 16} (hd : d.Kept S Q c k) : (Device.radTemp d b temp).Kept S Q c k := by
  unfold Device.radTemp; try dsimp only
  repeat' first | with_reducible assumption | with_reducible apply onRad_kept

theorem unDup_kept {d : Device} {f : TxFrame} (hd : d.Kept S Q c k) : (Device.unDup d f).Kept S Q c k := by
  unfold Device.unDup; try dsimp only
  repeat' first | with_reducible assumption | with_reducible apply onQueue_kept | split

theorem frameBack_kept {d : Device} {b : Band} {f : TxFrame} {started : Bool} {why : Requeue}
    (hd : d.Kept S Q c k) : (Device.frameBack d b f started why).Kept S Q c k := by
  unfold Device.frameBack; try dsimp only
  repeat' first
    | with_reducible assumption | with_reducible apply bellSkip_kept | with_reducible apply freeCells_kept | with_reducible apply inc_kept
    | with_reducible apply keeperPlanTx_kept | with_reducible apply onClient_kept | with_reducible apply onLant_kept
    | with_reducible apply onRad_kept | with_reducible apply requeue_kept | with_reducible apply unDup_kept
    | with_reducible apply unchargeLink_kept | with_reducible apply foldl_kept | split | (dsimp only) | (intro _ _ _; try dsimp only)

theorem dropSeal_kept {d : Device} {f : TxFrame} (hd : d.Kept S Q c k) : (Device.dropSeal d f).Kept S Q c k := by
  unfold Device.dropSeal; try dsimp only
  repeat' first | with_reducible assumption | with_reducible apply onCiph_kept | split

theorem lateLock_kept {d : Device} {b : Band} {f : TxFrame} (hd : d.Kept S Q c k) : (Device.lateLock d b f).Kept S Q c k := by
  unfold Device.lateLock; try dsimp only
  repeat' first
    | with_reducible assumption | with_reducible apply dropSeal_kept | with_reducible apply frameBack_kept | with_reducible apply inc16_kept
    | with_reducible apply raiseRad_kept

theorem putRun_kept {d : Device} {b : Band} {f : TxFrame} {e0 : Time} {at_ : Time}
    (hd : d.Kept S Q c k) : (Device.putRun d b f e0 at_).Kept S Q c k := by
  unfold Device.putRun; try dsimp only
  repeat' first
    | with_reducible assumption | with_reducible apply chargeLink_kept | with_reducible apply lateLock_kept
    | with_reducible apply onRad_kept | split

theorem retime_kept {d : Device} {b : Band} (hd : d.Kept S Q c k) : (Device.retime d b).Kept S Q c k := by
  unfold Device.retime; try dsimp only
  repeat' first
    | with_reducible assumption | with_reducible apply onRad_kept | with_reducible apply putRun_kept | with_reducible apply replan_kept
    | with_reducible apply foldl_kept | split | (dsimp only) | (intro _ _ _; try dsimp only)

theorem calStart_kept {d : Device} {b : Band} {g : Nat} {forced : Bool} {delay : Nat}
    (hd : d.Kept S Q c k) : (Device.calStart d b g forced delay).Kept S Q c k := by
  unfold Device.calStart; try dsimp only
  repeat' first
    | with_reducible assumption | with_reducible apply bgAbort_kept | with_reducible apply onRad_kept | with_reducible apply retime_kept

theorem calForce_kept {d : Device} {b : Band} {g : Nat} (hd : d.Kept S Q c k) : (Device.calForce d b g).Kept S Q c k := by
  unfold Device.calForce; try dsimp only
  repeat' first
    | with_reducible assumption | with_reducible apply calStart_kept | with_reducible apply freeNext_kept | with_reducible apply onRad_kept
    | with_reducible apply retime_kept | split

theorem forcedCalStart_kept {b : Band} {d : Device} (hd : d.Kept S Q c k) : (forcedCalStart b d).Kept S Q c k := by
  unfold forcedCalStart; try dsimp only
  repeat' first | with_reducible assumption | with_reducible apply calStart_kept | with_reducible apply freeNext_kept | split

theorem calCmdPending_kept {b : Band} {g : Fin 16} {d : Device} (hd : d.Kept S Q c k) : (calCmdPending b g d).Kept S Q c k := by
  unfold calCmdPending; try dsimp only
  repeat' first | with_reducible assumption | with_reducible apply keeperAccess_kept | with_reducible apply onRad_kept | split

theorem calCmdForce_kept {b : Band} {g : Fin 16} {d : Device} (hd : d.Kept S Q c k) : (calCmdForce b g d).Kept S Q c k := by
  unfold calCmdForce; try dsimp only
  repeat' first | with_reducible assumption | with_reducible apply calForce_kept | with_reducible apply keeperAccess_kept | split

theorem needCal_kept {d : Device} {b : Band} {chan : Nat} (hd : d.Kept S Q c k) : (Device.needCal d b chan).Kept S Q c k := by
  unfold Device.needCal; try dsimp only
  repeat' first | with_reducible assumption | with_reducible apply calForce_kept | split

theorem useGroup_kept {d : Device} {b : Band} {chan : Nat} (hd : d.Kept S Q c k) : (Device.useGroup d b chan).Kept S Q c k := by
  unfold Device.useGroup; try dsimp only
  repeat' first | with_reducible assumption | with_reducible apply onRad_kept | split

theorem yieldKeeper_kept {d : Device} {b : Band} (hd : d.Kept S Q c k) : (Device.yieldKeeper d b).Kept S Q c k := by
  unfold Device.yieldKeeper; try dsimp only
  repeat' first
    | with_reducible assumption | with_reducible apply keeperPlanTx_kept | with_reducible apply onRad_kept | with_reducible apply foldl_kept
    | split | (dsimp only) | (intro _ _ _; try dsimp only)

theorem radTx_kept {d : Device} {b : Band} {f : TxFrame} (hd : d.Kept S Q c k) : (Device.radTx d b f).Kept S Q c k := by
  unfold Device.radTx; try dsimp only
  repeat' first
    | with_reducible assumption | with_reducible apply bgAbort_kept | with_reducible apply keeperPlanTx_kept
    | with_reducible apply needCal_kept | with_reducible apply putRun_kept | with_reducible apply replan_kept
    | with_reducible apply yieldKeeper_kept | split

theorem winLost_kept {d : Device} {b : Band} (hd : d.Kept S Q c k) : (Device.winLost d b).Kept S Q c k := by
  unfold Device.winLost; try dsimp only
  repeat' first | with_reducible assumption | with_reducible apply inc16_kept | with_reducible apply raiseRad_kept

theorem openWins_kept {d : Device} {b : Band} (hd : d.Kept S Q c k) : (Device.openWins d b).Kept S Q c k := by
  unfold Device.openWins; try dsimp only
  repeat' first | with_reducible assumption | with_reducible apply onRad_kept

theorem radRx_kept {d : Device} {b : Band} {w : Win} {x0 : Bool} {rr : Device}
    (e : (Device.radRx d b w) = (rr, x0)) (hd : d.Kept S Q c k) : rr.Kept S Q c k := by
  unfold Device.radRx at e; try dsimp only at e
  repeat' split at e
  all_goals first | (cases e; done) | (cases e; (repeat' first | with_reducible assumption | with_reducible apply bgAbort_kept | with_reducible apply needCal_kept | with_reducible apply onRad_kept | with_reducible apply openWins_kept | with_reducible apply replan_kept); done)

theorem radRx_kept2 {d : Device} {b : Band} {w : Win}
    (hd : d.Kept S Q c k) : (Device.radRx d b w).1.Kept S Q c k := radRx_kept (rr := (Device.radRx d b w).1) rfl hd

theorem transEnd_kept {d : Device} {b : Band} (hd : d.Kept S Q c k) : (Device.transEnd d b).Kept S Q c k := by
  unfold Device.transEnd; try dsimp only
  repeat' first
    | with_reducible assumption | with_reducible apply onRad_kept | with_reducible apply openWins_kept | with_reducible apply seqBegin_kept
    | with_reducible apply seqFlush_kept | with_reducible apply seqSync_kept | split

theorem airShow_kept {d : Device} {b : Band} {x : TxRun} {cut : Option Nat} (hd : d.Kept S Q c k) : (Device.airShow d b x cut).Kept S Q c k := by
  unfold Device.airShow; try dsimp only
  repeat' first | with_reducible assumption | with_reducible apply emit_kept

theorem txOff_kept {d : Device} {b : Band} {from_ : Time} {dest : RState} {after : Nat}
    (hd : d.Kept S Q c k) : (Device.txOff d b from_ dest after).Kept S Q c k := by
  unfold Device.txOff; try dsimp only
  repeat' first | with_reducible assumption | with_reducible apply onRad_kept | with_reducible apply seqBegin_kept

theorem cutTx_kept {d : Device} {b : Band} {x : TxRun} {why : Requeue} (hd : d.Kept S Q c k) : (Device.cutTx d b x why).Kept S Q c k := by
  unfold Device.cutTx; try dsimp only
  repeat' first
    | with_reducible assumption | with_reducible apply airShow_kept | with_reducible apply dropSeal_kept
    | with_reducible apply frameBack_kept | split

theorem lockLossRadio_kept {d : Device} {b : Band} (hd : d.Kept S Q c k) : (Device.lockLossRadio d b).Kept S Q c k := by
  unfold Device.lockLossRadio; try dsimp only
  repeat' first
    | with_reducible assumption | with_reducible apply cutTx_kept | with_reducible apply freeNext_kept | with_reducible apply inc16_kept
    | with_reducible apply onRad_kept | with_reducible apply raiseRad_kept | with_reducible apply retime_kept
    | with_reducible apply seqBegin_kept | with_reducible apply txOff_kept | split

theorem powerLoop_kept {d : Device} {b : Band} {x : TxRun} {p : FbPower} (hd : d.Kept S Q c k) : (Device.powerLoop d b x p).Kept S Q c k := by
  unfold Device.powerLoop; try dsimp only
  repeat' first | with_reducible assumption | with_reducible apply onRad_kept | with_reducible apply raiseRad_kept | split

theorem capKeep_kept {d : Device} {b : Band} {p : FbPower} {cap : List FbSample} (hd : d.Kept S Q c k) : (Device.capKeep d b p cap).Kept S Q c k := by
  unfold Device.capKeep; try dsimp only
  repeat' first | with_reducible assumption | with_reducible apply onRad_kept | split

theorem dpdRun_kept {d : Device} {b : Band} (hd : d.Kept S Q c k) : (Device.dpdRun d b).Kept S Q c k := by
  unfold Device.dpdRun; try dsimp only
  repeat' first
    | with_reducible assumption | with_reducible apply freeNext_kept | with_reducible apply onRad_kept | with_reducible apply foldl_kept
    | split

theorem radTxEnd_kept {d : Device} {b : Band} {x : TxRun} (hd : d.Kept S Q c k) : (Device.radTxEnd d b x).Kept S Q c k := by
  unfold Device.radTxEnd; try dsimp only
  repeat' first
    | with_reducible assumption | with_reducible apply airShow_kept | with_reducible apply onRad_kept | with_reducible apply replan_kept
    | with_reducible apply txOff_kept

theorem bgcalStart_kept {b : Band} {k0 : Fin 5} {d : Device} (hd : d.Kept S Q c k) : (bgcalStart b k0 d).Kept S Q c k := by
  unfold bgcalStart; try dsimp only
  repeat' first | with_reducible assumption | with_reducible apply onRad_kept | split

theorem bgcalEnd_kept {b : Band} {result : Word} {d : Device} (hd : d.Kept S Q c k) : (bgcalEnd b result d).Kept S Q c k := by
  unfold bgcalEnd; try dsimp only
  repeat' first | with_reducible assumption | with_reducible apply dpdRun_kept | with_reducible apply onRad_kept | split

theorem radReset_kept {d : Device} {b : Band} (hd : d.Kept S Q c k) : (Device.radReset d b).Kept S Q c k := by
  unfold Device.radReset; try dsimp only
  repeat' first | with_reducible assumption | with_reducible apply onRad_kept

theorem onRef_kept {d : Device} {x : RefDom} {f : RefDomain → RefDomain} (hd : d.Kept S Q c k) : (Device.onRef d x f).Kept S Q c k := by
  unfold Device.onRef; try dsimp only
  repeat' first | with_reducible assumption | with_reducible apply onTime_kept | split

theorem refEnter_kept {d : Device} {x : RefDom} {st : DomSt} (hd : d.Kept S Q c k) : (Device.refEnter d x st).Kept S Q c k := by
  unfold Device.refEnter; try dsimp only
  repeat' first | with_reducible assumption | with_reducible apply onRef_kept | with_reducible apply raise_kept | split

theorem noteLocked_kept {d : Device} (hd : d.Kept S Q c k) : (Device.noteLocked d).Kept S Q c k := by
  unfold Device.noteLocked; try dsimp only
  repeat' first | with_reducible assumption | with_reducible apply onTime_kept | split

theorem reselect_kept {d : Device} {revert : Bool} (hd : d.Kept S Q c k) : (Device.reselect d revert).Kept S Q c k := by
  unfold Device.reselect; try dsimp only
  repeat' first
    | with_reducible assumption | with_reducible apply noteLocked_kept | with_reducible apply onTime_kept | with_reducible apply raise_kept
    | split

theorem refLoss_kept {d : Device} {x : RefDom} (hd : d.Kept S Q c k) : (Device.refLoss d x).Kept S Q c k := by
  unfold Device.refLoss; try dsimp only
  repeat' first
    | with_reducible assumption | with_reducible apply onRef_kept | with_reducible apply refEnter_kept | with_reducible apply reselect_kept
    | split

theorem openGate_kept {d : Device} (hd : d.Kept S Q c k) : (Device.openGate d).Kept S Q c k := by
  unfold Device.openGate; try dsimp only
  repeat' first | with_reducible assumption | with_reducible apply onTime_kept | with_reducible apply raise_kept

theorem startStep_kept {d : Device} {o : Int} (hd : d.Kept S Q c k) : (Device.startStep d o).Kept S Q c k := by
  unfold Device.startStep; try dsimp only
  repeat' first
    | with_reducible assumption | with_reducible apply onLant_kept | with_reducible apply onTime_kept | with_reducible apply openGate_kept
    | with_reducible apply raise_kept | split | (dsimp only) | (intro _ _ _; try dsimp only) | (simp only [kept_mk])
    | (simp only [kept_mk_clk])

theorem steer_kept {d : Device} {o : Int} {dt : Nat} (hd : d.Kept S Q c k) : (Device.steer d o dt).Kept S Q c k := by
  unfold Device.steer; try dsimp only
  repeat' first | with_reducible assumption | with_reducible apply onTime_kept | with_reducible apply raise_kept | split

theorem refAdvance_kept {d : Device} {x : RefDom} {o : Int} (hd : d.Kept S Q c k) : (Device.refAdvance d x o).Kept S Q c k := by
  unfold Device.refAdvance; try dsimp only
  repeat' first | with_reducible assumption | with_reducible apply onRef_kept | with_reducible apply refEnter_kept | split

theorem measureAt_kept {d : Device} {x : RefDom} {o : Int} {at_ : Time} (hd : d.Kept S Q c k) : (Device.measureAt d x o at_).Kept S Q c k := by
  unfold Device.measureAt; try dsimp only
  repeat' first
    | with_reducible assumption | with_reducible apply inc_kept | with_reducible apply onRef_kept | with_reducible apply raise_kept
    | with_reducible apply refAdvance_kept | with_reducible apply refLoss_kept | with_reducible apply reselect_kept
    | with_reducible apply startStep_kept | with_reducible apply steer_kept | split

theorem measure_kept {d : Device} {x : RefDom} {o : Int} (hd : d.Kept S Q c k) : (Device.measure d x o).Kept S Q c k := by
  unfold Device.measure; try dsimp only
  repeat' first | with_reducible assumption | with_reducible apply measureAt_kept

theorem gnssLabel_kept {d : Device} {x : RefDom} {second : Nat} (hd : d.Kept S Q c k) : (Device.gnssLabel d x second).Kept S Q c k := by
  unfold Device.gnssLabel; try dsimp only
  repeat' first | with_reducible assumption | with_reducible apply measureAt_kept | with_reducible apply onRef_kept | split

theorem ppsCapture_kept {d : Device} {x : RefDom} (hd : d.Kept S Q c k) : (Device.ppsCapture d x).Kept S Q c k := by
  unfold Device.ppsCapture; try dsimp only
  repeat' first | with_reducible assumption | with_reducible apply onRef_kept

theorem ppsEdge_kept {falling : Bool} {d : Device} (hd : d.Kept S Q c k) : (ppsEdge falling d).Kept S Q c k := by
  unfold ppsEdge; try dsimp only
  repeat' first | with_reducible assumption | with_reducible apply ppsCapture_kept | split

theorem feed_kept {d : Device} {x : RefDom} {v : DWord} (hd : d.Kept S Q c k) : (Device.feed d x v).Kept S Q c k := by
  unfold Device.feed; try dsimp only
  repeat' first | with_reducible assumption | with_reducible apply gnssLabel_kept | with_reducible apply measure_kept | split

theorem domFeed_kept {x : RefDom} {hi : Word} {d : Device} (hd : d.Kept S Q c k) : (domFeed x hi d).Kept S Q c k := by
  unfold domFeed; try dsimp only
  repeat' first | with_reducible assumption | with_reducible apply feed_kept | with_reducible apply keeperAccess_kept

theorem domainLossTimeout_kept {x : RefDom} {d : Device} (hd : d.Kept S Q c k) : (domainLossTimeout x d).Kept S Q c k := by
  unfold domainLossTimeout; try dsimp only
  repeat' first | with_reducible assumption | with_reducible apply refLoss_kept | split

theorem revertTimer_kept {d : Device} (hd : d.Kept S Q c k) : (revertTimer d).Kept S Q c k := by
  unfold revertTimer; try dsimp only
  repeat' first | with_reducible assumption | with_reducible apply reselect_kept | split

theorem timeGateTimeout_kept {d : Device} (hd : d.Kept S Q c k) : (timeGateTimeout d).Kept S Q c k := by
  unfold timeGateTimeout; try dsimp only
  repeat' first | with_reducible assumption | with_reducible apply openGate_kept | split

theorem rtcSecondWrite_kept {d : Device} (hd : d.Kept S Q c k) : (rtcSecondWrite d).Kept S Q c k := by
  unfold rtcSecondWrite; try dsimp only
  repeat' first
    | with_reducible assumption | split | (dsimp only) | (intro _ _ _; try dsimp only) | (simp only [kept_mk]) | (simp only [kept_mk_clk])

theorem timeReady_kept {d : Device} {fresh : Bool} (hd : d.Kept S Q c k) : (Device.timeReady d fresh).Kept S Q c k := by
  unfold Device.timeReady; try dsimp only
  repeat' first
    | with_reducible assumption | with_reducible apply onTime_kept | with_reducible apply refEnter_kept | with_reducible apply reselect_kept
    | split

theorem timeEclipse_kept {d : Device} (hd : d.Kept S Q c k) : (Device.timeEclipse d).Kept S Q c k := by
  unfold Device.timeEclipse; try dsimp only
  repeat' first
    | with_reducible assumption | with_reducible apply onTime_kept | with_reducible apply raise_kept | with_reducible apply refEnter_kept
    | split

theorem onDuty_kept {d : Device} {b : Band} {s : Nat} {f : DutyWin → DutyWin} (hd : d.Kept S Q c k) : (Device.onDuty d b s f).Kept S Q c k := by
  unfold Device.onDuty; try dsimp only
  repeat' first | with_reducible assumption | with_reducible apply onLant_kept

theorem dutyWatch_kept {d : Device} {b : Band} {s : Nat} (hd : d.Kept S Q c k) : (Device.dutyWatch d b s).Kept S Q c k := by
  unfold Device.dutyWatch; try dsimp only
  repeat' first | with_reducible assumption | with_reducible apply onDuty_kept | with_reducible apply raise_kept | split

theorem dutyWatchAll_kept {d : Device} (hd : d.Kept S Q c k) : (Device.dutyWatchAll d).Kept S Q c k := by
  unfold Device.dutyWatchAll; try dsimp only
  repeat' first
    | with_reducible assumption | with_reducible apply dutyWatch_kept | with_reducible apply foldl_kept | split | (dsimp only)
    | (intro _ _ _; try dsimp only)

theorem dutyCharge_kept {d : Device} {b : Band} {sp : Nat × Nat} {beacon : Bool} {q : Nat} {ends : Time}
    (hd : d.Kept S Q c k) : (Device.dutyCharge d b sp beacon q ends).Kept S Q c k := by
  unfold Device.dutyCharge; try dsimp only
  repeat' first
    | with_reducible assumption | with_reducible apply dutyWatch_kept | with_reducible apply onDuty_kept | with_reducible apply foldl_kept
    | split | (dsimp only) | (intro _ _ _; try dsimp only)

theorem dutyCut_kept {d : Device} {b : Band} {x : TxRun} {till : Time} (hd : d.Kept S Q c k) : (Device.dutyCut d b x till).Kept S Q c k := by
  unfold Device.dutyCut; try dsimp only
  repeat' first | with_reducible assumption | with_reducible apply dutyCharge_kept | split

theorem dutyHeld_kept {d : Device} {b : Band} {sp : Nat × Nat} {a : Nat} (hd : d.Kept S Q c k) : (Device.dutyHeld d b sp a).Kept S Q c k := by
  unfold Device.dutyHeld; try dsimp only
  repeat' first
    | with_reducible assumption | with_reducible apply inc_kept | with_reducible apply onDuty_kept | with_reducible apply raise_kept
    | with_reducible apply foldl_kept | split | (dsimp only) | (intro _ _ _; try dsimp only)

theorem dutyCold_kept {d : Device} (hd : d.Kept S Q c k) : (Device.dutyCold d).Kept S Q c k := by
  unfold Device.dutyCold; try dsimp only
  repeat' first
    | with_reducible assumption | with_reducible apply dutyWatchAll_kept | with_reducible apply onDuty_kept
    | with_reducible apply onLant_kept | with_reducible apply foldl_kept | split | (dsimp only) | (intro _ _ _; try dsimp only)

theorem dutyBucketRoll_kept {d : Device} (hd : d.Kept S Q c k) : (dutyBucketRoll d).Kept S Q c k := by
  unfold dutyBucketRoll; try dsimp only
  repeat' first | with_reducible assumption | with_reducible apply dutyWatchAll_kept | with_reducible apply onLant_kept

theorem dutyCarry_kept {d : Device} {b : Band} {old : ProfBand} {new : ProfBand}
    (hd : d.Kept S Q c k) : (Device.dutyCarry d b old new).Kept S Q c k := by
  unfold Device.dutyCarry; try dsimp only
  repeat' first
    | with_reducible assumption | with_reducible apply onDuty_kept | with_reducible apply foldl_kept | split | (dsimp only)
    | (intro _ _ _; try dsimp only)

theorem txAbort_kept {d : Device} {b : Band} (hd : d.Kept S Q c k) : (Device.txAbort d b).Kept S Q c k := by
  unfold Device.txAbort; try dsimp only
  repeat' first
    | with_reducible assumption | with_reducible apply cutTx_kept | with_reducible apply dropSeal_kept | with_reducible apply dutyCut_kept
    | with_reducible apply frameBack_kept | with_reducible apply onRad_kept | with_reducible apply replan_kept
    | with_reducible apply txOff_kept | with_reducible apply foldl_kept | split | (dsimp only) | (intro _ _ _; try dsimp only)

theorem gateWatch_kept {d : Device} (hd : d.Kept S Q c k) : (Device.gateWatch d).Kept S Q c k := by
  unfold Device.gateWatch; try dsimp only
  repeat' first
    | with_reducible assumption | with_reducible apply onLant_kept | with_reducible apply txAbort_kept | with_reducible apply foldl_kept
    | split | (dsimp only) | (intro _ _ _; try dsimp only)

end Sys2Proof.Machine
end

