-- ==== Sys2Proof/Laws/KeptLink.lean ====
section
/-! SUPPORT. What every operation keeps: the cipher, the memory, the spool and the Lantern. -/

-- One theorem at a time: in the package as one text many would otherwise wait at once, each on a thread of its own.
set_option Elab.async false

namespace Sys2Proof.Machine

variable {S : Prop} {Q : List Host.Cell → Prop} {c : Nat} {k : Otp} {d : Device}

theorem onKey_kept {d : Device} {c0 : Nat} {s : Nat} {f : KeyEntry → KeyEntry} (hd : d.Kept S Q c k) : (Device.onKey d c0 s f).Kept S Q c k := by
  unfold Device.onKey; try dsimp only
  repeat' first | with_reducible assumption | with_reducible apply onCiph_kept

theorem onRwin_kept {d : Device} {h0 : Nat} {s : Nat} {f : RWin → RWin} (hd : d.Kept S Q c k) : (Device.onRwin d h0 s f).Kept S Q c k := by
  unfold Device.onRwin; try dsimp only
  repeat' first | with_reducible assumption | with_reducible apply onCiph_kept

theorem emptySlot_kept {d : Device} {c0 : Nat} {s : Nat} (hd : d.Kept S Q c k) : (Device.emptySlot d c0 s).Kept S Q c k := by
  unfold Device.emptySlot; try dsimp only
  repeat' first | with_reducible assumption | with_reducible apply onClient_kept | with_reducible apply onKey_kept | split

theorem keyAnnounced_kept {d : Device} {e0 : Nat} (hd : d.Kept S Q c k) : (Device.keyAnnounced d e0).Kept S Q c k := by
  unfold Device.keyAnnounced; try dsimp only
  repeat' first | with_reducible assumption | with_reducible apply onCiph_kept | with_reducible apply raise_kept | split

theorem keyWatch_kept {d : Device} {e0 : Nat} (hd : d.Kept S Q c k) : (Device.keyWatch d e0).Kept S Q c k := by
  unfold Device.keyWatch; try dsimp only
  repeat' first | with_reducible assumption | with_reducible apply keyAnnounced_kept | split

theorem keyRefused_kept {d : Device} {e0 : Nat} (hd : d.Kept S Q c k) : (Device.keyRefused d e0).Kept S Q c k := by
  unfold Device.keyRefused; try dsimp only
  repeat' first | with_reducible assumption | with_reducible apply keyWatch_kept | with_reducible apply raise_kept

theorem keyCount_kept {d : Device} {e0 : Nat} {n : Nat} (hd : d.Kept S Q c k) : (Device.keyCount d e0 n).Kept S Q c k := by
  unfold Device.keyCount; try dsimp only
  repeat' first | with_reducible assumption | with_reducible apply keyWatch_kept | with_reducible apply onCiph_kept

theorem slotSwitch_kept {d : Device} {c0 : Nat} {e0 : Nat} (hd : d.Kept S Q c k) : (Device.slotSwitch d c0 e0).Kept S Q c k := by
  unfold Device.slotSwitch; try dsimp only
  repeat' first | with_reducible assumption | with_reducible apply onClient_kept | with_reducible apply onKey_kept | split

theorem slotDue_kept {d : Device} {c0 : Nat} {sf : Nat} (hd : d.Kept S Q c k) : (Device.slotDue d c0 sf).Kept S Q c k := by
  unfold Device.slotDue; try dsimp only
  repeat' first | with_reducible assumption | with_reducible apply emptySlot_kept | with_reducible apply slotSwitch_kept | split

theorem epochSwitch_kept {d : Device} {sf : Nat} (hd : d.Kept S Q c k) : (Device.epochSwitch d sf).Kept S Q c k := by
  unfold Device.epochSwitch; try dsimp only
  repeat' first
    | with_reducible assumption | with_reducible apply slotDue_kept | with_reducible apply foldl_kept | split | (dsimp only)
    | (intro _ _ _; try dsimp only)

theorem deriveInto_kept {d : Device} {c0 : Nat} {s : Nat} {epoch : Nat} {root : Root} {st : KeySt}
    (hd : d.Kept S Q c k) : (Device.deriveInto d c0 s epoch root st).Kept S Q c k := by
  unfold Device.deriveInto; try dsimp only
  repeat' first | with_reducible assumption | with_reducible apply onKey_kept

theorem freshWins_kept {d : Device} {c0 : Nat} {s : Nat} (hd : d.Kept S Q c k) : (Device.freshWins d c0 s).Kept S Q c k := by
  unfold Device.freshWins; try dsimp only
  repeat' first
    | with_reducible assumption | with_reducible apply onRwin_kept | with_reducible apply foldl_kept | split | (dsimp only)
    | (intro _ _ _; try dsimp only)

theorem kdfFail_kept {d : Device} (hd : d.Kept S Q c k) : (Device.kdfFail d).Kept S Q c k := by
  unfold Device.kdfFail; try dsimp only
  repeat' first | with_reducible assumption | with_reducible apply onCiph_kept | with_reducible apply raise_kept

theorem jobStart_kept {d : Device} {j : Job} (hd : d.Kept S Q c k) : (Device.jobStart d j).Kept S Q c k := by
  unfold Device.jobStart; try dsimp only
  repeat' first | with_reducible assumption | with_reducible apply onCiph_kept

theorem jobWait_kept {d : Device} {kind : JobKind} {entry : Option Nat} {kMac : Block} {kEnc : Block}
    (hd : d.Kept S Q c k) : (Device.jobWait d kind entry kMac kEnc).Kept S Q c k := by
  unfold Device.jobWait; try dsimp only
  repeat' first | with_reducible assumption | with_reducible apply onCiph_kept

theorem unsend_kept {d : Device} {b : Band} {id : Nat} {x : TxRun} {why : Requeue}
    (hd : d.Kept S Q c k) : (Device.unsend d b id x why).Kept S Q c k := by
  unfold Device.unsend; try dsimp only
  repeat' first
    | with_reducible assumption | with_reducible apply frameBack_kept | with_reducible apply onRad_kept | with_reducible apply replan_kept
    | with_reducible apply txOff_kept | split

theorem sealLate_kept {d : Device} {b : Band} {id : Nat} {x : TxRun} (hd : d.Kept S Q c k) : (Device.sealLate d b id x).Kept S Q c k := by
  unfold Device.sealLate; try dsimp only
  repeat' first
    | with_reducible assumption | with_reducible apply inc16_kept | with_reducible apply lateLock_kept | with_reducible apply raiseRad_kept
    | with_reducible apply unsend_kept

theorem admitSeal_kept {d : Device} {j : Job} {b : Band} {f : TxFrame} (hd : d.Kept S Q c k) : (Device.admitSeal d j b f).Kept S Q c k := by
  unfold Device.admitSeal; try dsimp only
  repeat' first
    | with_reducible assumption | with_reducible apply jobStart_kept | with_reducible apply keyRefused_kept
    | with_reducible apply sealLate_kept | with_reducible apply unsend_kept | split

theorem checkTry_kept {d : Device} {b : Band} {c0 : Nat} {h0 : Nat} {f : Bytes} {a5 : List Nat} {x0 : Checked} {rr : Device}
    (e : (Device.checkTry d b c0 h0 f a5) = (x0, rr)) (hd : d.Kept S Q c k) : rr.Kept S Q c k := by
  revert x0 rr
  fun_induction Device.checkTry d b c0 h0 f a5
  all_goals intro x0 rr e
  all_goals try dsimp only at e
  all_goals first | (cases e; done) | (cases e; (repeat' first | with_reducible assumption | with_reducible apply keyCount_kept | with_reducible apply keyRefused_kept | with_reducible apply onRwin_kept); done) | (apply_assumption <;> first | exact e | (repeat' first | with_reducible assumption | with_reducible apply keyCount_kept); done)

theorem checkTry_kept2 {d : Device} {b : Band} {c0 : Nat} {h0 : Nat} {f : Bytes} {a5 : List Nat}
    (hd : d.Kept S Q c k) : (Device.checkTry d b c0 h0 f a5).2.Kept S Q c k := checkTry_kept (rr := (Device.checkTry d b c0 h0 f a5).2) rfl hd

theorem checkJoin_kept {d : Device} {b : Band} {f : Bytes} {x0 : Checked} {rr : Device}
    (e : (Device.checkJoin d b f) = (x0, rr)) (hd : d.Kept S Q c k) : rr.Kept S Q c k := by
  unfold Device.checkJoin at e; try dsimp only at e
  repeat' split at e
  all_goals first | (cases e; done) | (cases e; (repeat' first | with_reducible assumption | with_reducible apply onCiph_kept); done)

theorem checkJoin_kept2 {d : Device} {b : Band} {f : Bytes}
    (hd : d.Kept S Q c k) : (Device.checkJoin d b f).2.Kept S Q c k := checkJoin_kept (rr := (Device.checkJoin d b f).2) rfl hd

theorem check_kept {d : Device} {b : Band} {sf : Nat} {f : Bytes} {x0 : Checked} {rr : Device}
    (e : (Device.check d b sf f) = (x0, rr)) (hd : d.Kept S Q c k) : rr.Kept S Q c k := by
  unfold Device.check at e; try dsimp only at e
  repeat' split at e
  all_goals first | (cases e; done) | (cases e; (repeat' first | with_reducible assumption); done) | (refine checkJoin_kept e ?_; (repeat' first | with_reducible assumption); done) | (refine checkTry_kept e ?_; (repeat' first | with_reducible assumption); done)

theorem check_kept2 {d : Device} {b : Band} {sf : Nat} {f : Bytes}
    (hd : d.Kept S Q c k) : (Device.check d b sf f).2.Kept S Q c k := check_kept (rr := (Device.check d b sf f).2) rfl hd

theorem countResult_kept {d : Device} {r0 : Nat} (hd : d.Kept S Q c k) : (Device.countResult d r0).Kept S Q c k := by
  unfold Device.countResult; try dsimp only
  repeat' first | with_reducible assumption | with_reducible apply inc_kept | with_reducible apply raise_kept | split

theorem takeCounter_kept {d : Device} {c0 : Nat} {h0 : Nat} {s : Nat} {x0 : Nat} {rr : Device}
    (e : (Device.takeCounter d c0 h0 s) = (x0, rr)) (hd : d.Kept S Q c k) : rr.Kept S Q c k := by
  unfold Device.takeCounter at e; try dsimp only at e
  repeat' split at e
  all_goals first | (cases e; done) | (cases e; (repeat' first | with_reducible assumption | with_reducible apply keyAnnounced_kept | with_reducible apply onRwin_kept); done)

theorem takeCounter_kept2 {d : Device} {c0 : Nat} {h0 : Nat} {s : Nat}
    (hd : d.Kept S Q c k) : (Device.takeCounter d c0 h0 s).2.Kept S Q c k := takeCounter_kept (rr := (Device.takeCounter d c0 h0 s).2) rfl hd

theorem jobAdmit_kept {d : Device} (hd : d.Kept S Q c k) : (jobAdmit d).Kept S Q c k := by
  unfold jobAdmit; try dsimp only
  repeat' first
    | with_reducible assumption | with_reducible apply admitSeal_kept | with_reducible apply jobStart_kept
    | with_reducible apply onCiph_kept | split

theorem submit_kept {d : Device} {kind : JobKind} {entry : Option Nat} {kMac : Block} {kEnc : Block}
    (hd : d.Kept S Q c k) : (Device.submit d kind entry kMac kEnc).Kept S Q c k := by
  unfold Device.submit; try dsimp only
  repeat' first | with_reducible assumption | with_reducible apply jobAdmit_kept | with_reducible apply jobWait_kept | split

theorem jobDone_kept {d : Device} {id : Nat} (hd : d.Kept S Q c k) : (Device.jobDone d id).Kept S Q c k := by
  unfold Device.jobDone; try dsimp only
  repeat' first | with_reducible assumption | with_reducible apply onCiph_kept

theorem kdfGo_kept {d : Device} {c0 : Nat} {s : Nat} {epoch : Nat} {why : DeriveFor}
    (hd : d.Kept S Q c k) : (Device.kdfGo d c0 s epoch why).Kept S Q c k := by
  unfold Device.kdfGo; try dsimp only
  repeat' first
    | with_reducible assumption | with_reducible apply kdfFail_kept | with_reducible apply onCiph_kept | with_reducible apply submit_kept
    | split

theorem kdfCmd_kept {v : Word} {d : Device} (hd : d.Kept S Q c k) : (kdfCmd v d).Kept S Q c k := by
  unfold kdfCmd; try dsimp only
  repeat' first | with_reducible assumption | with_reducible apply kdfGo_kept | with_reducible apply keeperAccess_kept | split

theorem deriveDrop_kept {d : Device} {c0 : Nat} (hd : d.Kept S Q c k) : (Device.deriveDrop d c0).Kept S Q c k := by
  unfold Device.deriveDrop; try dsimp only
  repeat' first | with_reducible assumption | with_reducible apply onCiph_kept

theorem keyServiceEpoch_kept {client : Fin 8192} {d : Device} (hd : d.Kept S Q c k) : (keyServiceEpoch client d).Kept S Q c k := by
  unfold keyServiceEpoch; try dsimp only
  repeat' first | with_reducible assumption | with_reducible apply kdfGo_kept | split

theorem Mem.onChan_bytes (m : Mem) (ch : Nat) (f : Channel → Channel) : (m.onChan ch f).bytes = m.bytes := by
  unfold Mem.onChan; split <;> rfl

theorem onChan_kept {ch : Nat} {f : Channel → Channel} (h : d.Kept S Q c k) : (d.onMem fun m => m.onChan ch f).Kept S Q c k :=
  onMem_kept (fun w => by rw [Mem.onChan_bytes]; exact w) h

theorem dramAdmit_kept {d : Device} {ch : Nat} {r : DReq} (h : d.Kept S Q c k) : (d.dramAdmit ch r).Kept S Q c k := by
  unfold Device.dramAdmit; dsimp only; split
  · exact inc_kept (onChan_kept h)
  · exact onChan_kept h

theorem dramRequest_kept {req addr : Nat} {keepOpen : Bool} {data : Option Bytes} {d : Device}
    (h : d.Kept S Q c k) : (dramRequest req addr keepOpen data d).Kept S Q c k := by
  unfold dramRequest; dsimp only
  split
  · exact h
  · have h1 : (d.onMem fun m => { m with nextReq := m.nextReq + 1 }).Kept S Q c k := onMem_kept (fun w => w) h
    split
    · exact dramAdmit_kept h1
    · exact onChan_kept h1

theorem dramMove_kept {d : Device} {r : DReq} (hq : MemClosed Q) (h : d.Kept S Q c k) : (d.dramMove r).Kept S Q c k := by
  unfold Device.dramMove; split
  · exact onMem_kept (hq.2.1 _ _ _) h
  · exact emit_kept h

theorem dramRequestComplete_kept {ch : Fin 2} {d : Device} (hq : MemClosed Q) (h : d.Kept S Q c k) : (dramRequestComplete ch d).Kept S Q c k := by
  unfold dramRequestComplete; dsimp only; split
  · exact h
  · split
    · exact onChan_kept (dramMove_kept hq (inc_kept h))
    · exact dramAdmit_kept (onChan_kept (onChan_kept (dramMove_kept hq (inc_kept h))))

theorem rowCloseTimeout_kept {ch : Fin 2} {bank : Fin 8} {d : Device} (h : d.Kept S Q c k) : (rowCloseTimeout ch bank d).Kept S Q c k := by
  unfold rowCloseTimeout; dsimp only; split
  · exact onChan_kept h
  · exact h

theorem refreshDue_kept {ch : Fin 2} {d : Device} (h : d.Kept S Q c k) : (refreshDue ch d).Kept S Q c k := by
  unfold refreshDue; split
  · exact onChan_kept h
  · exact h

theorem selfRefreshEntry_kept {ch : Fin 2} {d : Device} (h : d.Kept S Q c k) : (selfRefreshEntry ch d).Kept S Q c k := by
  unfold selfRefreshEntry; dsimp only; split
  · exact inc_kept (onChan_kept h)
  · exact h

theorem raiseMarginal_kept {l : List Nat} : ∀ {d : Device}, d.Kept S Q c k → (d.raiseMarginal l).Kept S Q c k := by
  induction l with
  | nil => exact fun h => h
  | cons i r ih =>
    intro d h; unfold Device.raiseMarginal; refine ih ?_; split
    · exact raise_kept h
    · exact h

theorem dramLost_kept {d : Device} (hq : MemClosed Q) (h : d.Kept S Q c k) : d.dramLost.Kept S Q c k := onMem_kept (hq.2.2 _ _) h

theorem trainAreaLost_kept {d : Device} (hq : MemClosed Q) (h : d.Kept S Q c k) : d.trainAreaLost.Kept S Q c k := onMem_kept (hq.2.2 _ _) h

theorem trainFull_kept {d : Device} {run : TrainRun} (hq : MemClosed Q) (h : d.Kept S Q c k) : (d.trainFull run).Kept S Q c k := by
  unfold Device.trainFull; exact raiseMarginal_kept (onMem_kept (fun w => w) (trainAreaLost_kept hq h))

theorem trainWarm_kept {d : Device} {runs : List TrainRun} (hq : MemClosed Q) (h : d.Kept S Q c k) : (d.trainWarm runs).Kept S Q c k := by
  unfold Device.trainWarm; extract_lets run bad; split
  · exact trainFull_kept hq (raise_kept h)
  · refine raiseMarginal_kept (onMem_kept ?_ h); exact id

theorem onCv_kept {d : Device} {n : Nat} {f : Cv → Cv} (hd : d.Kept S Q c k) : (Device.onCv d n f).Kept S Q c k := by
  unfold Device.onCv; try dsimp only
  repeat' first | with_reducible assumption | split | (dsimp only) | (intro _ _ _; try dsimp only) | (simp only [kept_mk])

theorem cvPut_kept {d : Device} {req : Nat} {n : Nat} {op : CvOp} (hd : d.Kept S Q c k) : (Device.cvPut d req n op).Kept S Q c k := by
  unfold Device.cvPut; try dsimp only
  repeat' first | with_reducible assumption | with_reducible apply onCv_kept

theorem cvStart_kept {req : Nat} {n : Fin 4} {d : Device} (hd : d.Kept S Q c k) : (cvStart req n d).Kept S Q c k := by
  unfold cvStart; try dsimp only
  repeat' first | with_reducible assumption | with_reducible apply access_kept | with_reducible apply cvPut_kept

theorem cvData_kept {req : Nat} {n : Fin 4} {v : Word} {d : Device} (hd : d.Kept S Q c k) : (cvData req n v d).Kept S Q c k := by
  unfold cvData; try dsimp only
  repeat' first | with_reducible assumption | with_reducible apply access_kept | with_reducible apply cvPut_kept

theorem cvStateWrite_kept {req : Nat} {n : Fin 4} {hi : Word} {d : Device} (hd : d.Kept S Q c k) : (cvStateWrite req n hi d).Kept S Q c k := by
  unfold cvStateWrite; try dsimp only
  repeat' first | with_reducible assumption | with_reducible apply access_kept | with_reducible apply cvPut_kept

theorem keepSend_kept {d : Device} {ch : Nat} (hd : d.Kept S Q c k) : (Device.keepSend d ch).Kept S Q c k := by
  unfold Device.keepSend; try dsimp only
  repeat' first | with_reducible assumption | with_reducible apply onRng_kept | with_reducible apply rngSend_kept | split

theorem onMirror_kept {d : Device} {ch : Nat} {f : MirChan → MirChan} (hd : d.Kept S Q c k) : (Device.onMirror d ch f).Kept S Q c k := by
  unfold Device.onMirror; try dsimp only
  repeat' first | with_reducible assumption | with_reducible apply onRng_kept

theorem mirrorEmit_kept {d : Device} {ch : Nat} {f : MirFrame} (hd : d.Kept S Q c k) : (Device.mirrorEmit d ch f).Kept S Q c k := by
  unfold Device.mirrorEmit; try dsimp only
  repeat' first | with_reducible assumption | with_reducible apply freeNext_kept | with_reducible apply rngOut_kept | split

theorem mirrorPump_kept {d : Device} {ch : Nat} {a2 : Nat} (hd : d.Kept S Q c k) : (Device.mirrorPump d ch a2).Kept S Q c k := by
  fun_induction Device.mirrorPump d ch a2
  all_goals try dsimp only
  all_goals repeat' first
    | with_reducible assumption | with_reducible apply mirrorEmit_kept | with_reducible apply onMirror_kept | split | (dsimp only)
    | (intro _ _ _; try dsimp only) | (simp only [kept_mk]) | (simp only [kept_mk_clk]) | (apply_assumption)

theorem mirrorQueue_kept {d : Device} {ch : Nat} {l : List MirRec} (hd : d.Kept S Q c k) : (Device.mirrorQueue d ch l).Kept S Q c k := by
  unfold Device.mirrorQueue; try dsimp only
  repeat' first | with_reducible assumption | with_reducible apply mirrorPump_kept | with_reducible apply onMirror_kept

theorem enterResync_kept {d : Device} (hd : d.Kept S Q c k) : (Device.enterResync d).Kept S Q c k := by
  unfold Device.enterResync; try dsimp only
  repeat' first
    | with_reducible assumption | with_reducible apply onMirror_kept | with_reducible apply onTwin_kept | with_reducible apply raise_kept
    | with_reducible apply foldl_kept | split | (dsimp only) | (intro _ _ _; try dsimp only)

theorem resyncCopies_kept {d : Device} (hd : d.Kept S Q c k) : (Device.resyncCopies d).Kept S Q c k := by
  unfold Device.resyncCopies; try dsimp only
  repeat' first | with_reducible assumption | with_reducible apply mirrorQueue_kept

theorem mirrorNow_kept {d : Device} {ch : Nat} {l : List MirRec} (hd : d.Kept S Q c k) : (Device.mirrorNow d ch l).Kept S Q c k := by
  unfold Device.mirrorNow; try dsimp only
  repeat' first
    | with_reducible assumption | with_reducible apply mirrorQueue_kept | with_reducible apply onRng_kept | with_reducible apply onTwin_kept
    | with_reducible apply raise_kept | with_reducible apply resyncCopies_kept | split

theorem derived_kept {d : Device} {c0 : Nat} {s : Nat} {epoch : Nat} {a4 : DeriveFor}
    (hd : d.Kept S Q c k) : (Device.derived d c0 s epoch a4).Kept S Q c k := by
  unfold Device.derived; try dsimp only
  repeat' first
    | with_reducible assumption | with_reducible apply freshWins_kept | with_reducible apply keyWatch_kept
    | with_reducible apply onClient_kept | with_reducible apply onKey_kept | split

theorem mirrorKeySlot_kept {d : Device} {c0 : Nat} {s : Nat} (hd : d.Kept S Q c k) : (Device.mirrorKeySlot d c0 s).Kept S Q c k := by
  unfold Device.mirrorKeySlot; try dsimp only
  repeat' first | with_reducible assumption | with_reducible apply mirrorNow_kept

theorem kdfJobEnd_kept {d : Device} (hd : d.Kept S Q c k) : (kdfJobEnd d).Kept S Q c k := by
  unfold kdfJobEnd; try dsimp only
  repeat' first
    | with_reducible assumption | with_reducible apply deriveInto_kept | with_reducible apply derived_kept
    | with_reducible apply jobDone_kept | with_reducible apply kdfFail_kept | with_reducible apply mirrorKeySlot_kept
    | with_reducible apply onCiph_kept | split

theorem control_kept {d : Device} {r0 : MirRec} (hd : d.Kept S Q c k) : (Device.control d r0).Kept S Q c k := by
  unfold Device.control; try dsimp only
  repeat' first | with_reducible assumption | with_reducible apply mirrorQueue_kept | split

theorem mirrorBoundary_kept {d : Device} (hd : d.Kept S Q c k) : (Device.mirrorBoundary d).Kept S Q c k := by
  unfold Device.mirrorBoundary; try dsimp only
  repeat' first
    | with_reducible assumption | with_reducible apply mirrorNow_kept | with_reducible apply onTwin_kept | with_reducible apply foldl_kept
    | split

theorem mirrorCounter_kept {d : Device} {h0 : Nat} {s : Nat} (hd : d.Kept S Q c k) : (Device.mirrorCounter d h0 s).Kept S Q c k := by
  unfold Device.mirrorCounter; try dsimp only
  repeat' first | with_reducible assumption | with_reducible apply mirrorNow_kept | with_reducible apply onTwin_kept | split

theorem spoolWriteAt_kept {d : Device} {i : Nat} {x : Bytes}
    (hq : MemClosed Q) (h : d.Kept S Q c k) : (d.spoolWriteAt i x).Kept S Q c k := onMem_kept (hq.2.1 _ _ _) h

theorem mirrorPos_kept {d : Device} (hd : d.Kept S Q c k) : (Device.mirrorPos d).Kept S Q c k := by
  unfold Device.mirrorPos; try dsimp only
  repeat' first | with_reducible assumption | with_reducible apply mirrorNow_kept

theorem spoolStore_kept {d : Device} {e0 : Bytes} (hq : MemClosed Q) (hd : d.Kept S Q c k) : (Device.spoolStore d e0).Kept S Q c k := by
  unfold Device.spoolStore; try dsimp only
  repeat' first
    | with_reducible assumption | with_reducible apply mirrorNow_kept | with_reducible apply onKeep_kept
    | with_reducible apply spoolWriteAt_kept

theorem spoolWatch_kept {d : Device} (hd : d.Kept S Q c k) : (Device.spoolWatch d).Kept S Q c k := by
  unfold Device.spoolWatch; try dsimp only
  repeat' first | with_reducible assumption | with_reducible apply onKeep_kept | with_reducible apply raise_kept | split

theorem spoolRoom_kept {d : Device} (hd : d.Kept S Q c k) : (Device.spoolRoom d).Kept S Q c k := by
  unfold Device.spoolRoom; try dsimp only
  repeat' first
    | with_reducible assumption | with_reducible apply inc_kept | with_reducible apply mirrorPos_kept | with_reducible apply onKeep_kept
    | with_reducible apply raise_kept | split

theorem spoolPut_kept {d : Device} {es : List Bytes} (hq : MemClosed Q) (hd : d.Kept S Q c k) : (Device.spoolPut d es).Kept S Q c k := by
  unfold Device.spoolPut; try dsimp only
  repeat' first
    | with_reducible assumption | with_reducible apply inc_kept | with_reducible apply raise_kept | with_reducible apply spoolRoom_kept
    | with_reducible apply spoolStore_kept | with_reducible apply spoolWatch_kept | with_reducible apply foldl_kept | split | (dsimp only)
    | (intro _ _ _; try dsimp only)

theorem spoolReport_kept {d : Device} {m : RepMeta} {body : Bytes}
    (hq : MemClosed Q) (hd : d.Kept S Q c k) : (Device.spoolReport d m body).Kept S Q c k := by
  unfold Device.spoolReport; try dsimp only
  repeat' first
    | with_reducible assumption | with_reducible apply mirrorPos_kept | with_reducible apply onKeep_kept | with_reducible apply raise_kept
    | with_reducible apply spoolPut_kept | split

theorem spoolRoster_kept {d : Device} {kind : Nat} {b : Band} {client : Nat} {link : Nat} {body : Bytes}
    (hq : MemClosed Q) (hd : d.Kept S Q c k) : (Device.spoolRoster d kind b client link body).Kept S Q c k := by
  unfold Device.spoolRoster; try dsimp only
  repeat' first | with_reducible assumption | with_reducible apply spoolPut_kept | split

theorem spoolSend_kept {d : Device} {a1 : Nat} (hd : d.Kept S Q c k) : (Device.spoolSend d a1).Kept S Q c k := by
  fun_induction Device.spoolSend d a1
  all_goals try dsimp only
  all_goals repeat' first
    | with_reducible assumption | with_reducible apply emit_kept | with_reducible apply onKeep_kept | split | (dsimp only)
    | (intro _ _ _; try dsimp only) | (simp only [kept_mk]) | (simp only [kept_mk_clk]) | (apply_assumption)

theorem spoolWrite_kept {d : Device} (hq : MemClosed Q) (hd : d.Kept S Q c k) : (spoolWrite d).Kept S Q c k := by
  unfold spoolWrite; try dsimp only
  repeat' first
    | with_reducible assumption | with_reducible apply onKeep_kept | with_reducible apply spoolReport_kept
    | with_reducible apply spoolSend_kept | split

theorem spoolAckRx_kept {m : Bytes} {d : Device} (hd : d.Kept S Q c k) : (spoolAckRx m d).Kept S Q c k := by
  unfold spoolAckRx; try dsimp only
  repeat' first
    | with_reducible assumption | with_reducible apply mirrorPos_kept | with_reducible apply onKeep_kept
    | with_reducible apply spoolSend_kept | with_reducible apply spoolWatch_kept | split

theorem spoolFwdTimeout_kept {d : Device} (hd : d.Kept S Q c k) : (spoolFwdTimeout d).Kept S Q c k := by
  unfold spoolFwdTimeout; try dsimp only
  repeat' first
    | with_reducible assumption | with_reducible apply onKeep_kept | with_reducible apply raise_kept | with_reducible apply spoolSend_kept
    | split

theorem commitAt_kept {d : Device} {plan : List PlanRec} {n : Nat} (hd : d.Kept S Q c k) : (Device.commitAt d plan n).Kept S Q c k := by
  unfold Device.commitAt; try dsimp only
  repeat' first | with_reducible assumption | with_reducible apply mirrorNow_kept | with_reducible apply onLant_kept

theorem keeperPlan_kept {d : Device} {f : List PlanRec → List PlanRec} (hd : d.Kept S Q c k) : (Device.keeperPlan d f).Kept S Q c k := by
  unfold Device.keeperPlan; try dsimp only
  repeat' first | with_reducible assumption | with_reducible apply commitAt_kept | split

theorem grantsBoundary_kept {d : Device} {sf : Nat} (hd : d.Kept S Q c k) : (Device.grantsBoundary d sf).Kept S Q c k := by
  unfold Device.grantsBoundary; try dsimp only
  repeat' first
    | with_reducible assumption | with_reducible apply keeperPlan_kept | with_reducible apply onLant_kept | with_reducible apply foldl_kept
    | split

theorem stopWindows_kept {d : Device} {c0 : Nat} (hd : d.Kept S Q c k) : (Device.stopWindows d c0).Kept S Q c k := by
  unfold Device.stopWindows; try dsimp only
  repeat' first
    | with_reducible assumption | with_reducible apply onRad_kept | with_reducible apply foldl_kept | split | (dsimp only)
    | (intro _ _ _; try dsimp only)

theorem release_kept {d : Device} {c0 : Nat} {reason : Nat} (hq : MemClosed Q) (hd : d.Kept S Q c k) : (Device.release d c0 reason).Kept S Q c k := by
  unfold Device.release; try dsimp only
  repeat' first
    | with_reducible assumption | with_reducible apply flushLinks_kept | with_reducible apply inc_kept
    | with_reducible apply keeperPlan_kept | with_reducible apply mirrorNow_kept | with_reducible apply onClient_kept
    | with_reducible apply onLant_kept | with_reducible apply raise_kept | with_reducible apply spoolRoster_kept
    | with_reducible apply stopWindows_kept | split

theorem freeClient_kept {d : Device} {c0 : Nat} (hd : d.Kept S Q c k) : (Device.freeClient d c0).Kept S Q c k := by
  unfold Device.freeClient; try dsimp only
  repeat' first
    | with_reducible assumption | with_reducible apply flushLinks_kept | with_reducible apply mirrorNow_kept
    | with_reducible apply onClient_kept | with_reducible apply onKey_kept | with_reducible apply onLant_kept
    | with_reducible apply onLink_kept | with_reducible apply foldl_kept | split | (dsimp only) | (intro _ _ _; try dsimp only)

theorem reapClients_kept {d : Device} (hd : d.Kept S Q c k) : (Device.reapClients d).Kept S Q c k := by
  unfold Device.reapClients; try dsimp only
  repeat' first
    | with_reducible assumption | with_reducible apply freeClient_kept | with_reducible apply keeperPlan_kept
    | with_reducible apply foldl_kept | split | (dsimp only) | (intro _ _ _; try dsimp only)

theorem spoolReleased_kept {d : Device} (hq : MemClosed Q) (hd : d.Kept S Q c k) : (Device.spoolReleased d).Kept S Q c k := by
  unfold Device.spoolReleased; try dsimp only
  repeat' first
    | with_reducible assumption | with_reducible apply spoolRoster_kept | with_reducible apply foldl_kept | split | (dsimp only)
    | (intro _ _ _; try dsimp only)

theorem onNote_kept {d : Device} {g : Nat} {sf : Nat} {f : GrantNote → GrantNote} (hd : d.Kept S Q c k) : (Device.onNote d g sf f).Kept S Q c k := by
  unfold Device.onNote; try dsimp only
  repeat' first | with_reducible assumption | with_reducible apply onLant_kept

theorem addNotes_kept {d : Device} {sf : Nat} (hd : d.Kept S Q c k) : (Device.addNotes d sf).Kept S Q c k := by
  unfold Device.addNotes; try dsimp only
  repeat' first | with_reducible assumption | with_reducible apply onLant_kept

theorem clientHeard_kept {d : Device} {c0 : Nat} {g : Nat} {sf : Nat} {t : Time}
    (hd : d.Kept S Q c k) : (Device.clientHeard d c0 g sf t).Kept S Q c k := by
  unfold Device.clientHeard; try dsimp only
  repeat' first | with_reducible assumption | with_reducible apply onClient_kept | with_reducible apply onLant_kept

theorem linkHeard_kept {d : Device} {h0 : Nat} (hd : d.Kept S Q c k) : (Device.linkHeard d h0).Kept S Q c k := by
  unfold Device.linkHeard; try dsimp only
  repeat' first | with_reducible assumption | with_reducible apply onLink_kept | with_reducible apply raise_kept | split

theorem linkMissed_kept {d : Device} {h0 : Nat} (hd : d.Kept S Q c k) : (Device.linkMissed d h0).Kept S Q c k := by
  unfold Device.linkMissed; try dsimp only
  repeat' first | with_reducible assumption | with_reducible apply onLink_kept | with_reducible apply raise_kept | split

theorem clientMiss_kept {d : Device} {c0 : Nat} (hq : MemClosed Q) (hd : d.Kept S Q c k) : (Device.clientMiss d c0).Kept S Q c k := by
  unfold Device.clientMiss; try dsimp only
  repeat' first
    | with_reducible assumption | with_reducible apply inc_kept | with_reducible apply onClient_kept | with_reducible apply raise_kept
    | with_reducible apply release_kept | split

theorem firstMiss_kept {d : Device} {c0 : Nat} {start : Nat}
    (hq : MemClosed Q) (hd : d.Kept S Q c k) : (Device.firstMiss d c0 start).Kept S Q c k := by
  unfold Device.firstMiss; try dsimp only
  repeat' first | with_reducible assumption | with_reducible apply onClient_kept | with_reducible apply release_kept | split

theorem noteDecide_kept {d : Device} {n : GrantNote} (hq : MemClosed Q) (hd : d.Kept S Q c k) : (Device.noteDecide d n).Kept S Q c k := by
  unfold Device.noteDecide; try dsimp only
  repeat' first
    | with_reducible assumption | with_reducible apply clientMiss_kept | with_reducible apply firstMiss_kept
    | with_reducible apply linkMissed_kept | split

theorem noteSettle_kept {d : Device} {g : Nat} {sf : Nat} (hq : MemClosed Q) (hd : d.Kept S Q c k) : (Device.noteSettle d g sf).Kept S Q c k := by
  unfold Device.noteSettle; try dsimp only
  repeat' first | with_reducible assumption | with_reducible apply noteDecide_kept | with_reducible apply onNote_kept | split

theorem noteClose_kept {d : Device} {g : Nat} {sf : Nat} {lost : Bool}
    (hq : MemClosed Q) (hd : d.Kept S Q c k) : (Device.noteClose d g sf lost).Kept S Q c k := by
  unfold Device.noteClose; try dsimp only
  repeat' first | with_reducible assumption | with_reducible apply noteSettle_kept | with_reducible apply onNote_kept | split

theorem noteChecked_kept {d : Device} {g : Nat} {sf : Nat} {pass : Bool}
    (hq : MemClosed Q) (hd : d.Kept S Q c k) : (Device.noteChecked d g sf pass).Kept S Q c k := by
  unfold Device.noteChecked; try dsimp only
  repeat' first
    | with_reducible assumption | with_reducible apply noteSettle_kept | with_reducible apply onNote_kept | with_reducible apply foldl_kept
    | split | (dsimp only) | (intro _ _ _; try dsimp only)

theorem calTryGap_kept {d : Device} {b : Band} {back : Bool} (hd : d.Kept S Q c k) : (Device.calTryGap d b back).Kept S Q c k := by
  unfold Device.calTryGap; try dsimp only
  repeat' first | with_reducible assumption | with_reducible apply calStart_kept | split

theorem calGapStart_kept {b : Band} {d : Device} (hd : d.Kept S Q c k) : (calGapStart b d).Kept S Q c k := by
  unfold calGapStart; try dsimp only
  repeat' first | with_reducible assumption | with_reducible apply calTryGap_kept

theorem synthCalEnd_kept {b : Band} {locked : Bool} {d : Device} (hd : d.Kept S Q c k) : (synthCalEnd b locked d).Kept S Q c k := by
  unfold synthCalEnd; try dsimp only
  repeat' first
    | with_reducible assumption | with_reducible apply calTryGap_kept | with_reducible apply forcedCalStart_kept
    | with_reducible apply onRad_kept | with_reducible apply raiseRad_kept | with_reducible apply replan_kept
    | with_reducible apply retime_kept | split

theorem txBeacon_kept {d : Device} {b : Band} {ret : BitVec 3} {lr : Bool} (hd : d.Kept S Q c k) : (Device.txBeacon d b ret lr).Kept S Q c k := by
  unfold Device.txBeacon; try dsimp only
  repeat' first
    | with_reducible assumption | with_reducible apply inc_kept | with_reducible apply onLant_kept | with_reducible apply radTx_kept
    | with_reducible apply raise_kept | split

theorem noKey_kept {d : Device} {f : TxFrame} (hd : d.Kept S Q c k) : (Device.noKey d f).Kept S Q c k := by
  unfold Device.noKey; try dsimp only
  repeat' first
    | with_reducible assumption | with_reducible apply dupDrop_kept | with_reducible apply freeCells_kept | with_reducible apply inc_kept
    | with_reducible apply foldl_kept | split | (dsimp only) | (intro _ _ _; try dsimp only)

theorem scheduleSealed_kept {d : Device} {b : Band} {f : TxFrame} {entry : Option Nat} {kMac : Block} {kEnc : Block}
    (hd : d.Kept S Q c k) : (Device.scheduleSealed d b f entry kMac kEnc).Kept S Q c k := by
  unfold Device.scheduleSealed; try dsimp only
  repeat' first
    | with_reducible assumption | with_reducible apply chargeLink_kept | with_reducible apply onRad_kept | with_reducible apply radTx_kept
    | with_reducible apply submit_kept | split

theorem sendLink_kept {d : Device} {b : Band} {f : TxFrame} {slot : Option Nat} {ty : Nat} {c0 : Nat} {h0 : Nat} {seq : Nat} {more : Bool} {body : Bytes}
    (hd : d.Kept S Q c k) : (Device.sendLink d b f slot ty c0 h0 seq more body).Kept S Q c k := by
  unfold Device.sendLink; try dsimp only
  repeat' first
    | with_reducible assumption | with_reducible apply dutyHeld_kept | with_reducible apply frameBack_kept
    | with_reducible apply mirrorCounter_kept | with_reducible apply noKey_kept | with_reducible apply raise_kept
    | with_reducible apply scheduleSealed_kept | (with_reducible refine takeCounter_kept (by assumption) ?_)
    | with_reducible apply takeCounter_kept2 | split

theorem popQueue_kept {d : Device} {k0 : Nat} (hd : d.Kept S Q c k) : (Device.popQueue d k0).Kept S Q c k := by
  unfold Device.popQueue; try dsimp only
  repeat' first | with_reducible assumption | with_reducible apply onQueue_kept | with_reducible apply tailRetry_kept

theorem txReply_kept {d : Device} {b : Band} {ret : BitVec 3} {k0 : TxKind} {c0 : Nat} {h0 : Nat} {n : Nat} {start : Nat} {upOk : Bool}
    (hd : d.Kept S Q c k) : (Device.txReply d b ret k0 c0 h0 n start upOk).Kept S Q c k := by
  unfold Device.txReply; try dsimp only
  repeat' first
    | with_reducible assumption | with_reducible apply freeNext_kept | with_reducible apply onClient_kept
    | with_reducible apply popQueue_kept | with_reducible apply sendLink_kept | split

theorem txAssoc_kept {d : Device} {b : Band} {ret : BitVec 3} (hd : d.Kept S Q c k) : (Device.txAssoc d b ret).Kept S Q c k := by
  unfold Device.txAssoc; try dsimp only
  repeat' first
    | with_reducible assumption | with_reducible apply dutyHeld_kept | with_reducible apply frameBack_kept
    | with_reducible apply onLant_kept | with_reducible apply scheduleSealed_kept | split

theorem txDown_kept {d : Device} {b : Band} {ret : BitVec 3} {g : Nat} (hd : d.Kept S Q c k) : (Device.txDown d b ret g).Kept S Q c k := by
  unfold Device.txDown; try dsimp only
  repeat' first
    | with_reducible assumption | with_reducible apply addNotes_kept | with_reducible apply freeNext_kept
    | with_reducible apply onClient_kept | with_reducible apply onNote_kept | with_reducible apply onQueue_kept
    | with_reducible apply popQueue_kept | with_reducible apply sendLink_kept | split

theorem dupSent_kept {d : Device} {c0 : Nat} {k0 : Nat} {seq : Nat} (hd : d.Kept S Q c k) : (Device.dupSent d c0 k0 seq).Kept S Q c k := by
  unfold Device.dupSent; try dsimp only
  repeat' first | with_reducible assumption | with_reducible apply dupDrop_kept | with_reducible apply onQueue_kept | split

theorem txBell_kept {d : Device} {ret : BitVec 3} (hd : d.Kept S Q c k) : (Device.txBell d ret).Kept S Q c k := by
  unfold Device.txBell; try dsimp only
  repeat' first
    | with_reducible assumption | with_reducible apply bellSkip_kept | with_reducible apply dutyHeld_kept | with_reducible apply onLant_kept
    | with_reducible apply radTx_kept | with_reducible apply raise_kept | split

theorem keeperImmediateTx_kept {b : Band} {rate : Nat} {cls : Nat} {ret : BitVec 3} {data : Bytes} {d : Device}
    (hd : d.Kept S Q c k) : (keeperImmediateTx b rate cls ret data d).Kept S Q c k := by
  unfold keeperImmediateTx; try dsimp only
  repeat' first | with_reducible assumption | with_reducible apply keeperPlanTx_kept | split

theorem frame154TxRequest_kept {ch : Nat} {ret : BitVec 3} {phr : Byte} {psdu : Bytes} {d : Device}
    (hd : d.Kept S Q c k) : (frame154TxRequest ch ret phr psdu d).Kept S Q c k := by
  unfold frame154TxRequest; try dsimp only
  repeat' first | with_reducible assumption | with_reducible apply keeperPlanTx_kept | with_reducible apply useGroup_kept | split

theorem sendPlain_kept {d : Device} {b : Band} {f : TxFrame} (hd : d.Kept S Q c k) : (Device.sendPlain d b f).Kept S Q c k := by
  unfold Device.sendPlain; try dsimp only
  repeat' first
    | with_reducible assumption | with_reducible apply dutyHeld_kept | with_reducible apply frameBack_kept | with_reducible apply radTx_kept
    | split

theorem txKeeper_kept {d : Device} {b : Band} (hd : d.Kept S Q c k) : (Device.txKeeper d b).Kept S Q c k := by
  unfold Device.txKeeper; try dsimp only
  repeat' first | with_reducible assumption | with_reducible apply onRad_kept | with_reducible apply sendPlain_kept | split

theorem txParent_kept {d : Device} {b : Band} {ret : BitVec 3} {slot : Nat} {rate : Nat} {cls : Nat} {frame : Bytes}
    (hd : d.Kept S Q c k) : (Device.txParent d b ret slot rate cls frame).Kept S Q c k := by
  unfold Device.txParent; try dsimp only
  repeat' first
    | with_reducible assumption | with_reducible apply onRad_kept | with_reducible apply onRelay_kept | with_reducible apply sendPlain_kept
    | split

theorem txGrantReply_kept {d : Device} {b : Band} {ret : BitVec 3} {g : Nat}
    (hd : d.Kept S Q c k) : (Device.txGrantReply d b ret g).Kept S Q c k := by
  unfold Device.txGrantReply; try dsimp only
  repeat' first | with_reducible assumption | with_reducible apply txReply_kept | split

theorem txPollReply_kept {d : Device} {b : Band} {ret : BitVec 3} (hd : d.Kept S Q c k) : (Device.txPollReply d b ret).Kept S Q c k := by
  unfold Device.txPollReply; try dsimp only
  repeat' first | with_reducible assumption | with_reducible apply onLant_kept | with_reducible apply txReply_kept | split

theorem txCommand_kept {b : Band} {k0 : TxKind} {ret : BitVec 3} {d : Device} (hd : d.Kept S Q c k) : (txCommand b k0 ret d).Kept S Q c k := by
  unfold txCommand; try dsimp only
  repeat' first
    | with_reducible assumption | with_reducible apply txAssoc_kept | with_reducible apply txBeacon_kept | with_reducible apply txBell_kept
    | with_reducible apply txDown_kept | with_reducible apply txGrantReply_kept | with_reducible apply txKeeper_kept
    | with_reducible apply txParent_kept | with_reducible apply txPollReply_kept | split

theorem sealEnd_kept {d : Device} {j : Job} {b : Band} {x : TxRun} (hd : d.Kept S Q c k) : (Device.sealEnd d j b x).Kept S Q c k := by
  unfold Device.sealEnd; try dsimp only
  repeat' first
    | with_reducible assumption | with_reducible apply inc_kept | with_reducible apply jobDone_kept | with_reducible apply keyCount_kept
    | with_reducible apply onRad_kept | with_reducible apply raise_kept | split

theorem sealJobEnd_kept {id : Nat} {d : Device} (hd : d.Kept S Q c k) : (sealJobEnd id d).Kept S Q c k := by
  unfold sealJobEnd; try dsimp only
  repeat' first | with_reducible assumption | with_reducible apply jobDone_kept | with_reducible apply sealEnd_kept | split

theorem grantSent_kept {d : Device} {c0 : Nat} {n : Nat} {g : DWord} (hd : d.Kept S Q c k) : (Device.grantSent d c0 n g).Kept S Q c k := by
  unfold Device.grantSent; try dsimp only
  repeat' first | with_reducible assumption | with_reducible apply onLant_kept

theorem ctrlSent_kept {d : Device} {c0 : Nat} {n : Nat} {r0 : CtrlRec}
    (hq : MemClosed Q) (hd : d.Kept S Q c k) : (Device.ctrlSent d c0 n r0).Kept S Q c k := by
  unfold Device.ctrlSent; try dsimp only
  repeat' first
    | with_reducible assumption | with_reducible apply grantSent_kept | with_reducible apply onClient_kept
    | with_reducible apply release_kept | split

theorem frameSent_kept {d : Device} {x : TxRun} (hq : MemClosed Q) (hd : d.Kept S Q c k) : (Device.frameSent d x).Kept S Q c k := by
  unfold Device.frameSent; try dsimp only
  repeat' first
    | with_reducible assumption | with_reducible apply ctrlSent_kept | with_reducible apply dupSent_kept
    | with_reducible apply freeCells_kept | with_reducible apply inc_kept | with_reducible apply onClient_kept
    | with_reducible apply onLant_kept | with_reducible apply foldl_kept | split | (dsimp only) | (intro _ _ _; try dsimp only)

theorem txFrameEnd_kept {b : Band} {p : FbPower} {cap : List FbSample} {d : Device}
    (hq : MemClosed Q) (hd : d.Kept S Q c k) : (txFrameEnd b p cap d).Kept S Q c k := by
  unfold txFrameEnd; try dsimp only
  repeat' first
    | with_reducible assumption | with_reducible apply capKeep_kept | with_reducible apply dropSeal_kept
    | with_reducible apply dutyCharge_kept | with_reducible apply frameSent_kept | with_reducible apply powerLoop_kept
    | with_reducible apply radTxEnd_kept | with_reducible apply sealEnd_kept | with_reducible apply sealLate_kept | split

theorem latchSet_kept {d : Device} {i : Nat} (hd : d.Kept S Q c k) : (Device.latchSet d i).Kept S Q c k := by
  unfold Device.latchSet; try dsimp only
  repeat' first | with_reducible assumption | with_reducible apply hwSet_kept | with_reducible apply onPwr_kept | split

theorem wakeCheck_kept {d : Device} (hd : d.Kept S Q c k) : (Device.wakeCheck d).Kept S Q c k := by
  unfold Device.wakeCheck; try dsimp only
  repeat' first
    | with_reducible assumption | with_reducible apply onPwr_kept | with_reducible apply onStart_kept | with_reducible apply raise_kept
    | split

theorem thermSample_kept {d : Device} {temp : BitVec 16} (hd : d.Kept S Q c k) : (Device.thermSample d temp).Kept S Q c k := by
  unfold Device.thermSample; try dsimp only
  repeat' first | with_reducible assumption | with_reducible apply onPwr_kept | with_reducible apply raise_kept | split

end Sys2Proof.Machine
end

