-- ==== Sys2Proof/Laws/KeptMac.lean ====
section
/-! SUPPORT. What every operation keeps: the MAC, reception, association and the plan. -/

-- One theorem at a time: in the package as one text many would otherwise wait at once, each on a thread of its own.
set_option Elab.async false

namespace Sys2Proof.Machine

variable {S : Prop} {Q : List Host.Cell → Prop} {c : Nat} {k : Otp} {d : Device}

theorem setDepth_kept {d : Device} {n : Nat} (hd : d.Kept S Q c k) : (Device.setDepth d n).Kept S Q c k := by
  unfold Device.setDepth; try dsimp only
  repeat' first | with_reducible assumption | with_reducible apply mirrorNow_kept | with_reducible apply setCfg_kept

theorem parentMeasure_kept {d : Device} {f : RxFrame} (hd : d.Kept S Q c k) : (Device.parentMeasure d f).Kept S Q c k := by
  unfold Device.parentMeasure; try dsimp only
  repeat' first
    | with_reducible assumption | with_reducible apply measure_kept | with_reducible apply foldl_kept | split | (dsimp only)
    | (intro _ _ _; try dsimp only)

theorem parentHeard_kept {d : Device} {f : RxFrame} (hd : d.Kept S Q c k) : (Device.parentHeard d f).Kept S Q c k := by
  unfold Device.parentHeard; try dsimp only
  repeat' first
    | with_reducible assumption | with_reducible apply onLL_kept | with_reducible apply onRelay_kept
    | with_reducible apply parentMeasure_kept | with_reducible apply raise_kept | with_reducible apply setDepth_kept | split

theorem scanHeard_kept {d : Device} {b : Band} {f : RxFrame} (hd : d.Kept S Q c k) : (Device.scanHeard d b f).Kept S Q c k := by
  unfold Device.scanHeard; try dsimp only
  repeat' first | with_reducible assumption | with_reducible apply onRelay_kept | split

theorem beaconRx_kept {d : Device} {b : Band} {f : RxFrame} (hd : d.Kept S Q c k) : (Device.beaconRx d b f).Kept S Q c k := by
  unfold Device.beaconRx; try dsimp only
  repeat' first
    | with_reducible assumption | with_reducible apply onTwin_kept | with_reducible apply parentHeard_kept
    | with_reducible apply scanHeard_kept | split

theorem joinLapse_kept {d : Device} {sf : Nat} (hd : d.Kept S Q c k) : (Device.joinLapse d sf).Kept S Q c k := by
  unfold Device.joinLapse; try dsimp only
  repeat' first | with_reducible assumption | with_reducible apply freeNext_kept | with_reducible apply onRelay_kept | split

theorem joinAnswer_kept {d : Device} {sf : Nat} {status : Nat} (hd : d.Kept S Q c k) : (Device.joinAnswer d sf status).Kept S Q c k := by
  unfold Device.joinAnswer; try dsimp only
  repeat' first
    | with_reducible assumption | with_reducible apply onRelay_kept | with_reducible apply raise_kept | with_reducible apply setDepth_kept
    | split

theorem joinRx_kept {d : Device} {b : Band} {f : RxFrame} (hd : d.Kept S Q c k) : (Device.joinRx d b f).Kept S Q c k := by
  unfold Device.joinRx; try dsimp only
  repeat' first | with_reducible assumption | with_reducible apply joinAnswer_kept | split

theorem ringWrite_kept {d : Device} {f : RxFrame} {link : Nat} (hd : d.Kept S Q c k) : (Device.ringWrite d f link).Kept S Q c k := by
  unfold Device.ringWrite; try dsimp only
  repeat' first
    | with_reducible assumption | with_reducible apply inc_kept | with_reducible apply latchSet_kept | with_reducible apply onLant_kept
    | with_reducible apply raise_kept | split

theorem toCheck_kept {d : Device} {f : RxFrame} (hd : d.Kept S Q c k) : (Device.toCheck d f).Kept S Q c k := by
  unfold Device.toCheck; try dsimp only
  repeat' first
    | with_reducible assumption | (with_reducible refine check_kept (by assumption) ?_) | with_reducible apply check_kept2
    | with_reducible apply onRad_kept | with_reducible apply submit_kept | split

theorem drainBuffered_kept {d : Device} (hd : d.Kept S Q c k) : (Device.drainBuffered d).Kept S Q c k := by
  unfold Device.drainBuffered; try dsimp only
  repeat' first
    | with_reducible assumption | (with_reducible refine check_kept (by assumption) ?_) | with_reducible apply check_kept2
    | with_reducible apply onRad_kept | with_reducible apply submit_kept | with_reducible apply foldl_kept | split | (dsimp only)
    | (intro _ _ _; try dsimp only)

theorem grantRx_kept {d : Device} {f : RxFrame} (hd : d.Kept S Q c k) : (Device.grantRx d f).Kept S Q c k := by
  unfold Device.grantRx; try dsimp only
  repeat' first
    | with_reducible assumption | with_reducible apply clientHeard_kept | with_reducible apply inc_kept | with_reducible apply onNote_kept
    | with_reducible apply ringWrite_kept | with_reducible apply toCheck_kept | split

theorem openRx_kept {d : Device} {f : RxFrame} (hd : d.Kept S Q c k) : (Device.openRx d f).Kept S Q c k := by
  unfold Device.openRx; try dsimp only
  repeat' first | with_reducible assumption | with_reducible apply onLant_kept | with_reducible apply toCheck_kept | split

theorem macRx_kept {d : Device} {f : RxFrame} (hd : d.Kept S Q c k) : (Device.macRx d f).Kept S Q c k := by
  unfold Device.macRx; try dsimp only
  repeat' first
    | with_reducible assumption | with_reducible apply beaconRx_kept | with_reducible apply grantRx_kept | with_reducible apply inc_kept
    | with_reducible apply joinRx_kept | with_reducible apply openRx_kept | with_reducible apply toCheck_kept | split

theorem radioEntry_kept {d : Device} {b : Band} {c0 : Nat} {h0 : Nat} {ty : Nat} {rep : Option RepMeta} {body : Bytes}
    (hd : d.Kept S Q c k) : (Device.radioEntry d b c0 h0 ty rep body).Kept S Q c k := by
  unfold Device.radioEntry; try dsimp only
  repeat' first | with_reducible assumption | with_reducible apply ingressPush_kept

theorem heldDeliver_kept {d : Device} {c0 : Nat} {x : HeldFrame} (hd : d.Kept S Q c k) : (Device.heldDeliver d c0 x).Kept S Q c k := by
  unfold Device.heldDeliver; try dsimp only
  repeat' first | with_reducible assumption | with_reducible apply radioEntry_kept

theorem reorderDrain_kept {d : Device} {c0 : Nat} {a2 : Nat} (hd : d.Kept S Q c k) : (Device.reorderDrain d c0 a2).Kept S Q c k := by
  fun_induction Device.reorderDrain d c0 a2
  all_goals try dsimp only
  all_goals repeat' first
    | with_reducible assumption | with_reducible apply heldDeliver_kept | with_reducible apply onClient_kept | split | (dsimp only)
    | (intro _ _ _; try dsimp only) | (simp only [kept_mk]) | (simp only [kept_mk_clk]) | (apply_assumption)

theorem reorderSkip_kept {d : Device} {c0 : Nat} (hd : d.Kept S Q c k) : (Device.reorderSkip d c0).Kept S Q c k := by
  unfold Device.reorderSkip; try dsimp only
  repeat' first
    | with_reducible assumption | with_reducible apply inc_kept | with_reducible apply onClient_kept | with_reducible apply raise_kept
    | with_reducible apply reorderDrain_kept | split

theorem reorderRx_kept {d : Device} {c0 : Nat} {h0 : Nat} {seq : Nat} {data : Bytes}
    (hd : d.Kept S Q c k) : (Device.reorderRx d c0 h0 seq data).Kept S Q c k := by
  unfold Device.reorderRx; try dsimp only
  repeat' first
    | with_reducible assumption | with_reducible apply inc_kept | with_reducible apply onClient_kept
    | with_reducible apply reorderDrain_kept | with_reducible apply reorderSkip_kept | split

theorem reorderSkipCmd_kept {c0 : Fin 8192} {d : Device} (hd : d.Kept S Q c k) : (reorderSkipCmd c0 d).Kept S Q c k := by
  unfold reorderSkipCmd; try dsimp only
  repeat' first | with_reducible assumption | with_reducible apply reorderSkip_kept | split

theorem passSlot_kept {d : Device} {c0 : Nat} {s : Nat} {sf : Nat} (hd : d.Kept S Q c k) : (Device.passSlot d c0 s sf).Kept S Q c k := by
  unfold Device.passSlot; try dsimp only
  repeat' first
    | with_reducible assumption | with_reducible apply emptySlot_kept | with_reducible apply onClient_kept
    | with_reducible apply slotDue_kept | split

theorem counts_kept {d : Device} {f : RxFrame} (hd : d.Kept S Q c k) : (Device.counts d f).Kept S Q c k := by
  unfold Device.counts; try dsimp only
  repeat' first | with_reducible assumption | with_reducible apply clientHeard_kept | split

theorem passed_kept {d : Device} {f : RxFrame} {r0 : Checked} (hd : d.Kept S Q c k) : (Device.passed d f r0).Kept S Q c k := by
  unfold Device.passed; try dsimp only
  repeat' first
    | with_reducible assumption | with_reducible apply counts_kept | with_reducible apply linkHeard_kept
    | with_reducible apply onClient_kept | with_reducible apply passSlot_kept | with_reducible apply radioEntry_kept
    | with_reducible apply reorderRx_kept | split

theorem joinAsked_kept {d : Device} {f : RxFrame} {unknown : Bool} (hd : d.Kept S Q c k) : (Device.joinAsked d f unknown).Kept S Q c k := by
  unfold Device.joinAsked; try dsimp only
  repeat' first | with_reducible assumption | with_reducible apply onLant_kept | split

theorem checkDone_kept {d : Device} {f : RxFrame} {r0 : Checked}
    (hq : MemClosed Q) (hd : d.Kept S Q c k) : (Device.checkDone d f r0).Kept S Q c k := by
  unfold Device.checkDone; try dsimp only
  repeat' first
    | with_reducible assumption | with_reducible apply countResult_kept | with_reducible apply joinAsked_kept
    | with_reducible apply noteChecked_kept | with_reducible apply onLant_kept | with_reducible apply passed_kept | split

theorem checkJobEnd_kept {id : Nat} {d : Device} (hq : MemClosed Q) (hd : d.Kept S Q c k) : (checkJobEnd id d).Kept S Q c k := by
  unfold checkJobEnd; try dsimp only
  repeat' first
    | with_reducible assumption | (with_reducible refine check_kept (by assumption) ?_) | with_reducible apply check_kept2
    | with_reducible apply checkDone_kept | with_reducible apply jobDone_kept | split

theorem verifyEntry_kept {d : Device} {e0 : RingEntry} (hd : d.Kept S Q c k) : (Device.verifyEntry d e0).Kept S Q c k := by
  unfold Device.verifyEntry; try dsimp only
  repeat' first
    | with_reducible assumption | (with_reducible refine check_kept (by assumption) ?_) | with_reducible apply check_kept2
    | with_reducible apply countResult_kept | with_reducible apply onCiph_kept | with_reducible apply passed_kept
    | with_reducible apply slotDue_kept | split

theorem ringVerify_kept {d : Device} (hd : d.Kept S Q c k) : (ringVerify d).Kept S Q c k := by
  unfold ringVerify; try dsimp only
  repeat' first
    | with_reducible assumption | with_reducible apply drainBuffered_kept | with_reducible apply epochSwitch_kept
    | with_reducible apply onCiph_kept | with_reducible apply onLant_kept | with_reducible apply raise_kept
    | with_reducible apply verifyEntry_kept | with_reducible apply wakeCheck_kept | with_reducible apply foldl_kept | split

theorem rxResult_kept {d : Device} {b : Band} {c0 : RxDet} {res : Nat} (hd : d.Kept S Q c k) : (Device.rxResult d b c0 res).Kept S Q c k := by
  unfold Device.rxResult; try dsimp only
  repeat' first
    | with_reducible assumption | with_reducible apply freeNext_kept | with_reducible apply inc_kept | with_reducible apply onRad_kept

theorem rxIdle_kept {d : Device} {b : Band} (hd : d.Kept S Q c k) : (Device.rxIdle d b).Kept S Q c k := by
  unfold Device.rxIdle; try dsimp only
  repeat' first | with_reducible assumption | with_reducible apply onRad_kept

theorem winNoted_kept {d : Device} {b : Band} {w : Win} {lost : Bool}
    (hq : MemClosed Q) (hd : d.Kept S Q c k) : (Device.winNoted d b w lost).Kept S Q c k := by
  unfold Device.winNoted; try dsimp only
  repeat' first | with_reducible assumption | with_reducible apply noteClose_kept | with_reducible apply onRelay_kept | split

theorem rxLeave_kept {d : Device} {b : Band} (hq : MemClosed Q) (hd : d.Kept S Q c k) : (Device.rxLeave d b).Kept S Q c k := by
  unfold Device.rxLeave; try dsimp only
  repeat' first
    | with_reducible assumption | with_reducible apply onRad_kept | with_reducible apply rxIdle_kept | with_reducible apply rxResult_kept
    | with_reducible apply winNoted_kept | with_reducible apply foldl_kept | split | (dsimp only) | (intro _ _ _; try dsimp only)

theorem winEnd_kept {d : Device} {b : Band} {x : Win} (hq : MemClosed Q) (hd : d.Kept S Q c k) : (Device.winEnd d b x).Kept S Q c k := by
  unfold Device.winEnd; try dsimp only
  repeat' first
    | with_reducible assumption | with_reducible apply onRad_kept | with_reducible apply replan_kept | with_reducible apply rxIdle_kept
    | with_reducible apply winLost_kept | with_reducible apply winNoted_kept | split

theorem winsOver_kept {d : Device} {b : Band} (hq : MemClosed Q) (hd : d.Kept S Q c k) : (Device.winsOver d b).Kept S Q c k := by
  unfold Device.winsOver; try dsimp only
  repeat' first
    | with_reducible assumption | with_reducible apply winEnd_kept | with_reducible apply foldl_kept | split | (dsimp only)
    | (intro _ _ _; try dsimp only)

theorem rxTrunc_kept {d : Device} {b : Band} (hq : MemClosed Q) (hd : d.Kept S Q c k) : (Device.rxTrunc d b).Kept S Q c k := by
  unfold Device.rxTrunc; try dsimp only
  repeat' first
    | with_reducible assumption | with_reducible apply rxIdle_kept | with_reducible apply rxResult_kept | with_reducible apply winsOver_kept
    | split

theorem rxSync_kept {d : Device} {b : Band} (hq : MemClosed Q) (hd : d.Kept S Q c k) : (Device.rxSync d b).Kept S Q c k := by
  unfold Device.rxSync; try dsimp only
  repeat' first
    | with_reducible assumption | with_reducible apply openWins_kept | with_reducible apply rxLeave_kept | with_reducible apply rxTrunc_kept
    | split

theorem rxWindowClose_kept {b : Band} {w : RxWin} {d : Device} (hq : MemClosed Q) (hd : d.Kept S Q c k) : (rxWindowClose b w d).Kept S Q c k := by
  unfold rxWindowClose; try dsimp only
  repeat' first
    | with_reducible assumption | with_reducible apply onRad_kept | with_reducible apply rxSync_kept | with_reducible apply winEnd_kept
    | split

theorem winOf_kept {d : Device} {b : Band} {w : RxWin} {x0 : Win} {rr : Device}
    (e : (Device.winOf d b w) = some (x0, rr)) (hd : d.Kept S Q c k) : rr.Kept S Q c k := by
  unfold Device.winOf at e; try dsimp only at e
  repeat' split at e
  all_goals first | (cases e; done) | (cases e; (repeat' first | with_reducible assumption | with_reducible apply addNotes_kept | with_reducible apply onClient_kept); done)

theorem rxCommand_kept {b : Band} {w : RxWin} {d : Device} (hq : MemClosed Q) (hd : d.Kept S Q c k) : (rxCommand b w d).Kept S Q c k := by
  unfold rxCommand; try dsimp only
  repeat' first
    | with_reducible assumption | (with_reducible refine radRx_kept (by assumption) ?_) | with_reducible apply radRx_kept2
    | with_reducible apply rxSync_kept | with_reducible apply winLost_kept | with_reducible apply winNoted_kept
    | (with_reducible refine winOf_kept (by assumption) ?_) | split

theorem settleGain_kept {d : Device} {b : Band} {pwr : Int} (hd : d.Kept S Q c k) : (Device.settleGain d b pwr).Kept S Q c k := by
  unfold Device.settleGain; try dsimp only
  repeat' first | with_reducible assumption | with_reducible apply onRad_kept

theorem detSeen_kept {d : Device} {b : Band} {p : Detect} (hd : d.Kept S Q c k) : (Device.detSeen d b p).Kept S Q c k := by
  unfold Device.detSeen; try dsimp only
  repeat' first | with_reducible assumption | with_reducible apply inc_kept | with_reducible apply onRad_kept | split

theorem preambleDetect_kept {b : Band} {p : Detect} {d : Device} (hq : MemClosed Q) (hd : d.Kept S Q c k) : (preambleDetect b p d).Kept S Q c k := by
  unfold preambleDetect; try dsimp only
  repeat' first
    | with_reducible assumption | with_reducible apply detSeen_kept | with_reducible apply inc_kept | with_reducible apply onRad_kept
    | with_reducible apply rxResult_kept | with_reducible apply rxSync_kept | with_reducible apply settleGain_kept | split

theorem headerFail_kept {d : Device} {b : Band} {c0 : RxDet} {res : Nat}
    (hq : MemClosed Q) (hd : d.Kept S Q c k) : (Device.headerFail d b c0 res).Kept S Q c k := by
  unfold Device.headerFail; try dsimp only
  repeat' first
    | with_reducible assumption | with_reducible apply inc_kept | with_reducible apply onRad_kept | with_reducible apply rxResult_kept
    | with_reducible apply winsOver_kept | split

theorem syncSearchTimeout_kept {b : Band} {d : Device} (hq : MemClosed Q) (hd : d.Kept S Q c k) : (syncSearchTimeout b d).Kept S Q c k := by
  unfold syncSearchTimeout; try dsimp only
  repeat' first | with_reducible assumption | with_reducible apply headerFail_kept | with_reducible apply rxSync_kept | split

theorem upHeard_kept {d : Device} {b : Band} {c0 : RxDet} {sync : Time} (hd : d.Kept S Q c k) : (Device.upHeard d b c0 sync).Kept S Q c k := by
  unfold Device.upHeard; try dsimp only
  repeat' first | with_reducible assumption | with_reducible apply onLant_kept

theorem headerReceived_kept {b : Band} {sync : Time} {soft : List (Int × Int)} {d : Device}
    (hq : MemClosed Q) (hd : d.Kept S Q c k) : (headerReceived b sync soft d).Kept S Q c k := by
  unfold headerReceived; try dsimp only
  repeat' first
    | with_reducible assumption | with_reducible apply freeNext_kept | with_reducible apply headerFail_kept
    | with_reducible apply onRad_kept | with_reducible apply rxIdle_kept | with_reducible apply rxResult_kept
    | with_reducible apply rxSync_kept | with_reducible apply upHeard_kept | with_reducible apply winsOver_kept | split

theorem cwEnd_kept {d : Device} {b : Band} {layers : Nat} (hd : d.Kept S Q c k) : (Device.cwEnd d b layers).Kept S Q c k := by
  unfold Device.cwEnd; try dsimp only
  repeat' first
    | with_reducible assumption | with_reducible apply addCnt_kept | with_reducible apply inc_kept | with_reducible apply onRad_kept | split

theorem codewordReady_kept {b : Band} {soft : List Int} {layers : Nat} {d : Device}
    (hq : MemClosed Q) (hd : d.Kept S Q c k) : (codewordReady b soft layers d).Kept S Q c k := by
  unfold codewordReady; try dsimp only
  repeat' first
    | with_reducible assumption | with_reducible apply cwEnd_kept | with_reducible apply inc_kept | with_reducible apply onRad_kept
    | with_reducible apply raiseRad_kept | with_reducible apply rxSync_kept | split

theorem codewordDecoded_kept {b : Band} {d : Device} (hq : MemClosed Q) (hd : d.Kept S Q c k) : (codewordDecoded b d).Kept S Q c k := by
  unfold codewordDecoded; try dsimp only
  repeat' first | with_reducible assumption | with_reducible apply cwEnd_kept | with_reducible apply rxSync_kept

theorem rxFrameEnd_kept {b : Band} {d : Device} (hq : MemClosed Q) (hd : d.Kept S Q c k) : (rxFrameEnd b d).Kept S Q c k := by
  unfold rxFrameEnd; try dsimp only
  repeat' first
    | with_reducible assumption | with_reducible apply macRx_kept | with_reducible apply rxIdle_kept | with_reducible apply rxResult_kept
    | with_reducible apply rxSync_kept | with_reducible apply winsOver_kept | split

theorem radioTransitionEnd_kept {b : Band} {d : Device} (hq : MemClosed Q) (hd : d.Kept S Q c k) : (radioTransitionEnd b d).Kept S Q c k := by
  unfold radioTransitionEnd; try dsimp only
  repeat' first | with_reducible assumption | with_reducible apply rxSync_kept | with_reducible apply transEnd_kept

theorem lockLoss_kept {b : Band} {d : Device} (hq : MemClosed Q) (hd : d.Kept S Q c k) : (lockLoss b d).Kept S Q c k := by
  unfold lockLoss; try dsimp only
  repeat' first
    | with_reducible assumption | with_reducible apply dutyCut_kept | with_reducible apply lockLossRadio_kept
    | with_reducible apply rxIdle_kept | with_reducible apply rxResult_kept | with_reducible apply rxSync_kept | split

theorem frame154Rx_kept {phr : Byte} {psdu : Bytes} {fcsOk : Bool} {rssi : Int} {sfd : Time} {d : Device}
    (hq : MemClosed Q) (hd : d.Kept S Q c k) : (frame154Rx phr psdu fcsOk rssi sfd d).Kept S Q c k := by
  unfold frame154Rx; try dsimp only
  repeat' first
    | with_reducible assumption | with_reducible apply inc_kept | with_reducible apply onRad_kept | with_reducible apply raise_kept
    | with_reducible apply rxSync_kept | split

theorem tempGroups_kept {d : Device} {temp : BitVec 16} (hd : d.Kept S Q c k) : (Device.tempGroups d temp).Kept S Q c k := by
  unfold Device.tempGroups; try dsimp only
  repeat' first
    | with_reducible assumption | with_reducible apply onRad_kept | with_reducible apply foldl_kept | split | (dsimp only)
    | (intro _ _ _; try dsimp only)

theorem tempSample_kept {temp : BitVec 16} {d : Device} (hd : d.Kept S Q c k) : (tempSample temp d).Kept S Q c k := by
  unfold tempSample; try dsimp only
  repeat' first | with_reducible assumption | with_reducible apply tempGroups_kept | with_reducible apply thermSample_kept | split

theorem scanStep_kept {d : Device} (hd : d.Kept S Q c k) : (Device.scanStep d).Kept S Q c k := by
  unfold Device.scanStep; try dsimp only
  repeat' first | with_reducible assumption | with_reducible apply onRelay_kept | with_reducible apply useGroup_kept | split

theorem scanStart_kept {d : Device} (hd : d.Kept S Q c k) : (Device.scanStart d).Kept S Q c k := by
  unfold Device.scanStart; try dsimp only
  repeat' first | with_reducible assumption | with_reducible apply onRelay_kept | with_reducible apply useGroup_kept | split

theorem parentMissed_kept {d : Device} (hd : d.Kept S Q c k) : (Device.parentMissed d).Kept S Q c k := by
  unfold Device.parentMissed; try dsimp only
  repeat' first
    | with_reducible assumption | with_reducible apply inc_kept | with_reducible apply onRelay_kept | with_reducible apply raise_kept
    | with_reducible apply refLoss_kept | with_reducible apply scanStart_kept | with_reducible apply setDepth_kept
    | with_reducible apply foldl_kept | split | (dsimp only) | (intro _ _ _; try dsimp only)

theorem bandMissed_kept {d : Device} {b : Band} (hd : d.Kept S Q c k) : (Device.bandMissed d b).Kept S Q c k := by
  unfold Device.bandMissed; try dsimp only
  repeat' first | with_reducible assumption | with_reducible apply onRelay_kept | with_reducible apply raise_kept | split

theorem parentWindowClose_kept {d : Device} (hd : d.Kept S Q c k) : (parentWindowClose d).Kept S Q c k := by
  unfold parentWindowClose; try dsimp only
  repeat' first
    | with_reducible assumption | with_reducible apply bandMissed_kept | with_reducible apply onRelay_kept
    | with_reducible apply parentMissed_kept | split

theorem bellMatch_kept {code : Word} {d : Device} (hd : d.Kept S Q c k) : (bellMatch code d).Kept S Q c k := by
  unfold bellMatch; try dsimp only
  repeat' first
    | with_reducible assumption | with_reducible apply inc_kept | with_reducible apply latchSet_kept | with_reducible apply onPwr_kept
    | with_reducible apply raise_kept | split

theorem withPlan_kept {d : Device} {l : List PlanRec} (hd : d.Kept S Q c k) : (Device.withPlan d l).Kept S Q c k := by
  unfold Device.withPlan; try dsimp only
  repeat' first | with_reducible assumption | with_reducible apply onLant_kept

theorem assocKeys_kept {d : Device} {c0 : Nat} {e0 : Nat} {r0 : Nat} (hd : d.Kept S Q c k) : (Device.assocKeys d c0 e0 r0).Kept S Q c k := by
  unfold Device.assocKeys; try dsimp only
  repeat' first
    | with_reducible assumption | with_reducible apply deriveDrop_kept | with_reducible apply emptySlot_kept
    | with_reducible apply kdfGo_kept | with_reducible apply mirrorNow_kept | with_reducible apply onClient_kept
    | with_reducible apply onKey_kept | split

theorem respond_kept {d : Device} {a : AssocReq} {status : Nat} {client : Nat} {epoch : Nat} {lease : Nat} {grants : List DWord}
    (hd : d.Kept S Q c k) : (Device.respond d a status client epoch lease grants).Kept S Q c k := by
  unfold Device.respond; try dsimp only
  repeat' first | with_reducible assumption | with_reducible apply onLant_kept

theorem deny_kept {d : Device} {a : AssocReq} {status : Nat} (hd : d.Kept S Q c k) : (Device.deny d a status).Kept S Q c k := by
  unfold Device.deny; try dsimp only
  repeat' first | with_reducible assumption | with_reducible apply freeNext_kept | with_reducible apply respond_kept

theorem full_kept {d : Device} {a : AssocReq} (hd : d.Kept S Q c k) : (Device.full d a).Kept S Q c k := by
  unfold Device.full; try dsimp only
  repeat' first | with_reducible assumption | with_reducible apply deny_kept | with_reducible apply raise_kept

theorem accept_kept {d : Device} {a : AssocReq} {c0 : Nat} {links : List Nat} {grants : List DWord} {fit : Nat}
    (hq : MemClosed Q) (hd : d.Kept S Q c k) : (Device.accept d a c0 links grants fit).Kept S Q c k := by
  unfold Device.accept; try dsimp only
  repeat' first
    | with_reducible assumption | with_reducible apply assocKeys_kept | with_reducible apply mirrorNow_kept
    | with_reducible apply onClient_kept | with_reducible apply respond_kept | with_reducible apply spoolRoster_kept

theorem acceptNew_kept {d : Device} {a : AssocReq} (hq : MemClosed Q) (hd : d.Kept S Q c k) : (Device.acceptNew d a).Kept S Q c k := by
  unfold Device.acceptNew; try dsimp only
  repeat' first
    | with_reducible assumption | with_reducible apply accept_kept | with_reducible apply commitAt_kept | with_reducible apply deny_kept
    | with_reducible apply freeNext_kept | with_reducible apply full_kept | with_reducible apply onLink_kept
    | with_reducible apply raise_kept | with_reducible apply foldl_kept | split | (dsimp only) | (intro _ _ _; try dsimp only)

theorem acceptAgain_kept {d : Device} {a : AssocReq} {c0 : Nat}
    (hq : MemClosed Q) (hd : d.Kept S Q c k) : (Device.acceptAgain d a c0).Kept S Q c k := by
  unfold Device.acceptAgain; try dsimp only
  repeat' first
    | with_reducible assumption | with_reducible apply accept_kept | with_reducible apply commitAt_kept | with_reducible apply freeNext_kept
    | with_reducible apply raise_kept | with_reducible apply release_kept | split

theorem assocAnswer_kept {d : Device} (hq : MemClosed Q) (hd : d.Kept S Q c k) : (assocAnswer d).Kept S Q c k := by
  unfold assocAnswer; try dsimp only
  repeat' first
    | with_reducible assumption | with_reducible apply acceptAgain_kept | with_reducible apply acceptNew_kept
    | with_reducible apply deny_kept | with_reducible apply onLant_kept | with_reducible apply raise_kept | split

theorem openPut_kept {d : Device} {b : Band} {v : Word} (hd : d.Kept S Q c k) : (Device.openPut d b v).Kept S Q c k := by
  unfold Device.openPut; try dsimp only
  repeat' first | with_reducible assumption | with_reducible apply onLant_kept | with_reducible apply setCfg_kept

theorem openMapWrite_kept {b : Band} {v : Word} {d : Device} (hd : d.Kept S Q c k) : (openMapWrite b v d).Kept S Q c k := by
  unfold openMapWrite; try dsimp only
  repeat' first | with_reducible assumption | with_reducible apply keeperAccess_kept | with_reducible apply openPut_kept

theorem openApply_kept {d : Device} {sf : Nat} (hd : d.Kept S Q c k) : (Device.openApply d sf).Kept S Q c k := by
  unfold Device.openApply; try dsimp only
  repeat' first
    | with_reducible assumption | with_reducible apply mirrorNow_kept | with_reducible apply onLant_kept | with_reducible apply foldl_kept
    | split | (dsimp only) | (intro _ _ _; try dsimp only)

theorem planGo_kept {d : Device} {ahead : Nat} (hd : d.Kept S Q c k) : (Device.planGo d ahead).Kept S Q c k := by
  unfold Device.planGo; try dsimp only
  repeat' first
    | with_reducible assumption | with_reducible apply commitAt_kept | with_reducible apply inc_kept | with_reducible apply raise_kept
    | split

theorem planCommit_kept {sfAhead : BitVec 8} {d : Device} (hd : d.Kept S Q c k) : (planCommit sfAhead d).Kept S Q c k := by
  unfold planCommit; try dsimp only
  repeat' first | with_reducible assumption | with_reducible apply keeperAccess_kept | with_reducible apply planGo_kept

theorem planApply_kept {d : Device} {sf : Nat} (hd : d.Kept S Q c k) : (Device.planApply d sf).Kept S Q c k := by
  unfold Device.planApply; try dsimp only
  repeat' first | with_reducible assumption | with_reducible apply mirrorNow_kept | with_reducible apply onLant_kept | split

theorem profileGo_kept {d : Device} {p : Nat} {c0 : Nat} (hd : d.Kept S Q c k) : (Device.profileGo d p c0).Kept S Q c k := by
  unfold Device.profileGo; try dsimp only
  repeat' first
    | with_reducible assumption | with_reducible apply control_kept | with_reducible apply onLant_kept | with_reducible apply raise_kept
    | split

theorem profileSwitchGo_kept {p : Fin 16} {countdown : BitVec 6} {d : Device}
    (hd : d.Kept S Q c k) : (profileSwitchGo p countdown d).Kept S Q c k := by
  unfold profileSwitchGo; try dsimp only
  repeat' first | with_reducible assumption | with_reducible apply keeperAccess_kept | with_reducible apply profileGo_kept

theorem profileSwitchCancel_kept {d : Device} (hd : d.Kept S Q c k) : (profileSwitchCancel d).Kept S Q c k := by
  unfold profileSwitchCancel; try dsimp only
  repeat' first | with_reducible assumption | with_reducible apply keeperAccess_kept | with_reducible apply onLant_kept | split

end Sys2Proof.Machine
end

