-- ==== Sys2Proof/Laws/KeptTwin.lean ====
section
/-! SUPPORT. What every operation keeps: events, twins, lanes, register reads and the Light List. -/

-- One theorem at a time: in the package as one text many would otherwise wait at once, each on a thread of its own.
set_option Elab.async false

namespace Sys2Proof.Machine

variable {S : Prop} {Q : List Host.Cell → Prop} {c : Nat} {k : Otp} {d : Device}

theorem evPendClear_kept {i : Fin 8} {v : Word} {d : Device} (hd : d.Kept S Q c k) : (evPendClear i v d).Kept S Q c k := by
  unfold evPendClear; try dsimp only
  repeat' first | with_reducible assumption | with_reducible apply keeperAccess_kept | with_reducible apply onEv_queue_kept | rfl

theorem evOccRead_kept {d : Device} (hd : d.Kept S Q c k) : (evOccRead d).Kept S Q c k := by
  unfold evOccRead; try dsimp only
  repeat' first
    | with_reducible assumption | with_reducible apply emit_kept | with_reducible apply incRead_kept
    | with_reducible apply keeperAccess_kept | with_reducible apply onEv_queue_kept | rfl

theorem evPop_kept {d : Device} (h : d.Kept S Q c k) : (evPop d).Kept S Q c k := keeperAccess_kept (evDrop_kept h) h

theorem evDeferred_kept {d : Device} {a1 : List Nat} (hd : d.Kept S Q c k) : (Device.evDeferred d a1).Kept S Q c k := by
  fun_induction Device.evDeferred d a1
  all_goals try dsimp only
  all_goals repeat' first
    | with_reducible assumption | with_reducible apply evEntry_kept | split | (dsimp only) | (intro _ _ _; try dsimp only)
    | (simp only [kept_mk]) | (simp only [kept_mk_clk]) | (apply_assumption)

theorem evOpen_kept {d : Device} (hd : d.Kept S Q c k) : (Device.evOpen d).Kept S Q c k := by
  unfold Device.evOpen; try dsimp only
  repeat' first | with_reducible assumption | with_reducible apply evDeferred_kept | with_reducible apply onEv_queue_kept | rfl

theorem logCommit_kept {d : Device} (hd : d.Kept S Q c k) : (logCommit d).Kept S Q c k := by
  unfold logCommit; try dsimp only
  repeat' first
    | with_reducible assumption | with_reducible apply hwSet_kept | with_reducible apply keeperAccess_kept
    | with_reducible apply logReq_kept | with_reducible apply onLog_kept | split

theorem logCommitDone_kept {d : Device} (hd : d.Kept S Q c k) : (logCommitDone d).Kept S Q c k := by
  unfold logCommitDone; try dsimp only
  repeat' first | with_reducible assumption | with_reducible apply onLog_kept | split

theorem logSecondEnd_kept {d : Device} (hd : d.Kept S Q c k) : (logSecondEnd d).Kept S Q c k := by
  unfold logSecondEnd; try dsimp only
  repeat' first | with_reducible assumption | with_reducible apply logSecond_kept

theorem scanSlots_kept {d : Device} {best : Option Word} {a2 : Tab Bytes} {x0 : Option Word} {rr : Device}
    (e : (Device.scanSlots d best a2) = (rr, x0)) (hd : d.Kept S Q c k) : rr.Kept S Q c k := by
  revert x0 rr
  fun_induction Device.scanSlots d best a2
  all_goals intro x0 rr e
  all_goals try dsimp only at e
  all_goals first | (cases e; done) | (cases e; (repeat' first | with_reducible assumption); done) | (apply_assumption <;> first | exact e | (repeat' first | with_reducible assumption | with_reducible apply inc_kept | with_reducible apply raise_kept); done)

theorem scanSlots_kept2 {d : Device} {best : Option Word} {a2 : Tab Bytes}
    (hd : d.Kept S Q c k) : (Device.scanSlots d best a2).1.Kept S Q c k := scanSlots_kept (rr := (Device.scanSlots d best a2).1) rfl hd

theorem logScan_kept {d : Device} (h : d.Kept S Q c k) : d.logScan.Kept S Q c k := onLog_kept (scanSlots_kept2 h)

theorem voidNotes_kept {d : Device} {all : Bool} (hd : d.Kept S Q c k) : (Device.voidNotes d all).Kept S Q c k := by
  unfold Device.voidNotes; try dsimp only
  repeat' first | with_reducible assumption | with_reducible apply onLant_kept

theorem setRole_kept {d : Device} {r0 : Nat} (hd : d.Kept S Q c k) : (Device.setRole d r0).Kept S Q c k := by
  unfold Device.setRole; try dsimp only
  repeat' first
    | with_reducible assumption | with_reducible apply control_kept | with_reducible apply gateWatch_kept | with_reducible apply onTwin_kept
    | with_reducible apply reselect_kept | with_reducible apply voidNotes_kept

theorem airStart_kept {d : Device} (hd : d.Kept S Q c k) : (Device.airStart d).Kept S Q c k := by
  unfold Device.airStart; try dsimp only
  repeat' first | with_reducible assumption | with_reducible apply onTwin_kept

theorem becomeStandby_kept {d : Device} (hd : d.Kept S Q c k) : (Device.becomeStandby d).Kept S Q c k := by
  unfold Device.becomeStandby; try dsimp only
  repeat' first
    | with_reducible assumption | with_reducible apply enterResync_kept | with_reducible apply onTwin_kept | with_reducible apply raise_kept
    | with_reducible apply setRole_kept

theorem becomeLit_kept {d : Device} (hd : d.Kept S Q c k) : (Device.becomeLit d).Kept S Q c k := by
  unfold Device.becomeLit; try dsimp only
  repeat' first
    | with_reducible assumption | with_reducible apply onTwin_kept | with_reducible apply resyncCopies_kept
    | with_reducible apply setRole_kept | split

theorem becomeIsolated_kept {d : Device} {wasLit : Bool} (hd : d.Kept S Q c k) : (Device.becomeIsolated d wasLit).Kept S Q c k := by
  unfold Device.becomeIsolated; try dsimp only
  repeat' first
    | with_reducible assumption | with_reducible apply airStart_kept | with_reducible apply onTwin_kept | with_reducible apply raise_kept
    | with_reducible apply setRole_kept

theorem staleLight_kept {d : Device} (hq : MemClosed Q) (hd : d.Kept S Q c k) : (Device.staleLight d).Kept S Q c k := by
  unfold Device.staleLight; try dsimp only
  repeat' first
    | with_reducible assumption | with_reducible apply becomeLit_kept | with_reducible apply inc_kept | with_reducible apply onLant_kept
    | with_reducible apply onTwin_kept | with_reducible apply raise_kept | with_reducible apply release_kept
    | with_reducible apply foldl_kept | split | (dsimp only) | (intro _ _ _; try dsimp only)

theorem peerReports_kept {d : Device} {x : Nat} (hd : d.Kept S Q c k) : (Device.peerReports d x).Kept S Q c k := by
  unfold Device.peerReports; try dsimp only
  repeat' first
    | with_reducible assumption | with_reducible apply becomeLit_kept | with_reducible apply becomeStandby_kept
    | with_reducible apply onTwin_kept | with_reducible apply resyncCopies_kept | split

theorem twinStart_kept {d : Device} (hd : d.Kept S Q c k) : (Device.twinStart d).Kept S Q c k := by
  unfold Device.twinStart; try dsimp only
  repeat' first
    | with_reducible assumption | with_reducible apply airStart_kept | with_reducible apply onTwin_kept | with_reducible apply setRole_kept
    | split

theorem startWaitExpiry_kept {d : Device} (hd : d.Kept S Q c k) : (startWaitExpiry d).Kept S Q c k := by
  unfold startWaitExpiry; try dsimp only
  repeat' first | with_reducible assumption | with_reducible apply becomeLit_kept | split

theorem refuseTake_kept {d : Device} (hd : d.Kept S Q c k) : (Device.refuseTake d).Kept S Q c k := by
  unfold Device.refuseTake; try dsimp only
  repeat' first
    | with_reducible assumption | with_reducible apply control_kept | with_reducible apply onTwin_kept | with_reducible apply raise_kept

theorem trigger_kept {d : Device} {at_ : Time} {code : Nat} (hd : d.Kept S Q c k) : (Device.trigger d at_ code).Kept S Q c k := by
  unfold Device.trigger; try dsimp only
  repeat' first | with_reducible assumption | with_reducible apply onTwin_kept | with_reducible apply refuseTake_kept | split

theorem jump_kept {d : Device} (hd : d.Kept S Q c k) : (Device.jump d).Kept S Q c k := by
  unfold Device.jump; try dsimp only
  repeat' first
    | with_reducible assumption | with_reducible apply keyAnnounced_kept | with_reducible apply keyWatch_kept
    | with_reducible apply onKey_kept | with_reducible apply onRwin_kept | with_reducible apply foldl_kept | split | (dsimp only)
    | (intro _ _ _; try dsimp only)

theorem takeOver_kept {d : Device} {code : Nat} (hq : MemClosed Q) (hd : d.Kept S Q c k) : (Device.takeOver d code).Kept S Q c k := by
  unfold Device.takeOver; try dsimp only
  repeat' first
    | with_reducible assumption | with_reducible apply accept_kept | with_reducible apply becomeLit_kept | with_reducible apply control_kept
    | with_reducible apply inc_kept | with_reducible apply jump_kept | with_reducible apply onLant_kept | with_reducible apply onTwin_kept
    | with_reducible apply raise_kept | split

theorem lampChange_kept {d : Device} (hq : MemClosed Q) (hd : d.Kept S Q c k) : (lampChange d).Kept S Q c k := by
  unfold lampChange; try dsimp only
  repeat' first
    | with_reducible assumption | with_reducible apply onTwin_kept | with_reducible apply refuseTake_kept
    | with_reducible apply takeOver_kept | split

theorem nameHandover_kept {d : Device} {ahead : Nat} (hd : d.Kept S Q c k) : (Device.nameHandover d ahead).Kept S Q c k := by
  unfold Device.nameHandover; try dsimp only
  repeat' first
    | with_reducible assumption | with_reducible apply control_kept | with_reducible apply onTwin_kept | with_reducible apply raise_kept
    | split

theorem handoverGo_kept {d : Device} {ahead : Nat} (hd : d.Kept S Q c k) : (Device.handoverGo d ahead).Kept S Q c k := by
  unfold Device.handoverGo; try dsimp only
  repeat' first
    | with_reducible assumption | with_reducible apply control_kept | with_reducible apply nameHandover_kept
    | with_reducible apply raise_kept | split

theorem handoverCmd_kept {sfAhead : BitVec 8} {d : Device} (hd : d.Kept S Q c k) : (handoverCmd sfAhead d).Kept S Q c k := by
  unfold handoverCmd; try dsimp only
  repeat' first | with_reducible assumption | with_reducible apply handoverGo_kept | with_reducible apply keeperAccess_kept

theorem forceGo_kept {d : Device} (hd : d.Kept S Q c k) : (Device.forceGo d).Kept S Q c k := by
  unfold Device.forceGo; try dsimp only
  repeat' first | with_reducible assumption | with_reducible apply trigger_kept | split

theorem forceCmd_kept {d : Device} (hd : d.Kept S Q c k) : (forceCmd d).Kept S Q c k := by
  unfold forceCmd; try dsimp only
  repeat' first | with_reducible assumption | with_reducible apply forceGo_kept | with_reducible apply keeperAccess_kept

theorem handoverBoundary_kept {d : Device} (hd : d.Kept S Q c k) : (handoverBoundary d).Kept S Q c k := by
  unfold handoverBoundary; try dsimp only
  repeat' first
    | with_reducible assumption | with_reducible apply gateWatch_kept | with_reducible apply onTwin_kept
    | with_reducible apply voidNotes_kept | split

theorem sendYield_kept {d : Device} (hd : d.Kept S Q c k) : (Device.sendYield d).Kept S Q c k := by
  unfold Device.sendYield; try dsimp only
  repeat' first
    | with_reducible assumption | with_reducible apply control_kept | with_reducible apply gateWatch_kept | with_reducible apply onTwin_kept
    | with_reducible apply voidNotes_kept | split

theorem yieldSeen_kept {d : Device} (hd : d.Kept S Q c k) : (Device.yieldSeen d).Kept S Q c k := by
  unfold Device.yieldSeen; try dsimp only
  repeat' first | with_reducible assumption | with_reducible apply trigger_kept | split

theorem accepted_kept {d : Device} (hd : d.Kept S Q c k) : (Device.accepted d).Kept S Q c k := by
  unfold Device.accepted; try dsimp only
  repeat' first
    | with_reducible assumption | with_reducible apply onTwin_kept | with_reducible apply peerReports_kept
    | with_reducible apply setRole_kept | split

theorem refused_kept {d : Device} (hd : d.Kept S Q c k) : (Device.refused d).Kept S Q c k := by
  unfold Device.refused; try dsimp only
  repeat' first | with_reducible assumption | with_reducible apply onTwin_kept | split

theorem hbPatternClassify_kept {h1 : Time} {h2 : Time} {h3 : Time} {d : Device}
    (hd : d.Kept S Q c k) : (hbPatternClassify h1 h2 h3 d).Kept S Q c k := by
  unfold hbPatternClassify; try dsimp only
  repeat' first
    | with_reducible assumption | with_reducible apply freeNext_kept | with_reducible apply onTwin_kept
    | with_reducible apply peerReports_kept | with_reducible apply yieldSeen_kept | split

theorem heartbeatLoss_kept {d : Device} (hd : d.Kept S Q c k) : (heartbeatLoss d).Kept S Q c k := by
  unfold heartbeatLoss; try dsimp only
  repeat' first
    | with_reducible assumption | with_reducible apply becomeIsolated_kept | with_reducible apply inc_kept
    | with_reducible apply onTwin_kept | with_reducible apply raise_kept | with_reducible apply trigger_kept | split

theorem heartbeatReturn_kept {d : Device} (hd : d.Kept S Q c k) : (heartbeatReturn d).Kept S Q c k := by
  unfold heartbeatReturn; try dsimp only
  repeat' first | with_reducible assumption | with_reducible apply becomeStandby_kept | with_reducible apply onTwin_kept | split

theorem airStep_kept {d : Device} {sf : Nat} (hq : MemClosed Q) (hd : d.Kept S Q c k) : (Device.airStep d sf).Kept S Q c k := by
  unfold Device.airStep; try dsimp only
  repeat' first
    | with_reducible assumption | with_reducible apply becomeLit_kept | with_reducible apply onTwin_kept
    | with_reducible apply staleLight_kept | with_reducible apply trigger_kept | split

theorem seniority_kept {d : Device} {peer : Bool} {serial : DWord} (hd : d.Kept S Q c k) : (Device.seniority d peer serial).Kept S Q c k := by
  unfold Device.seniority; try dsimp only
  repeat' first | with_reducible assumption | with_reducible apply onTwin_kept | with_reducible apply raise_kept | split

theorem keepRx_kept {d : Device} {p : Bytes} (hd : d.Kept S Q c k) : (Device.keepRx d p).Kept S Q c k := by
  unfold Device.keepRx; try dsimp only
  repeat' first
    | with_reducible assumption | with_reducible apply mirrorPump_kept | with_reducible apply onLL_kept | with_reducible apply onRng_kept
    | with_reducible apply onTwin_kept | with_reducible apply peerReports_kept | with_reducible apply raise_kept
    | with_reducible apply resyncCopies_kept | with_reducible apply seniority_kept | with_reducible apply foldl_kept | split | (dsimp only)
    | (intro _ _ _; try dsimp only)

theorem mirrorKeys_kept {d : Device} {c0 : Nat} (hd : d.Kept S Q c k) : (Device.mirrorKeys d c0).Kept S Q c k := by
  unfold Device.mirrorKeys; try dsimp only
  repeat' first
    | with_reducible assumption | with_reducible apply kdfGo_kept | with_reducible apply onKey_kept | with_reducible apply foldl_kept
    | split | (dsimp only) | (intro _ _ _; try dsimp only)

theorem mirrorKey_kept {d : Device} {c0 : Nat} {s : Nat} {st : KeySt} {epoch : Nat} {usage : Nat} {encReq : Bool}
    (hd : d.Kept S Q c k) : (Device.mirrorKey d c0 s st epoch usage encReq).Kept S Q c k := by
  unfold Device.mirrorKey; try dsimp only
  repeat' first
    | with_reducible assumption | with_reducible apply keyWatch_kept | with_reducible apply mirrorKeys_kept
    | with_reducible apply onCiph_kept | with_reducible apply onKey_kept | split

theorem mirrorSpool_kept {d : Device} {i : Nat} {e0 : Bytes} (hq : MemClosed Q) (hd : d.Kept S Q c k) : (Device.mirrorSpool d i e0).Kept S Q c k := by
  unfold Device.mirrorSpool; try dsimp only
  repeat' first
    | with_reducible assumption | with_reducible apply onKeep_kept | with_reducible apply onRwin_kept
    | with_reducible apply spoolWriteAt_kept | split

theorem copyDone_kept {d : Device} {ch : Nat} (hd : d.Kept S Q c k) : (Device.copyDone d ch).Kept S Q c k := by
  unfold Device.copyDone; try dsimp only
  repeat' first
    | with_reducible assumption | with_reducible apply onMirror_kept | with_reducible apply onTwin_kept | with_reducible apply raise_kept
    | split

theorem standbyApply_kept {d : Device} {ch : Nat} {r0 : MirRec}
    (hq : MemClosed Q) (hd : d.Kept S Q c k) : (Device.standbyApply d ch r0).Kept S Q c k := by
  unfold Device.standbyApply; try dsimp only
  repeat' first
    | with_reducible assumption | with_reducible apply copyDone_kept | with_reducible apply enterResync_kept
    | with_reducible apply mirrorKey_kept | with_reducible apply mirrorKeys_kept | with_reducible apply mirrorQueue_kept
    | with_reducible apply mirrorSpool_kept | with_reducible apply onClient_kept | with_reducible apply onKeep_kept
    | with_reducible apply onLant_kept | with_reducible apply onLink_kept | with_reducible apply onRwin_kept
    | with_reducible apply onTwin_kept | with_reducible apply setCfg_kept | with_reducible apply setDepth_kept | split

theorem mirrorApply_kept {d : Device} {ch : Nat} {r0 : MirRec}
    (hq : MemClosed Q) (hd : d.Kept S Q c k) : (Device.mirrorApply d ch r0).Kept S Q c k := by
  unfold Device.mirrorApply; try dsimp only
  repeat' first
    | with_reducible assumption | with_reducible apply accept_kept | with_reducible apply accepted_kept
    | with_reducible apply mirrorQueue_kept | with_reducible apply nameHandover_kept | with_reducible apply peerReports_kept
    | with_reducible apply refused_kept | with_reducible apply standbyApply_kept | with_reducible apply trigger_kept
    | with_reducible apply yieldSeen_kept | split

theorem onWatch_kept {d : Device} {w : Nat} {f : Watch → Watch} (hd : d.Kept S Q c k) : (Device.onWatch d w f).Kept S Q c k := by
  unfold Device.onWatch; try dsimp only
  repeat' first | with_reducible assumption | with_reducible apply onTender_kept

theorem watchFresh_kept {d : Device} {w : Nat} (hd : d.Kept S Q c k) : (Device.watchFresh d w).Kept S Q c k := by
  unfold Device.watchFresh; try dsimp only
  repeat' first | with_reducible assumption | with_reducible apply onWatch_kept

theorem haltEnd_kept {d : Device} (hd : d.Kept S Q c k) : (Device.haltEnd d).Kept S Q c k := by
  unfold Device.haltEnd; try dsimp only
  repeat' first
    | with_reducible assumption | with_reducible apply onTender_kept | with_reducible apply watchFresh_kept
    | with_reducible apply foldl_kept | split

theorem ladderPut_kept {d : Device} {l : Ladder} (hd : d.Kept S Q c k) : (Device.ladderPut d l).Kept S Q c k := by
  unfold Device.ladderPut; try dsimp only
  repeat' first | with_reducible assumption | with_reducible apply onTender_kept

theorem ladderHalt_kept {d : Device} (hd : d.Kept S Q c k) : (Device.ladderHalt d).Kept S Q c k := by
  unfold Device.ladderHalt; try dsimp only
  repeat' first | with_reducible assumption | with_reducible apply onTender_kept | with_reducible apply raise_kept

theorem ladderPlan_kept {d : Device} {l : Ladder} (hd : d.Kept S Q c k) : (Device.ladderPlan d l).Kept S Q c k := by
  unfold Device.ladderPlan; try dsimp only
  repeat' first
    | with_reducible assumption | with_reducible apply ladderHalt_kept | with_reducible apply ladderPut_kept
    | with_reducible apply sendYield_kept | split

theorem ladderStart_kept {d : Device} {n : Nat} {w : Option Nat} {step : Nat} {trigger : Nat}
    (hd : d.Kept S Q c k) : (Device.ladderStart d n w step trigger).Kept S Q c k := by
  unfold Device.ladderStart; try dsimp only
  repeat' first | with_reducible assumption | with_reducible apply ladderPlan_kept | with_reducible apply trigger_kept | split

theorem ladderAsk_kept {d : Device} {trigger : Nat} {n : Nat} {step : Nat} {rr : Device}
    (e : (Device.ladderAsk d trigger n step) = some rr) (hd : d.Kept S Q c k) : rr.Kept S Q c k := by
  unfold Device.ladderAsk at e; try dsimp only at e
  repeat' split at e
  all_goals first | (cases e; done) | (cases e; (repeat' first | with_reducible assumption | with_reducible apply haltEnd_kept | with_reducible apply ladderPlan_kept); done)

theorem haltClear_kept {d : Device} (hd : d.Kept S Q c k) : (Device.haltClear d).Kept S Q c k := by
  unfold Device.haltClear; try dsimp only
  repeat' first | with_reducible assumption | with_reducible apply haltEnd_kept

theorem domFault_kept {d : Device} {n : Nat} (hd : d.Kept S Q c k) : (Device.domFault d n).Kept S Q c k := by
  unfold Device.domFault; try dsimp only
  repeat' first
    | with_reducible assumption | with_reducible apply ladderStart_kept | with_reducible apply onDom_kept
    | with_reducible apply onTender_kept | split

theorem ladderReap_kept {d : Device} (hd : d.Kept S Q c k) : (Device.ladderReap d).Kept S Q c k := by
  unfold Device.ladderReap; try dsimp only
  repeat' first | with_reducible assumption | with_reducible apply onTender_kept | split

theorem ladderReady_kept {d : Device} {n : Nat} (hd : d.Kept S Q c k) : (Device.ladderReady d n).Kept S Q c k := by
  unfold Device.ladderReady; try dsimp only
  repeat' first | with_reducible assumption | with_reducible apply ladderReap_kept | with_reducible apply onTender_kept

theorem ladderStage_kept {d : Device} (hd : d.Kept S Q c k) : (Device.ladderStage d).Kept S Q c k := by
  unfold Device.ladderStage; try dsimp only
  repeat' first
    | with_reducible assumption | with_reducible apply ladderReap_kept | with_reducible apply ladderStart_kept
    | with_reducible apply onTender_kept | with_reducible apply watchFresh_kept | with_reducible apply foldl_kept | split | (dsimp only)
    | (intro _ _ _; try dsimp only)

theorem onLane_kept {d : Device} {n : Nat} {f : Lane → Lane} (hd : d.Kept S Q c k) : (Device.onLane d n f).Kept S Q c k := by
  unfold Device.onLane; try dsimp only
  repeat' first | with_reducible assumption | with_reducible apply onLanes_kept

theorem shown_kept {f : Device → Device} (hf : (f d).Kept S Q c k) : (d.shown f).Kept S Q c k :=
  foldl_kept (fun _ _ h => ite_kept h (emit_kept h)) hf

theorem setLink_kept {d : Device} {e0 : Nat} {up : Bool} (hd : d.Kept S Q c k) : (Device.setLink d e0 up).Kept S Q c k := by
  unfold Device.setLink; try dsimp only
  repeat' first
    | with_reducible assumption | with_reducible apply inc_kept | with_reducible apply onLanes_kept | with_reducible apply raise_kept
    | split

theorem stampRx_kept {d : Device} {e0 : Nat} {data : Bytes} (hd : d.Kept S Q c k) : (Device.stampRx d e0 data).Kept S Q c k := by
  unfold Device.stampRx; try dsimp only
  repeat' first | with_reducible assumption | with_reducible apply tsPush_kept | split

theorem ethFrameRx_kept {e0 : Fin 6} {data : Bytes} {d : Device} (hd : d.Kept S Q c k) : (ethFrameRx e0 data d).Kept S Q c k := by
  unfold ethFrameRx; try dsimp only
  repeat' first
    | with_reducible assumption | with_reducible apply inc_kept | with_reducible apply ingressPush_kept | with_reducible apply stampRx_kept
    | split

theorem linkUpChange_kept {e0 : Fin 6} {blockLock : Bool} {hiBer : Bool} {localFault : Bool} {remoteFault : Bool} {d : Device}
    (hd : d.Kept S Q c k) : (linkUpChange e0 blockLock hiBer localFault remoteFault d).Kept S Q c k := by
  unfold linkUpChange; try dsimp only
  repeat' first
    | with_reducible assumption | with_reducible apply freeNext_kept | with_reducible apply onLane_kept | with_reducible apply onLanes_kept
    | with_reducible apply setLink_kept | with_reducible apply shown_kept | split

theorem rngRate_kept {d : Device} {rate : Nat} (hd : d.Kept S Q c k) : (Device.rngRate d rate).Kept S Q c k := by
  unfold Device.rngRate; try dsimp only
  repeat' first | with_reducible assumption | with_reducible apply onLane_kept | split

theorem rngTaps_kept {d : Device} {t6 : Word} {t7 : Word} (hd : d.Kept S Q c k) : (Device.rngTaps d t6 t7).Kept S Q c k := by
  unfold Device.rngTaps; try dsimp only
  repeat' first | with_reducible assumption | with_reducible apply onLane_kept

theorem rngTaps0_kept {d : Device} (hd : d.Kept S Q c k) : (Device.rngTaps0 d).Kept S Q c k := by
  unfold Device.rngTaps0; try dsimp only
  repeat' first | with_reducible assumption | with_reducible apply rngTaps_kept

theorem rngOff_kept {d : Device} (hd : d.Kept S Q c k) : (Device.rngOff d).Kept S Q c k := by
  unfold Device.rngOff; try dsimp only
  repeat' first
    | with_reducible assumption | with_reducible apply onRng_kept | with_reducible apply rngRate_kept | with_reducible apply rngTaps0_kept
    | with_reducible apply settleRng_kept

theorem trainSend_kept {d : Device} {result : Option Bool} (hd : d.Kept S Q c k) : (Device.trainSend d result).Kept S Q c k := by
  unfold Device.trainSend; try dsimp only
  repeat' first | with_reducible assumption | with_reducible apply rngSend_kept

theorem bringStart_kept {d : Device} (hd : d.Kept S Q c k) : (Device.bringStart d).Kept S Q c k := by
  unfold Device.bringStart; try dsimp only
  repeat' first
    | with_reducible assumption | with_reducible apply inc_kept | with_reducible apply onRng_kept | with_reducible apply rngOff_kept
    | with_reducible apply rngRate_kept | with_reducible apply rngTaps0_kept | with_reducible apply settleRng_kept
    | with_reducible apply trainSend_kept | split

theorem rngFail_kept {d : Device} (hd : d.Kept S Q c k) : (Device.rngFail d).Kept S Q c k := by
  unfold Device.rngFail; try dsimp only
  repeat' first
    | with_reducible assumption | with_reducible apply onRng_kept | with_reducible apply rngRate_kept | with_reducible apply settleRng_kept

theorem rngLeave_kept {d : Device} (hd : d.Kept S Q c k) : (Device.rngLeave d).Kept S Q c k := by
  unfold Device.rngLeave; try dsimp only
  repeat' first
    | with_reducible assumption | with_reducible apply freeCells_kept | with_reducible apply onEgress_kept | with_reducible apply onRng_kept
    | with_reducible apply onTime_kept | with_reducible apply raise_kept | with_reducible apply refLoss_kept
    | with_reducible apply settle_kept | with_reducible apply settleRng_kept | with_reducible apply foldl_kept | split | (dsimp only)
    | (intro _ _ _; try dsimp only)

theorem rngDown_kept {d : Device} (hd : d.Kept S Q c k) : (Device.rngDown d).Kept S Q c k := by
  unfold Device.rngDown; try dsimp only
  repeat' first | with_reducible assumption | with_reducible apply bringStart_kept | with_reducible apply rngLeave_kept | split

theorem rngUp_kept {d : Device} (hd : d.Kept S Q c k) : (Device.rngUp d).Kept S Q c k := by
  unfold Device.rngUp; try dsimp only
  repeat' first
    | with_reducible assumption | with_reducible apply enterResync_kept | with_reducible apply freeNext_kept
    | with_reducible apply full_kept | with_reducible apply onLane_kept | with_reducible apply onRng_kept | with_reducible apply raise_kept
    | with_reducible apply rngRate_kept | with_reducible apply settleRng_kept | split

theorem rngBringupStart_kept {d : Device} (hd : d.Kept S Q c k) : (rngBringupStart d).Kept S Q c k := by
  unfold rngBringupStart; try dsimp only
  repeat' first | with_reducible assumption | with_reducible apply bringStart_kept | with_reducible apply shown_kept | split

theorem rngTrainTimeout_kept {d : Device} (hd : d.Kept S Q c k) : (rngTrainTimeout d).Kept S Q c k := by
  unfold rngTrainTimeout; try dsimp only
  repeat' first | with_reducible assumption | with_reducible apply rngFail_kept | with_reducible apply shown_kept | split

theorem rngRetryExpiry_kept {d : Device} (hd : d.Kept S Q c k) : (rngRetryExpiry d).Kept S Q c k := by
  unfold rngRetryExpiry; try dsimp only
  repeat' first | with_reducible assumption | with_reducible apply bringStart_kept | with_reducible apply shown_kept | split

theorem prbsCount_kept {d : Device} {n : Nat} {errs : Nat} {bits : Nat} (hd : d.Kept S Q c k) : (Device.prbsCount d n errs bits).Kept S Q c k := by
  unfold Device.prbsCount; try dsimp only
  repeat' first
    | with_reducible assumption | with_reducible apply addCnt_kept | with_reducible apply freeNext_kept | with_reducible apply onLane_kept
    | split

theorem rngCheckEnd_kept {errs6 errs7 : Nat} {d : Device} (h : d.Kept S Q c k) : (rngCheckEnd errs6 errs7 d).Kept S Q c k := by
  unfold rngCheckEnd; extract_lets r due
  split
  · exact h
  · refine shown_kept ?_; extract_lets d1 d2 d3 d4 d5
    have h2 : d2.Kept S Q c k := ite_kept (prbsCount_kept (ite_kept (prbsCount_kept h) h)) (ite_kept (prbsCount_kept h) h)
    clear_value d2
    split
    · have h3 : d3.Kept S Q c k := ite_kept (onLane_kept h2) h2
      clear_value d3
      have h4 : d4.Kept S Q c k := ite_kept (onLane_kept h3) h3
      clear_value d4
      exact ite_kept (trainSend_kept (onRng_kept h4)) (rngFail_kept (onRng_kept h4))
    · exact trainSend_kept (onRng_kept h2)

theorem rngNext_kept {d : Device} (hd : d.Kept S Q c k) : (Device.rngNext d).Kept S Q c k := by
  unfold Device.rngNext; try dsimp only
  repeat' first
    | with_reducible assumption | with_reducible apply onRng_kept | with_reducible apply rngRate_kept | with_reducible apply rngTaps0_kept
    | with_reducible apply rngUp_kept | with_reducible apply trainSend_kept | split

theorem rngStepResult_kept {d : Device} (hd : d.Kept S Q c k) : (rngStepResult d).Kept S Q c k := by
  unfold rngStepResult; try dsimp only
  repeat' first
    | with_reducible assumption | with_reducible apply onLane_kept | with_reducible apply onRng_kept | with_reducible apply rngFail_kept
    | with_reducible apply rngNext_kept | with_reducible apply rngRate_kept | with_reducible apply rngTaps_kept
    | with_reducible apply rngUp_kept | with_reducible apply settleRng_kept | with_reducible apply shown_kept
    | with_reducible apply trainSend_kept | split

theorem trainRx_kept {d : Device} {m : Train} (hd : d.Kept S Q c k) : (Device.trainRx d m).Kept S Q c k := by
  unfold Device.trainRx; try dsimp only
  repeat' first
    | with_reducible assumption | with_reducible apply onLane_kept | with_reducible apply onRng_kept | with_reducible apply trainSend_kept
    | split

theorem laneSees_kept {d : Device} {n : Nat} {block : Bool} {hiBer : Bool}
    (hd : d.Kept S Q c k) : (Device.laneSees d n block hiBer).Kept S Q c k := by
  unfold Device.laneSees; try dsimp only
  repeat' first | with_reducible assumption | with_reducible apply onLane_kept

theorem rngLinkDown_kept {block6 : Bool} {hiBer6 : Bool} {block7 : Bool} {hiBer7 : Bool} {d : Device}
    (hd : d.Kept S Q c k) : (rngLinkDown block6 hiBer6 block7 hiBer7 d).Kept S Q c k := by
  unfold rngLinkDown; try dsimp only
  repeat' first
    | with_reducible assumption | with_reducible apply laneSees_kept | with_reducible apply rngDown_kept | with_reducible apply shown_kept
    | split

theorem retrain_kept {d : Device} (hd : d.Kept S Q c k) : (Device.retrain d).Kept S Q c k := by
  unfold Device.retrain; try dsimp only
  repeat' first | with_reducible assumption | with_reducible apply bringStart_kept | with_reducible apply rngDown_kept | split

theorem rngRetrainCmd_kept {d : Device} (hd : d.Kept S Q c k) : (rngRetrainCmd d).Kept S Q c k := by
  unfold rngRetrainCmd; try dsimp only
  repeat' first
    | with_reducible assumption | with_reducible apply keeperAccess_kept | with_reducible apply retrain_kept
    | with_reducible apply shown_kept

theorem rngIdleEntry_kept {d : Device} (hd : d.Kept S Q c k) : (rngIdleEntry d).Kept S Q c k := by
  unfold rngIdleEntry; try dsimp only
  repeat' first | with_reducible assumption | with_reducible apply onRng_kept | with_reducible apply shown_kept | split

theorem keepaliveTimer_kept {d : Device} (hd : d.Kept S Q c k) : (keepaliveTimer d).Kept S Q c k := by
  unfold keepaliveTimer; try dsimp only
  repeat' first | with_reducible assumption | with_reducible apply keepSend_kept | split

theorem mirrorRetxTimeout_kept {ch : Fin 6} {d : Device} (hd : d.Kept S Q c k) : (mirrorRetxTimeout ch d).Kept S Q c k := by
  unfold mirrorRetxTimeout; try dsimp only
  repeat' first
    | with_reducible assumption | with_reducible apply inc_kept | with_reducible apply mirrorEmit_kept | with_reducible apply onMirror_kept
    | with_reducible apply foldl_kept | split | (dsimp only) | (intro _ _ _; try dsimp only)

theorem ackTake_kept {d : Device} {ch : Nat} {a : Nat} (hd : d.Kept S Q c k) : (Device.ackTake d ch a).Kept S Q c k := by
  unfold Device.ackTake; try dsimp only
  repeat' first | with_reducible assumption | with_reducible apply mirrorPump_kept | with_reducible apply onMirror_kept | split

theorem getD_kept {o : Option Device} (ho : ∀ r, o = some r → r.Kept S Q c k) (h : d.Kept S Q c k) : (o.getD d).Kept S Q c k := by
  cases o with
  | none => exact h
  | some r => exact ho r rfl

theorem mirrorTake_kept {d : Device} {ch : Nat} {payload : Bytes}
    (hq : MemClosed Q) (h : d.Kept S Q c k) : (d.mirrorTake ch payload).Kept S Q c k := by
  unfold Device.mirrorTake; split
  · exact getD_kept (fun _ e => ladderAsk_kept e h) h
  · exact mirrorApply_kept hq h
  · exact h

theorem mirrorRx_kept {d : Device} {ch : Nat} {seq : Nat} {ack : Nat} {p : Bytes}
    (hq : MemClosed Q) (hd : d.Kept S Q c k) : (Device.mirrorRx d ch seq ack p).Kept S Q c k := by
  unfold Device.mirrorRx; try dsimp only
  repeat' first
    | with_reducible assumption | with_reducible apply ackTake_kept | with_reducible apply inc_kept | with_reducible apply keepSend_kept
    | with_reducible apply mirrorTake_kept | with_reducible apply onMirror_kept | with_reducible apply onTwin_kept | split

theorem keepFrame_kept {d : Device} {ch : Nat} {ack : Nat} {p : Bytes} (hd : d.Kept S Q c k) : (Device.keepFrame d ch ack p).Kept S Q c k := by
  unfold Device.keepFrame; try dsimp only
  repeat' first
    | with_reducible assumption | with_reducible apply ackTake_kept | with_reducible apply inc_kept | with_reducible apply keepRx_kept
    | split

theorem timeRx_kept {d : Device} {p : Bytes} (hd : d.Kept S Q c k) : (Device.timeRx d p).Kept S Q c k := by
  unfold Device.timeRx; try dsimp only
  repeat' first
    | with_reducible assumption | with_reducible apply measure_kept | with_reducible apply onTime_kept | with_reducible apply rngSend_kept
    | with_reducible apply foldl_kept | split | (dsimp only) | (intro _ _ _; try dsimp only)

theorem rngFrameRx_kept {data : Bytes} {d : Device} (hq : MemClosed Q) (hd : d.Kept S Q c k) : (rngFrameRx data d).Kept S Q c k := by
  unfold rngFrameRx; try dsimp only
  repeat' first
    | with_reducible assumption | with_reducible apply ackTake_kept | with_reducible apply inc_kept | with_reducible apply ingressPush_kept
    | with_reducible apply keepFrame_kept | with_reducible apply mirrorRx_kept | with_reducible apply onRng_kept
    | with_reducible apply rngDown_kept | with_reducible apply shown_kept | with_reducible apply timeRx_kept
    | with_reducible apply trainRx_kept | split

theorem timeExchangeTimer_kept {d : Device} (hd : d.Kept S Q c k) : (timeExchangeTimer d).Kept S Q c k := by
  unfold timeExchangeTimer; try dsimp only
  repeat' first
    | with_reducible assumption | with_reducible apply onRng_kept | with_reducible apply onTime_kept | with_reducible apply rngSend_kept
    | split

theorem laneTestGo_kept {d : Device} {n : Nat} {v : Word} (hd : d.Kept S Q c k) : (Device.laneTestGo d n v).Kept S Q c k := by
  unfold Device.laneTestGo; try dsimp only
  repeat' first
    | with_reducible assumption | with_reducible apply bringStart_kept | with_reducible apply freeNext_kept
    | with_reducible apply onLane_kept | with_reducible apply rngLeave_kept | with_reducible apply rngOff_kept
    | with_reducible apply setCfg_kept | with_reducible apply setLink_kept | with_reducible apply shown_kept | split

theorem laneTestWrite_kept {lane : Fin 8} {v : Word} {d : Device} (hd : d.Kept S Q c k) : (laneTestWrite lane v d).Kept S Q c k := by
  unfold laneTestWrite; try dsimp only
  repeat' first | with_reducible assumption | with_reducible apply keeperAccess_kept | with_reducible apply laneTestGo_kept

theorem prbsCheckerSync_kept {lane : Fin 8} {bits : List Bool} {d : Device} (hd : d.Kept S Q c k) : (prbsCheckerSync lane bits d).Kept S Q c k := by
  unfold prbsCheckerSync; try dsimp only
  repeat' first | with_reducible assumption | with_reducible apply onLane_kept | with_reducible apply prbsCount_kept | split

theorem tsPop_kept {d : Device} (hd : d.Kept S Q c k) : (tsPop d).Kept S Q c k := by
  unfold tsPop; try dsimp only
  repeat' first
    | with_reducible assumption | with_reducible apply emit_kept | with_reducible apply keeperAccess_kept
    | with_reducible apply onLanes_kept | split

theorem lanesReady_kept {d : Device} (hd : d.Kept S Q c k) : (Device.lanesReady d).Kept S Q c k := by
  unfold Device.lanesReady; try dsimp only
  repeat' first
    | with_reducible assumption | with_reducible apply bringStart_kept | with_reducible apply onLane_kept | with_reducible apply shown_kept
    | with_reducible apply foldl_kept | split | (dsimp only) | (intro _ _ _; try dsimp only)

theorem lanesHold_kept {d : Device} (hd : d.Kept S Q c k) : (Device.lanesHold d).Kept S Q c k := by
  unfold Device.lanesHold; try dsimp only
  repeat' first
    | with_reducible assumption | with_reducible apply onLane_kept | with_reducible apply rngLeave_kept | with_reducible apply rngOff_kept
    | with_reducible apply setLink_kept | with_reducible apply shown_kept | with_reducible apply foldl_kept | split | (dsimp only)
    | (intro _ _ _; try dsimp only)

theorem rcTake_kept {d : Device} {addr : Nat} {x0 : Word} {rr : Device}
    (e : (Device.rcTake d addr) = (x0, rr)) (hd : d.Kept S Q c k) : rr.Kept S Q c k := by
  unfold Device.rcTake at e; try dsimp only at e
  repeat' split at e
  all_goals first | (cases e; done) | (cases e; (repeat' first | with_reducible assumption | with_reducible apply incRead_kept | split | (dsimp only) | (intro _ _ _; try dsimp only) | (simp only [kept_mk])); done)

theorem rcTake_kept2 {d : Device} {addr : Nat}
    (hd : d.Kept S Q c k) : (Device.rcTake d addr).2.Kept S Q c k := rcTake_kept (rr := (Device.rcTake d addr).2) rfl hd

theorem lowTake_kept {d : Device} {addr : Nat} {n : Nat} {off : Nat} {i : Nat} {x0 : Word} {rr : Device}
    (e : (Device.lowTake d addr n off i) = (x0, rr)) (hd : d.Kept S Q c k) : rr.Kept S Q c k := by
  unfold Device.lowTake at e; try dsimp only at e
  repeat' split at e
  all_goals first | (cases e; done) | (cases e; (repeat' first | with_reducible assumption | split | (dsimp only) | (intro _ _ _; try dsimp only) | (simp only [kept_mk])); done)

theorem lowTake_kept2 {d : Device} {addr : Nat} {n : Nat} {off : Nat} {i : Nat}
    (hd : d.Kept S Q c k) : (Device.lowTake d addr n off i).2.Kept S Q c k := lowTake_kept (rr := (Device.lowTake d addr n off i).2) rfl hd

theorem popTake_kept {d : Device} {addr : Nat} {x0 : Word} {rr : Device}
    (e : (Device.popTake d addr) = (x0, rr)) (hd : d.Kept S Q c k) : rr.Kept S Q c k := by
  unfold Device.popTake at e; try dsimp only at e
  repeat' split at e
  all_goals first | (cases e; done) | (cases e; (repeat' first | with_reducible assumption | with_reducible apply evOccRead_kept | with_reducible apply learnPop_kept | with_reducible apply tsPop_kept | split | (dsimp only) | (intro _ _ _; try dsimp only) | (simp only [kept_mk])); done)

theorem popTake_kept2 {d : Device} {addr : Nat}
    (hd : d.Kept S Q c k) : (Device.popTake d addr).2.Kept S Q c k := popTake_kept (rr := (Device.popTake d addr).2) rfl hd

theorem regRead_kept {d : Device} {addr : Nat} {x0 : Word} {rr : Device}
    (e : (Device.regRead d addr) = (x0, rr)) (hd : d.Kept S Q c k) : rr.Kept S Q c k := by
  unfold Device.regRead at e; try dsimp only at e
  repeat' split at e
  all_goals first | (cases e; done) | (cases e; (repeat' first | with_reducible assumption | with_reducible apply freeNext_kept | (with_reducible refine lowTake_kept (by assumption) ?_) | with_reducible apply lowTake_kept2 | (with_reducible refine popTake_kept (by assumption) ?_) | with_reducible apply popTake_kept2 | (with_reducible refine rcTake_kept (by assumption) ?_) | with_reducible apply rcTake_kept2 | split | (dsimp only) | (intro _ _ _; try dsimp only) | (simp only [kept_mk]) | (simp only [kept_mk_clk])); done) | (refine lowTake_kept e ?_; (repeat' first | with_reducible assumption | with_reducible apply freeNext_kept | (with_reducible refine lowTake_kept (by assumption) ?_) | with_reducible apply lowTake_kept2 | (with_reducible refine popTake_kept (by assumption) ?_) | with_reducible apply popTake_kept2 | (with_reducible refine rcTake_kept (by assumption) ?_) | with_reducible apply rcTake_kept2 | split | (dsimp only) | (intro _ _ _; try dsimp only) | (simp only [kept_mk]) | (simp only [kept_mk_clk])); done) | (refine popTake_kept e ?_; (repeat' first | with_reducible assumption); done) | (refine rcTake_kept e ?_; (repeat' first | with_reducible assumption); done)

theorem regRead_kept2 {d : Device} {addr : Nat}
    (hd : d.Kept S Q c k) : (Device.regRead d addr).2.Kept S Q c k := regRead_kept (rr := (Device.regRead d addr).2) rfl hd

theorem busRead_kept {d : Device} {req : Nat} {addr : Nat} {width : Nat} {x0 : Word} {rr : Device}
    (e : (Device.busRead d req addr width) = (x0, rr)) (hd : d.Kept S Q c k) : rr.Kept S Q c k := by
  unfold Device.busRead at e; try dsimp only at e
  repeat' split at e
  all_goals first | (cases e; done) | (cases e; (repeat' first | with_reducible assumption | with_reducible apply raise_kept); done) | (refine regRead_kept e ?_; (repeat' first | with_reducible assumption); done)

theorem busRead_kept2 {d : Device} {req : Nat} {addr : Nat} {width : Nat}
    (hd : d.Kept S Q c k) : (Device.busRead d req addr width).2.Kept S Q c k := busRead_kept (rr := (Device.busRead d req addr width).2) rfl hd

theorem readOut_kept {d : Device} {req : Nat} {addr : Nat} {width : Nat} (hd : d.Kept S Q c k) : (Device.readOut d req addr width).Kept S Q c k := by
  unfold Device.readOut; try dsimp only
  repeat' first
    | with_reducible assumption | (with_reducible refine busRead_kept (by assumption) ?_) | with_reducible apply busRead_kept2
    | with_reducible apply emit_kept

theorem rcRead_kept {req : Nat} {addr : Nat} {width : Nat} {d : Device} (hd : d.Kept S Q c k) : (rcRead req addr width d).Kept S Q c k := by
  unfold rcRead; try dsimp only
  repeat' first | with_reducible assumption | with_reducible apply readOut_kept

theorem lowWordRead_kept {req : Nat} {addr : Nat} {width : Nat} {d : Device} (hd : d.Kept S Q c k) : (lowWordRead req addr width d).Kept S Q c k := by
  unfold lowWordRead; try dsimp only
  repeat' first | with_reducible assumption | with_reducible apply readOut_kept

theorem snapTake_kept {d : Device} {n : Nat} (hd : d.Kept S Q c k) : (Device.snapTake d n).Kept S Q c k := by
  unfold Device.snapTake; try dsimp only
  repeat' first
    | with_reducible assumption | with_reducible apply foldl_kept | split | (dsimp only) | (intro _ _ _; try dsimp only)
    | (simp only [kept_mk])

theorem snapDrop_kept {d : Device} {n : Nat} (hd : d.Kept S Q c k) : (Device.snapDrop d n).Kept S Q c k := by
  unfold Device.snapDrop; try dsimp only
  repeat' first | with_reducible assumption | split | (dsimp only) | (intro _ _ _; try dsimp only) | (simp only [kept_mk])

theorem snapWrite_kept {d : Device} {n : Nat} {v : Word} (hd : d.Kept S Q c k) : (Device.snapWrite d n v).Kept S Q c k := by
  unfold Device.snapWrite; try dsimp only
  repeat' first | with_reducible assumption | with_reducible apply snapDrop_kept | with_reducible apply snapTake_kept | split

theorem snapCapture_kept {n : Fin 10} {d : Device} (hd : d.Kept S Q c k) : (snapCapture n d).Kept S Q c k := by
  unfold snapCapture; try dsimp only
  repeat' first | with_reducible assumption | with_reducible apply keeperAccess_kept | with_reducible apply snapWrite_kept

theorem snapEnd_kept {n : Fin 10} {d : Device} (hd : d.Kept S Q c k) : (snapEnd n d).Kept S Q c k := by
  unfold snapEnd; try dsimp only
  repeat' first | with_reducible assumption | with_reducible apply keeperAccess_kept | with_reducible apply snapWrite_kept

theorem onGpio_kept {d : Device} {i : Nat} {f : Gpio → Gpio} (hd : d.Kept S Q c k) : (Device.onGpio d i f).Kept S Q c k := by
  unfold Device.onGpio; try dsimp only
  repeat' first | with_reducible assumption | with_reducible apply onPwr_kept

theorem gpioSync_kept {d : Device} {i : Nat} (hd : d.Kept S Q c k) : (Device.gpioSync d i).Kept S Q c k := by
  unfold Device.gpioSync; try dsimp only
  repeat' first | with_reducible assumption | with_reducible apply onGpio_kept | with_reducible apply raise_kept | split

theorem gpioDebounce_kept {pin : Fin 16} {level : Bool} {since : Time} {d : Device}
    (hd : d.Kept S Q c k) : (gpioDebounce pin level since d).Kept S Q c k := by
  unfold gpioDebounce; try dsimp only
  repeat' first | with_reducible assumption | with_reducible apply gpioSync_kept | with_reducible apply onGpio_kept | split

theorem gpioChatterCheck_kept {pin : Fin 16} {transitions : Nat} {d : Device}
    (hd : d.Kept S Q c k) : (gpioChatterCheck pin transitions d).Kept S Q c k := by
  unfold gpioChatterCheck; try dsimp only
  repeat' first | with_reducible assumption | with_reducible apply onGpio_kept | with_reducible apply raise_kept | split

theorem gpioReassess_kept {pin : Fin 16} {transitions : Nat} {d : Device} (hd : d.Kept S Q c k) : (gpioReassess pin transitions d).Kept S Q c k := by
  unfold gpioReassess; try dsimp only
  repeat' first
    | with_reducible assumption | with_reducible apply gpioSync_kept | with_reducible apply onGpio_kept | with_reducible apply raise_kept
    | split

theorem gpioStuck_kept {pin : Fin 16} {d : Device} (hd : d.Kept S Q c k) : (gpioStuck pin d).Kept S Q c k := by
  unfold gpioStuck; try dsimp only
  repeat' first | with_reducible assumption | with_reducible apply onGpio_kept | with_reducible apply raise_kept | split

theorem gpioCfg_kept {d : Device} {i : Nat} {v : Word} (hd : d.Kept S Q c k) : (Device.gpioCfg d i v).Kept S Q c k := by
  unfold Device.gpioCfg; try dsimp only
  repeat' first
    | with_reducible assumption | with_reducible apply gpioSync_kept | with_reducible apply onGpio_kept | with_reducible apply setCfg_kept
    | split

theorem watchCfg_kept {d : Device} {w : Nat} {v : Word} (hd : d.Kept S Q c k) : (Device.watchCfg d w v).Kept S Q c k := by
  unfold Device.watchCfg; try dsimp only
  repeat' first | with_reducible assumption | with_reducible apply setCfg_kept | with_reducible apply watchFresh_kept | split

theorem linkTxPut_kept {d : Device} {v : Word} (hd : d.Kept S Q c k) : (Device.linkTxPut d v).Kept S Q c k := by
  unfold Device.linkTxPut; try dsimp only
  repeat' first | with_reducible assumption | with_reducible apply onLink_kept | split

theorem gateCtrlPut_kept {d : Device} {e0 : Nat} {v : Word} (hd : d.Kept S Q c k) : (Device.gateCtrlPut d e0 v).Kept S Q c k := by
  unfold Device.gateCtrlPut; try dsimp only
  repeat' first
    | with_reducible assumption | with_reducible apply gateAdvance_kept | with_reducible apply setCfg_kept
    | with_reducible apply settlePort_kept | split

theorem regPut_kept {d : Device} {addr : Nat} {v : Word} (hd : d.Kept S Q c k) : (Device.regPut d addr v).Kept S Q c k := by
  unfold Device.regPut; try dsimp only
  repeat' first
    | with_reducible assumption | with_reducible apply gateCtrlPut_kept | with_reducible apply gateDataPut_kept
    | with_reducible apply gpioCfg_kept | with_reducible apply laneTestGo_kept | with_reducible apply linkTxPut_kept
    | with_reducible apply openPut_kept | with_reducible apply setCfg_kept | with_reducible apply watchCfg_kept | split

theorem regMerge_kept {d : Device} {addr : Nat} {mask : Word} {v : Word} (hd : d.Kept S Q c k) : (Device.regMerge d addr mask v).Kept S Q c k := by
  unfold Device.regMerge; try dsimp only
  repeat' first | with_reducible assumption | with_reducible apply regPut_kept

theorem regsReset_kept {d : Device} {n : Nat} (hd : d.Kept S Q c k) : (Device.regsReset d n).Kept S Q c k := by
  unfold Device.regsReset; try dsimp only
  repeat' first | with_reducible assumption | split | (dsimp only) | (intro _ _ _; try dsimp only) | (simp only [kept_mk])

theorem writeEntry_kept {d : Device} {n : Nat} {b : Bytes} {x0 : Bytes} {rr : Device}
    (e : (Device.writeEntry d n b) = some (rr, x0)) (hd : d.Kept S Q c k) : rr.Kept S Q c k := by
  unfold Device.writeEntry at e; try dsimp only at e
  repeat' split at e
  all_goals first | (cases e; done) | (cases e; (repeat' first | with_reducible assumption | with_reducible apply regMerge_kept); done)

theorem writeEntries_kept {n : Nat} : ∀ {m : Nat} {b : Bytes} {d : Device} {x : Bytes} {rr : Device}, d.writeEntries n m b = some (rr, x) → d.Kept S Q c k → rr.Kept S Q c k
  | 0, _, _, _, _, e, h => by unfold Device.writeEntries at e; cases e; exact h
  | m + 1, b, d, x, rr, e, h => by
    unfold Device.writeEntries at e
    split at e
    · cases e
    · rename_i d1 x1 e1
      obtain ⟨⟨r, y⟩, e2, e3⟩ := Option.map_eq_some_iff.mp e
      cases e3; exact writeEntries_kept e2 (writeEntry_kept e1 h)

theorem tableRcd_kept {d : Device} {b : Bytes} {rr : Device} (e : (Device.tableRcd d b) = some rr) (hd : d.Kept S Q c k) : rr.Kept S Q c k := by
  unfold Device.tableRcd at e; try dsimp only at e
  repeat' split at e
  all_goals first | (cases e; done) | (cases e; (repeat' first | with_reducible assumption | with_reducible apply onPkt_kept | with_reducible apply foldl_kept | split | (dsimp only) | (intro _ _ _; try dsimp only)); done)

theorem innerRcd_kept {d : Device} {r0 : Rcd} {rr : Device} (e : (Device.innerRcd d r0) = some rr) (hd : d.Kept S Q c k) : rr.Kept S Q c k := by
  unfold Device.innerRcd at e; try dsimp only at e
  repeat' split at e
  all_goals first | (cases e; done) | (cases e; (repeat' first | with_reducible assumption | with_reducible apply onCiph_kept); done)

theorem innerRcds_kept {d : Device} {a1 : List Rcd} {rr : Device}
    (e : (Device.innerRcds d a1) = some rr) (hd : d.Kept S Q c k) : rr.Kept S Q c k := by
  revert rr
  fun_induction Device.innerRcds d a1
  all_goals intro rr e
  all_goals try dsimp only at e
  all_goals first | (cases e; done) | (cases e; (repeat' first | with_reducible assumption); done) | (refine innerRcd_kept e ?_; (repeat' first | with_reducible assumption | (with_reducible refine innerRcd_kept (by assumption) ?_) | split | (dsimp only) | (intro _ _ _; try dsimp only) | (simp only [kept_mk]) | (simp only [kept_mk_clk]) | (apply_assumption)); done) | (apply_assumption <;> first | exact e | (repeat' first | with_reducible assumption | (with_reducible refine innerRcd_kept (by assumption) ?_)); done)

theorem sealedRcd_kept {d : Device} {s : Sect} {b : Bytes} {rr : Device}
    (e : (Device.sealedRcd d s b) = some rr) (hd : d.Kept S Q c k) : rr.Kept S Q c k := by
  unfold Device.sealedRcd at e; try dsimp only at e
  repeat' split at e
  all_goals first | (cases e; done) | (cases e; (repeat' first | with_reducible assumption | (with_reducible refine innerRcds_kept (by assumption) ?_) | split | (dsimp only) | (intro _ _ _; try dsimp only) | (simp only [kept_mk]) | (simp only [kept_mk_clk])); done) | (refine innerRcds_kept e ?_; (repeat' first | with_reducible assumption); done)

theorem peerRcd_kept {d : Device} {b : Bytes} (hd : d.Kept S Q c k) : (Device.peerRcd d b).Kept S Q c k := by
  unfold Device.peerRcd; try dsimp only
  repeat' first
    | with_reducible assumption | with_reducible apply setCfg_kept | with_reducible apply foldl_kept | split | (dsimp only)
    | (intro _ _ _; try dsimp only)

theorem applyRcd_kept {d : Device} {s : Sect} {r : Rcd} {x : Bytes} {rr : Device}
    (e : d.applyRcd s r = some (rr, x)) (h : d.Kept S Q c k) : rr.Kept S Q c k := by
  unfold Device.applyRcd at e
  split at e
  · obtain ⟨⟨r, y⟩, e2, e3⟩ := Option.map_eq_some_iff.mp e; cases e3; exact writeEntries_kept e2 h
  · obtain ⟨r, e2, e3⟩ := Option.map_eq_some_iff.mp e; cases e3; exact tableRcd_kept e2 h
  · cases e; exact onLant_kept h
  · cases e; exact h
  · obtain ⟨r, e2, e3⟩ := Option.map_eq_some_iff.mp e; cases e3; exact sealedRcd_kept e2 h
  · cases e; exact peerRcd_kept h
  · cases e

theorem applyRcds_kept {s : Sect} : ∀ {l : List Rcd} {d : Device} {x : Bytes} {rr : Device}, d.applyRcds s l = some (rr, x) → d.Kept S Q c k → rr.Kept S Q c k
  | [], _, _, _, e, h => by unfold Device.applyRcds at e; cases e; exact h
  | r :: l, d, x, rr, e, h => by
    unfold Device.applyRcds at e
    split at e
    · cases e
    · rename_i d1 x1 e1
      obtain ⟨⟨r, y⟩, e2, e3⟩ := Option.map_eq_some_iff.mp e
      cases e3; exact applyRcds_kept e2 (applyRcd_kept e1 h)

theorem applySects_kept {n : Nat} : ∀ {l : List Sect} {d rr : Device}, d.applySects n l = some rr → d.Kept S Q c k → rr.Kept S Q c k
  | [], _, _, e, h => by unfold Device.applySects at e; cases e; exact h
  | s :: l, d, rr, e, h => by
    unfold Device.applySects at e
    split at e
    · exact applySects_kept e h
    · split at e
      · cases e
      · rename_i e1
        obtain ⟨_, _, e2⟩ := Option.bind_eq_some_iff.mp e1
        exact applySects_kept e (onDom_kept (applyRcds_kept e2 h))

theorem applyDom_kept {d : Device} {n : Nat} {sects : Option (List Sect)} {rr : Device}
    (e : d.applyDom n sects = some rr) (h : d.Kept S Q c k) : rr.Kept S Q c k := by
  obtain ⟨_, _, e2⟩ := Option.bind_eq_some_iff.mp e
  exact applySects_kept e2 (onDom_kept h)

theorem rejectBank_kept {d : Device} {bankB : Bool} (hd : d.Kept S Q c k) : (Device.rejectBank d bankB).Kept S Q c k := by
  unfold Device.rejectBank; try dsimp only
  repeat' first | with_reducible assumption | with_reducible apply onLL_kept | with_reducible apply raise_kept

theorem takeHeader_kept {d : Device} {bankB : Bool} (hd : d.Kept S Q c k) : (Device.takeHeader d bankB).Kept S Q c k := by
  unfold Device.takeHeader; try dsimp only
  repeat' first | with_reducible assumption | with_reducible apply onLL_kept

theorem takeFactory_kept {d : Device} (hd : d.Kept S Q c k) : (Device.takeFactory d).Kept S Q c k := by
  unfold Device.takeFactory; try dsimp only
  repeat' first | with_reducible assumption | with_reducible apply onLL_kept | with_reducible apply raise_kept

theorem selectFrom_kept {d : Device} {a1 : List Bool} (hd : d.Kept S Q c k) : (Device.selectFrom d a1).Kept S Q c k := by
  fun_induction Device.selectFrom d a1
  all_goals try dsimp only
  all_goals repeat' first
    | with_reducible assumption | with_reducible apply rejectBank_kept | with_reducible apply takeFactory_kept
    | with_reducible apply takeHeader_kept | split | (dsimp only) | (intro _ _ _; try dsimp only) | (simp only [kept_mk])
    | (simp only [kept_mk_clk]) | (apply_assumption)

theorem bootSelect_kept {d : Device} (hd : d.Kept S Q c k) : (Device.bootSelect d).Kept S Q c k := by
  unfold Device.bootSelect; try dsimp only
  repeat' first | with_reducible assumption | with_reducible apply selectFrom_kept

theorem charReady_kept {d : Device} {n : Nat} (hd : d.Kept S Q c k) : (Device.charReady d n).Kept S Q c k := by
  unfold Device.charReady; try dsimp only
  repeat' first
    | with_reducible assumption | with_reducible apply onDom_kept | with_reducible apply onLL_kept | with_reducible apply onLant_kept
    | with_reducible apply raise_kept | split

theorem setBank_kept {d : Device} {bankB : Bool} {b : Bytes} (hd : d.Kept S Q c k) : (Device.setBank d bankB b).Kept S Q c k := by
  unfold Device.setBank; try dsimp only
  repeat' first | with_reducible assumption | with_reducible apply onLL_kept

theorem stageOpen_kept {d : Device} {h0 : Bytes} {rr : Device} (e : (Device.stageOpen d h0) = some rr) (hd : d.Kept S Q c k) : rr.Kept S Q c k := by
  unfold Device.stageOpen at e; try dsimp only at e
  repeat' split at e
  all_goals first | (cases e; done) | (cases e; (repeat' first | with_reducible assumption | with_reducible apply onLL_kept | with_reducible apply setBank_kept); done)

theorem stageClose_kept {d : Device} (hd : d.Kept S Q c k) : (Device.stageClose d).Kept S Q c k := by
  unfold Device.stageClose; try dsimp only
  repeat' first
    | with_reducible assumption | with_reducible apply freeNext_kept | with_reducible apply onLL_kept | with_reducible apply raise_kept
    | with_reducible apply setBank_kept | split

end Sys2Proof.Machine
end

