-- ==== Sys2Proof/Laws/KeptStart.lean ====
section
/-! SUPPORT. What every operation keeps: resets, starts, power states and recovery. -/

-- One theorem at a time: in the package as one text many would otherwise wait at once, each on a thread of its own.
set_option Elab.async false

namespace Sys2Proof.Machine

variable {S : Prop} {Q : List Host.Cell → Prop} {c : Nat} {k : Otp} {d : Device}

theorem keeperReset_kept {d : Device} (hq : MemClosed Q) (h : d.Kept S Q c k) : d.keeperReset.Kept S Q c k :=
  ⟨h.1, h.2.1, hq.2.2 _ _ h.2.2.1, h.2.2.2⟩


theorem memClear_kept {d : Device} (h : d.Kept S Q c k) : (d.onMem Mem.clear).Kept S Q c k := onMem_kept (fun w => w) h

theorem lantReset_kept {d : Device} (hd : d.Kept S Q c k) : (Device.lantReset d).Kept S Q c k := by
  unfold Device.lantReset; try dsimp only
  repeat' first | with_reducible assumption | split | (dsimp only) | (intro _ _ _; try dsimp only) | (simp only [kept_mk])

theorem blocksReset_kept {d : Device} {n : Nat} (hq : MemClosed Q) (hd : d.Kept S Q c k) : (Device.blocksReset d n).Kept S Q c k := by
  unfold Device.blocksReset; try dsimp only
  repeat' first
    | with_reducible assumption | with_reducible apply memClear_kept | with_reducible apply keeperReset_kept
    | with_reducible apply lantReset_kept | with_reducible apply onCiph_kept | with_reducible apply onLanes_kept
    | with_reducible apply onMem_kept | with_reducible apply onPkt_kept | with_reducible apply radReset_kept
    | with_reducible apply rngLeave_kept | split

theorem domEnter_kept {d : Device} {n : Nat} {st : Nat} (hd : d.Kept S Q c k) : (Device.domEnter d n st).Kept S Q c k := by
  unfold Device.domEnter; try dsimp only
  repeat' first | with_reducible assumption | with_reducible apply onDom_kept

theorem domReset_kept {d : Device} {st : Nat} {n : Nat} (hq : MemClosed Q) (hd : d.Kept S Q c k) : (Device.domReset d st n).Kept S Q c k := by
  unfold Device.domReset; try dsimp only
  repeat' first
    | with_reducible assumption | with_reducible apply blocksReset_kept | with_reducible apply domEnter_kept
    | with_reducible apply regsReset_kept

theorem bandsVoid_kept {d : Device} {bands : BitVec 3} {sf : Nat} (hd : d.Kept S Q c k) : (Device.bandsVoid d bands sf).Kept S Q c k := by
  unfold Device.bandsVoid; try dsimp only
  repeat' first | with_reducible assumption | with_reducible apply onLant_kept

theorem lantHold_kept {d : Device} (hd : d.Kept S Q c k) : (Device.lantHold d).Kept S Q c k := by
  unfold Device.lantHold; try dsimp only
  repeat' first | with_reducible assumption | with_reducible apply onLant_kept

theorem pktHold_kept {d : Device} (hd : d.Kept S Q c k) : (Device.pktHold d).Kept S Q c k := by
  unfold Device.pktHold; try dsimp only
  repeat' first
    | with_reducible assumption | with_reducible apply onPkt_kept | with_reducible apply settle_kept | with_reducible apply foldl_kept

theorem ciphHold_kept {d : Device} (hd : d.Kept S Q c k) : (Device.ciphHold d).Kept S Q c k := by
  unfold Device.ciphHold; try dsimp only
  repeat' first | with_reducible assumption | with_reducible apply onCiph_kept

theorem domHold_kept {d : Device} {st : Nat} {n : Nat} (hq : MemClosed Q) (hd : d.Kept S Q c k) : (Device.domHold d st n).Kept S Q c k := by
  unfold Device.domHold; try dsimp only
  repeat' first
    | with_reducible assumption | with_reducible apply memClear_kept | with_reducible apply ciphHold_kept
    | with_reducible apply domEnter_kept | with_reducible apply keeperReset_kept | with_reducible apply lanesHold_kept
    | with_reducible apply lantHold_kept | with_reducible apply onLanes_kept | with_reducible apply onMem_kept
    | with_reducible apply pktHold_kept | with_reducible apply radReset_kept | with_reducible apply regsReset_kept
    | with_reducible apply txAbort_kept | split

theorem padHold_kept {d : Device} {g : Nat} (hd : d.Kept S Q c k) : (Device.padHold d g).Kept S Q c k := by
  unfold Device.padHold; try dsimp only
  repeat' first | with_reducible assumption | with_reducible apply onPwr_kept | split

theorem padHoldAll_kept {d : Device} (hd : d.Kept S Q c k) : (Device.padHoldAll d).Kept S Q c k := by
  unfold Device.padHoldAll; try dsimp only
  repeat' first | with_reducible assumption | with_reducible apply padHold_kept

theorem evReset_kept {d : Device} (hd : d.Kept S Q c k) : (Device.evReset d).Kept S Q c k := by
  unfold Device.evReset; try dsimp only
  repeat' first | with_reducible assumption | with_reducible apply onEv_queue_kept | rfl

theorem startCommon_kept {d : Device} {warm : Bool} {waking : Option Nat}
    (hd : d.Kept S Q c k) : (Device.startCommon d warm waking).Kept S Q c k := by
  unfold Device.startCommon; try dsimp only
  repeat' first
    | with_reducible assumption | with_reducible apply onPwr_kept | with_reducible apply onStart_kept | with_reducible apply onTwin_kept
    | with_reducible apply padHoldAll_kept | split

theorem keeperRelease_kept {d : Device} (h : d.Kept S Q c k) : d.keeperRelease.Kept S Q c k := by
  unfold Device.keeperRelease; exact logScan_kept (evOpen_kept (onPwr_kept (onStart_kept (onKeep_kept (freeNext_kept (onDom_kept h))))))

theorem warmStart_kept {d : Device} {cause : Nat} (hq : MemClosed Q) (hd : d.Kept S Q c k) : (Device.warmStart d cause).Kept S Q c k := by
  unfold Device.warmStart; try dsimp only
  repeat' first
    | with_reducible assumption | with_reducible apply domReset_kept | with_reducible apply evReset_kept | with_reducible apply inc_kept
    | with_reducible apply keeperRelease_kept | with_reducible apply onLL_kept | with_reducible apply onStart_kept
    | with_reducible apply startCommon_kept | with_reducible apply foldl_kept | split | (dsimp only) | (intro _ _ _; try dsimp only)
    | (simp only [kept_mk]) | (simp only [kept_mk_clk])

theorem dramLost_lampOff_kept {d : Device}
    (hq : MemClosed Q) (h : d.Kept S Q c k) : ({ d.dramLost with clk := { d.clk with lampRun := false } } : Device).Kept S Q c k :=
  ⟨h.1, h.2.1, hq.2.2 _ _ h.2.2.1, h.2.2.2⟩


theorem railsOff_kept {d : Device} (hq : MemClosed Q) (h : d.Kept S Q c k) : d.railsOff.Kept S Q c k := by
  unfold Device.railsOff
  have h1 : ([9, 8, 7, 6, 5, 4, 3, 2, 1].foldl (fun (d : Device) n => d.domReset 0 n) d).Kept S Q c k := foldl_kept (fun _ _ h => domReset_kept hq h) h
  generalize [9, 8, 7, 6, 5, 4, 3, 2, 1].foldl (fun (d : Device) n => d.domReset 0 n) d = d1 at h1
  exact onStart_kept (onEv_clear_kept rfl (onKeep_kept (onLant_kept (dramLost_lampOff_kept hq h1))))

theorem coldStart_kept {d : Device} {cause : Nat} {waking : Option Nat}
    (hq : MemClosed Q) (hd : d.Kept S Q c k) : (Device.coldStart d cause waking).Kept S Q c k := by
  unfold Device.coldStart; try dsimp only
  repeat' first
    | with_reducible assumption | with_reducible apply evReset_kept | with_reducible apply inc_kept | with_reducible apply onLL_kept
    | with_reducible apply onStart_kept | with_reducible apply railsOff_kept | with_reducible apply startCommon_kept | split

theorem domLoad_kept {d : Device} {n : Nat} {st : Nat} {rr : Device}
    (e : (Device.domLoad d n st) = some rr) (hd : d.Kept S Q c k) : rr.Kept S Q c k := by
  unfold Device.domLoad at e; try dsimp only at e
  repeat' split at e
  all_goals first | (cases e; done) | (cases e; (repeat' first | with_reducible assumption | (with_reducible refine applyDom_kept (by assumption) ?_) | with_reducible apply onDom_kept | split | (dsimp only) | (intro _ _ _; try dsimp only) | (simp only [kept_mk]) | (simp only [kept_mk_clk])); done) | (refine applyDom_kept e ?_; (repeat' first | with_reducible assumption | (with_reducible refine applyDom_kept (by assumption) ?_) | with_reducible apply onDom_kept); done)

theorem lampLoad_kept {d : Device} (hd : d.Kept S Q c k) : (Device.lampLoad d).Kept S Q c k := by
  unfold Device.lampLoad; try dsimp only
  repeat' first
    | with_reducible assumption | split | (dsimp only) | (intro _ _ _; try dsimp only) | (simp only [kept_mk]) | (simp only [kept_mk_clk])

theorem profilesTake_kept {d : Device} (hd : d.Kept S Q c k) : (Device.profilesTake d).Kept S Q c k := by
  unfold Device.profilesTake; try dsimp only
  repeat' first | with_reducible assumption | with_reducible apply onLant_kept

theorem limitsPut_kept {d : Device} (hd : d.Kept S Q c k) : (Device.limitsPut d).Kept S Q c k := by
  unfold Device.limitsPut; try dsimp only
  repeat' first
    | with_reducible assumption | with_reducible apply onRad_kept | with_reducible apply foldl_kept | split | (dsimp only)
    | (intro _ _ _; try dsimp only)

theorem relayReady_kept {d : Device} (hd : d.Kept S Q c k) : (Device.relayReady d).Kept S Q c k := by
  unfold Device.relayReady; try dsimp only
  repeat' first | with_reducible assumption | with_reducible apply onRelay_kept | split

theorem dutyStart_kept {d : Device} (hd : d.Kept S Q c k) : (Device.dutyStart d).Kept S Q c k := by
  unfold Device.dutyStart; try dsimp only
  repeat' first | with_reducible assumption | with_reducible apply dutyCold_kept | split

theorem lantReady_kept {d : Device} (hd : d.Kept S Q c k) : (Device.lantReady d).Kept S Q c k := by
  unfold Device.lantReady; try dsimp only
  repeat' first
    | with_reducible assumption | with_reducible apply dutyStart_kept | with_reducible apply lampLoad_kept
    | with_reducible apply limitsPut_kept | with_reducible apply onLant_kept | with_reducible apply profilesTake_kept
    | with_reducible apply relayReady_kept | with_reducible apply timeReady_kept | split

theorem radReady_kept {d : Device} {b : Band} (hd : d.Kept S Q c k) : (Device.radReady d b).Kept S Q c k := by
  unfold Device.radReady; try dsimp only
  repeat' first | with_reducible assumption | with_reducible apply onRad_kept | split

theorem ciphReady_kept {d : Device} (hd : d.Kept S Q c k) : (Device.ciphReady d).Kept S Q c k := by
  unfold Device.ciphReady; try dsimp only
  repeat' first | with_reducible assumption | with_reducible apply drainBuffered_kept | with_reducible apply onLant_kept

theorem pktReady_kept {d : Device} (hd : d.Kept S Q c k) : (Device.pktReady d).Kept S Q c k := by
  unfold Device.pktReady; try dsimp only
  repeat' first
    | with_reducible assumption | with_reducible apply gateAdvance_kept | with_reducible apply genAdvance_kept
    | with_reducible apply foldl_kept

theorem readyHook_kept {d : Device} {n : Nat} (hd : d.Kept S Q c k) : (Device.readyHook d n).Kept S Q c k := by
  unfold Device.readyHook; try dsimp only
  repeat' first
    | with_reducible assumption | with_reducible apply ciphReady_kept | with_reducible apply lanesReady_kept
    | with_reducible apply lantReady_kept | with_reducible apply pktReady_kept | with_reducible apply radReady_kept
    | with_reducible apply twinStart_kept | split

theorem domGo_kept {d : Device} {n : Nat} (hd : d.Kept S Q c k) : (Device.domGo d n).Kept S Q c k := by
  unfold Device.domGo; try dsimp only
  repeat' first
    | with_reducible assumption | with_reducible apply charReady_kept | with_reducible apply gateWatch_kept
    | with_reducible apply ladderReady_kept | with_reducible apply onDom_kept | with_reducible apply readyHook_kept

theorem reloadHold_kept {d : Device} (hq : MemClosed Q) (hd : d.Kept S Q c k) : (Device.reloadHold d).Kept S Q c k := by
  unfold Device.reloadHold; try dsimp only
  repeat' first
    | with_reducible assumption | with_reducible apply bandsVoid_kept | with_reducible apply domHold_kept
    | with_reducible apply gateWatch_kept | with_reducible apply onDom_kept | with_reducible apply foldl_kept | split | (dsimp only)
    | (intro _ _ _; try dsimp only)

theorem reloadIdle_kept {d : Device} (hd : d.Kept S Q c k) : (Device.reloadIdle d).Kept S Q c k := by
  unfold Device.reloadIdle; try dsimp only
  repeat' first
    | with_reducible assumption | with_reducible apply enterResync_kept | with_reducible apply onDom_kept | with_reducible apply onLL_kept
    | with_reducible apply foldl_kept | split | (dsimp only) | (intro _ _ _; try dsimp only)

theorem rollbackEnd_kept {d : Device} (hd : d.Kept S Q c k) : (Device.rollbackEnd d).Kept S Q c k := by
  unfold Device.rollbackEnd; try dsimp only
  repeat' first | with_reducible assumption | with_reducible apply reloadIdle_kept | split

theorem rollback_kept {d : Device} (hq : MemClosed Q) (hd : d.Kept S Q c k) : (Device.rollback d).Kept S Q c k := by
  unfold Device.rollback; try dsimp only
  repeat' first
    | with_reducible assumption | with_reducible apply domFault_kept | (with_reducible refine domLoad_kept (by assumption) ?_)
    | with_reducible apply onLL_kept | with_reducible apply raise_kept | with_reducible apply reloadHold_kept
    | with_reducible apply rollbackEnd_kept | with_reducible apply setBank_kept | with_reducible apply foldl_kept | split | (dsimp only)
    | (intro _ _ _; try dsimp only)

theorem reloadLoad_kept : ∀ {l : List Nat} {d rr : Device}, d.reloadLoad l = some rr → d.Kept S Q c k → rr.Kept S Q c k
  | [], _, _, e, h => by unfold Device.reloadLoad at e; cases e; exact h
  | n :: l, d, rr, e, h => by
    unfold Device.reloadLoad at e
    obtain ⟨_, e1, e2⟩ := Option.bind_eq_some_iff.mp e
    exact reloadLoad_kept e2 (domLoad_kept e1 h)

theorem reloadBegin_kept {d : Device} (hq : MemClosed Q) (hd : d.Kept S Q c k) : (Device.reloadBegin d).Kept S Q c k := by
  unfold Device.reloadBegin; try dsimp only
  repeat' first
    | with_reducible assumption | with_reducible apply onLL_kept | with_reducible apply reloadHold_kept
    | (with_reducible refine reloadLoad_kept (by assumption) ?_) | with_reducible apply rollback_kept | split

theorem peersTake_kept {d : Device} (hd : d.Kept S Q c k) : (Device.peersTake d).Kept S Q c k := by
  unfold Device.peersTake; try dsimp only
  repeat' first
    | with_reducible assumption | with_reducible apply peerRcd_kept | with_reducible apply foldl_kept | split | (dsimp only)
    | (intro _ _ _; try dsimp only)

theorem activate_kept {d : Device} (hd : d.Kept S Q c k) : (Device.activate d).Kept S Q c k := by
  unfold Device.activate; try dsimp only
  repeat' first
    | with_reducible assumption | with_reducible apply inc_kept | with_reducible apply onLL_kept | with_reducible apply onLant_kept
    | with_reducible apply peersTake_kept | with_reducible apply raise_kept | with_reducible apply reloadIdle_kept
    | with_reducible apply takeHeader_kept

theorem reloadGo_kept {d : Device} {mask : BitVec 10} (hq : MemClosed Q) (hd : d.Kept S Q c k) : (Device.reloadGo d mask).Kept S Q c k := by
  unfold Device.reloadGo; try dsimp only
  repeat' first
    | with_reducible assumption | with_reducible apply activate_kept | with_reducible apply onDom_kept | with_reducible apply onLL_kept
    | with_reducible apply raise_kept | with_reducible apply reloadBegin_kept | with_reducible apply foldl_kept | split | (dsimp only)
    | (intro _ _ _; try dsimp only)

theorem reloadBoundary_kept {d : Device} {sf : Nat} (hq : MemClosed Q) (hd : d.Kept S Q c k) : (Device.reloadBoundary d sf).Kept S Q c k := by
  unfold Device.reloadBoundary; try dsimp only
  repeat' first | with_reducible assumption | with_reducible apply reloadBegin_kept | split

theorem reloadCmd_kept {mask : BitVec 10} {d : Device} (hq : MemClosed Q) (hd : d.Kept S Q c k) : (reloadCmd mask d).Kept S Q c k := by
  unfold reloadCmd; try dsimp only
  repeat' first | with_reducible assumption | with_reducible apply keeperAccess_kept | with_reducible apply reloadGo_kept

theorem reloadComplete_kept {d : Device} (hd : d.Kept S Q c k) : (reloadComplete d).Kept S Q c k := by
  unfold reloadComplete; try dsimp only
  repeat' first | with_reducible assumption | with_reducible apply activate_kept | split

theorem reloadFail_kept {n : Fin 10} {d : Device} (hq : MemClosed Q) (hd : d.Kept S Q c k) : (reloadFail n d).Kept S Q c k := by
  unfold reloadFail; try dsimp only
  repeat' first
    | with_reducible assumption | with_reducible apply domFault_kept | with_reducible apply rollback_kept
    | with_reducible apply rollbackEnd_kept | split

theorem powerOn_kept {d : Device} (hq : MemClosed Q) (h : d.Kept S Q c k) : d.powerOn.Kept S Q c k :=
  ⟨h.1, h.2.1, hq.1, fun _ => ⟨Nat.zero_le _, fun _ => Nat.zero_le _⟩⟩

theorem vinRise_kept {mv : Nat} {d : Device} (hq : MemClosed Q) (hd : d.Kept S Q c k) : (vinRise mv d).Kept S Q c k := by
  unfold vinRise; try dsimp only
  repeat' first
    | with_reducible assumption | with_reducible apply coldStart_kept | with_reducible apply onDom_kept | with_reducible apply onPwr_kept
    | with_reducible apply onStart_kept | with_reducible apply powerOn_kept | split

theorem railsUp_kept {d : Device} (hd : d.Kept S Q c k) : (Device.railsUp d).Kept S Q c k := by
  unfold Device.railsUp; try dsimp only
  repeat' first
    | with_reducible assumption | with_reducible apply domEnter_kept | with_reducible apply keeperRelease_kept
    | with_reducible apply onStart_kept | with_reducible apply foldl_kept | split | (dsimp only) | (intro _ _ _; try dsimp only)

theorem railFail_kept {d : Device} (hd : d.Kept S Q c k) : (Device.railFail d).Kept S Q c k := by
  unfold Device.railFail; try dsimp only
  repeat' first | with_reducible assumption | with_reducible apply onStart_kept

theorem railStep_kept {inRegulation : Bool} {d : Device} (hd : d.Kept S Q c k) : (railStep inRegulation d).Kept S Q c k := by
  unfold railStep; try dsimp only
  repeat' first
    | with_reducible assumption | with_reducible apply onStart_kept | with_reducible apply railFail_kept | with_reducible apply railsUp_kept
    | split

theorem railFaultRetry_kept {d : Device} (hd : d.Kept S Q c k) : (railFaultRetry d).Kept S Q c k := by
  unfold railFaultRetry; try dsimp only
  repeat' first | with_reducible assumption | with_reducible apply onStart_kept | split

theorem resetAssert_kept {d : Device} (hq : MemClosed Q) (hd : d.Kept S Q c k) : (resetAssert d).Kept S Q c k := by
  unfold resetAssert; try dsimp only
  repeat' first
    | with_reducible assumption | with_reducible apply domReset_kept | with_reducible apply evReset_kept | with_reducible apply onStart_kept
    | with_reducible apply onTwin_kept | with_reducible apply padHoldAll_kept | with_reducible apply foldl_kept | split | (dsimp only)
    | (intro _ _ _; try dsimp only) | (simp only [kept_mk]) | (simp only [kept_mk_clk])

theorem resetRelease_kept {d : Device} (hq : MemClosed Q) (hd : d.Kept S Q c k) : (resetRelease d).Kept S Q c k := by
  unfold resetRelease; try dsimp only
  repeat' first
    | with_reducible assumption | with_reducible apply coldStart_kept | with_reducible apply haltClear_kept
    | with_reducible apply onStart_kept | with_reducible apply onTender_kept | with_reducible apply warmStart_kept | split

theorem sectionBad_kept {d : Device} (hq : MemClosed Q) (hd : d.Kept S Q c k) : (Device.sectionBad d).Kept S Q c k := by
  unfold Device.sectionBad; try dsimp only
  repeat' first | with_reducible assumption | with_reducible apply rejectBank_kept | with_reducible apply warmStart_kept

theorem startDone_kept {d : Device} (hd : d.Kept S Q c k) : (Device.startDone d).Kept S Q c k := by
  unfold Device.startDone; try dsimp only
  repeat' first
    | with_reducible assumption | with_reducible apply ladderStage_kept | with_reducible apply logReq_kept
    | with_reducible apply onStart_kept | with_reducible apply raise_kept | with_reducible apply wakeCheck_kept
    | with_reducible apply foldl_kept | split | (dsimp only) | (intro _ _ _; try dsimp only)

theorem startSome_kept : ∀ {l : List Nat} {d rr : Device}, d.startSome l = some rr → d.Kept S Q c k → rr.Kept S Q c k
  | [], _, _, e, h => by unfold Device.startSome at e; cases e; exact h
  | n :: l, d, rr, e, h => by
    unfold Device.startSome at e
    split at e
    · exact startSome_kept e h
    · obtain ⟨_, e1, e2⟩ := Option.bind_eq_some_iff.mp e
      exact startSome_kept e2 (domLoad_kept e1 (onStart_kept h))

theorem startAdvance_kept (hq : MemClosed Q) : ∀ {n : Nat} {d : Device}, d.Kept S Q c k → (d.startAdvance n).Kept S Q c k
  | 0, _, h => h
  | n + 1, d, h => by
    unfold Device.startAdvance; dsimp only
    split
    · exact h
    · split
      · exact startDone_kept h
      · split
        · rename_i e; exact startAdvance_kept hq (startSome_kept e (onStart_kept h))
        · exact sectionBad_kept hq h

theorem startGo_kept {d : Device} (hq : MemClosed Q) (hd : d.Kept S Q c k) : (Device.startGo d).Kept S Q c k := by
  unfold Device.startGo; try dsimp only
  repeat' first | with_reducible assumption | with_reducible apply startAdvance_kept | split

theorem startCore_kept {d rr : Device} (e : d.startCore = some rr) (h : d.Kept S Q c k) : rr.Kept S Q c k := by
  unfold Device.startCore at e
  obtain ⟨_, e1, e⟩ := Option.bind_eq_some_iff.mp e
  obtain ⟨_, e2, e⟩ := Option.bind_eq_some_iff.mp e
  obtain ⟨_, e3, e⟩ := Option.map_eq_some_iff.mp e
  subst e
  exact domGo_kept (domLoad_kept e3 (onStart_kept (domGo_kept (domLoad_kept e2 (domGo_kept (domLoad_kept e1 (onStart_kept h)))))))

theorem startLoad_kept {d : Device} (hq : MemClosed Q) (hd : d.Kept S Q c k) : (Device.startLoad d).Kept S Q c k := by
  unfold Device.startLoad; try dsimp only
  repeat' first
    | with_reducible assumption | with_reducible apply bootSelect_kept | with_reducible apply onStart_kept
    | with_reducible apply sectionBad_kept | (with_reducible refine startCore_kept (by assumption) ?_) | with_reducible apply startGo_kept
    | split

theorem degrade_kept {d : Device} (hq : MemClosed Q) (hd : d.Kept S Q c k) : (Device.degrade d).Kept S Q c k := by
  unfold Device.degrade; try dsimp only
  repeat' first
    | with_reducible assumption | with_reducible apply domGo_kept | (with_reducible refine domLoad_kept (by assumption) ?_)
    | with_reducible apply domReset_kept | with_reducible apply onDom_kept | with_reducible apply onLL_kept
    | with_reducible apply onStart_kept | with_reducible apply raise_kept | with_reducible apply foldl_kept | split | (dsimp only)
    | (intro _ _ _; try dsimp only)

theorem bringTrain_kept {d : Device} {runs : List TrainRun} (hq : MemClosed Q) (h : d.Kept S Q c k) : (d.bringTrain runs).Kept S Q c k := by
  unfold Device.bringTrain; extract_lets full d1 rest d2
  have h1 : d1.Kept S Q c k := ite_kept (trainWarm_kept hq h) (trainFull_kept hq h)
  have h2 : d2.Kept S Q c k := ite_kept h1 (trainFull_kept hq (dramLost_kept hq h1))
  exact ite_kept h2 (onMem_kept (fun w => w) h2)

theorem bringUp_kept {runs : List TrainRun} {d : Device} (hq : MemClosed Q) (hd : d.Kept S Q c k) : (bringUp runs d).Kept S Q c k := by
  unfold bringUp; try dsimp only
  repeat' first
    | with_reducible assumption | with_reducible apply bringTrain_kept | with_reducible apply degrade_kept | with_reducible apply onDom_kept
    | with_reducible apply onStart_kept | with_reducible apply startLoad_kept | split

theorem sfdpRetry_kept {found : Bool} {d : Device} (hq : MemClosed Q) (hd : d.Kept S Q c k) : (sfdpRetry found d).Kept S Q c k := by
  unfold sfdpRetry; try dsimp only
  repeat' first
    | with_reducible assumption | with_reducible apply bringUp_kept | with_reducible apply onLL_kept | with_reducible apply onStart_kept
    | with_reducible apply startLoad_kept | split

theorem restoreMem_kept {d : Device} (hq : MemClosed Q) (hd : d.Kept S Q c k) : (Device.restoreMem d).Kept S Q c k := by
  unfold Device.restoreMem; try dsimp only
  repeat' first
    | with_reducible assumption | with_reducible apply trainWarm_kept | split | (dsimp only) | (intro _ _ _; try dsimp only)
    | (simp only [kept_mk])

theorem radiosLate_kept {d : Device} (hd : d.Kept S Q c k) : (Device.radiosLate d).Kept S Q c k := by
  unfold Device.radiosLate; try dsimp only
  repeat' first
    | with_reducible assumption | with_reducible apply domFault_kept | (with_reducible refine domLoad_kept (by assumption) ?_)
    | with_reducible apply foldl_kept | split | (dsimp only) | (intro _ _ _; try dsimp only)

theorem domainReady_kept {n : Fin 10} {d : Device} (hq : MemClosed Q) (hd : d.Kept S Q c k) : (domainReady n d).Kept S Q c k := by
  unfold domainReady; try dsimp only
  repeat' first
    | with_reducible assumption | with_reducible apply domGo_kept | with_reducible apply radiosLate_kept
    | with_reducible apply restoreMem_kept | with_reducible apply rollbackEnd_kept | with_reducible apply startGo_kept | split

theorem startLimitExpiry_kept {n : Fin 10} {d : Device} (hq : MemClosed Q) (hd : d.Kept S Q c k) : (startLimitExpiry n d).Kept S Q c k := by
  unfold startLimitExpiry; try dsimp only
  repeat' first
    | with_reducible assumption | with_reducible apply domFault_kept | with_reducible apply raise_kept | with_reducible apply startGo_kept
    | split

theorem sramRaise_kept {d : Device} {ev : Nat} (hd : d.Kept S Q c k) : (Device.sramRaise d ev).Kept S Q c k := by
  unfold Device.sramRaise; try dsimp only
  repeat' first | with_reducible assumption | with_reducible apply onStart_kept | with_reducible apply raise_kept | split

theorem bufLost_kept {d : Device} (hd : d.Kept S Q c k) : (Device.bufLost d).Kept S Q c k := by
  unfold Device.bufLost; try dsimp only
  repeat' first
    | with_reducible assumption | with_reducible apply freeCells_kept | with_reducible apply freeNext_kept
    | with_reducible apply headCheck_kept | with_reducible apply onQueue_kept | with_reducible apply settle_kept | split

theorem evErase_kept {i : Nat} (h : d.Kept S Q c k) : (d.onEv fun x => { x with queue := x.queue.eraseIdx i }).Kept S Q c k := by
  refine onEv_kept (fun hl hf => ?_) h
  by_cases hi : i < d.ev.queue.length
  · have e := List.length_eraseIdx_of_lt hi
    dsimp only; rw [e]; exact ⟨by omega, fun _ => by omega⟩
  · have e : d.ev.queue.eraseIdx i = d.ev.queue := List.eraseIdx_of_length_le (by omega)
    unfold Events.overflowHeld; dsimp only; rw [e]; exact ⟨hl, hf⟩

theorem itemLost_kept {d : Device} {blk : Nat} {sub : Band} {w : Nat} (h : d.Kept S Q c k) : (d.itemLost blk sub w).Kept S Q c k := by
  unfold Device.itemLost
  split
  · exact bufLost_kept h
  · exact onPkt_kept h
  · exact onCiph_kept h
  · exact freeNext_kept (onRad_kept h)
  · split
    · exact freeNext_kept (onLant_kept h)
    · exact freeNext_kept (evErase_kept h)
  · exact h

theorem sramScrub_kept {blk : Fin 7} {sub : Band} {w : Nat} {r0 : EccOutcome} {d : Device}
    (hd : d.Kept S Q c k) : (sramScrub blk sub w r0 d).Kept S Q c k := by
  unfold sramScrub; try dsimp only
  repeat' first
    | with_reducible assumption | with_reducible apply inc_kept | with_reducible apply itemLost_kept | with_reducible apply onDom_kept
    | with_reducible apply sramRaise_kept | split

theorem pwrAccept_kept {d : Device} (hd : d.Kept S Q c k) : (Device.pwrAccept d).Kept S Q c k := by
  unfold Device.pwrAccept; try dsimp only
  repeat' first | with_reducible assumption | with_reducible apply onPwr_kept

theorem pwrGo_kept {d : Device} {target : Nat} (hd : d.Kept S Q c k) : (Device.pwrGo d target).Kept S Q c k := by
  unfold Device.pwrGo; try dsimp only
  repeat' first
    | with_reducible assumption | with_reducible apply onPwr_kept | with_reducible apply pwrAccept_kept | with_reducible apply raise_kept
    | split

theorem pwrRequest_kept {target : Nat} {d : Device} (hd : d.Kept S Q c k) : (pwrRequest target d).Kept S Q c k := by
  unfold pwrRequest; try dsimp only
  repeat' first | with_reducible assumption | with_reducible apply keeperAccess_kept | with_reducible apply pwrGo_kept

theorem pwrRequestAccept_kept {d : Device} (hd : d.Kept S Q c k) : (pwrRequestAccept d).Kept S Q c k := by
  unfold pwrRequestAccept; try dsimp only
  repeat' first | with_reducible assumption | with_reducible apply pwrAccept_kept | split

theorem pktDiscard_kept {d : Device} (hd : d.Kept S Q c k) : (Device.pktDiscard d).Kept S Q c k := by
  unfold Device.pktDiscard; try dsimp only
  repeat' first
    | with_reducible assumption | with_reducible apply onPkt_kept | with_reducible apply settle_kept | with_reducible apply foldl_kept

theorem entryBoundary_kept {d : Device} {sf : Nat} (hd : d.Kept S Q c k) : (Device.entryBoundary d sf).Kept S Q c k := by
  unfold Device.entryBoundary; try dsimp only
  repeat' first
    | with_reducible assumption | with_reducible apply onCiph_kept | with_reducible apply onGpio_kept | with_reducible apply onLant_kept
    | with_reducible apply pktDiscard_kept | with_reducible apply timeEclipse_kept | with_reducible apply foldl_kept | split | (dsimp only)
    | (intro _ _ _; try dsimp only)

theorem logFlush_kept {d : Device} (hd : d.Kept S Q c k) : (Device.logFlush d).Kept S Q c k := by
  unfold Device.logFlush; try dsimp only
  repeat' first | with_reducible assumption | with_reducible apply onLog_kept

theorem ciphOff_kept {d : Device} (hq : MemClosed Q) (hd : d.Kept S Q c k) : (Device.ciphOff d).Kept S Q c k := by
  unfold Device.ciphOff; try dsimp only
  repeat' first | with_reducible assumption | with_reducible apply domReset_kept | with_reducible apply onCiph_kept

theorem lantOff_kept {d : Device} (hq : MemClosed Q) (h : d.Kept S Q c k) : d.lantOff.Kept S Q c k :=
  onEv_clear_kept rfl (onLant_kept (kept_mk_clk.mpr (domReset_kept hq (domReset_kept hq (padHold_kept h)))))

theorem moor_kept {d : Device} (hq : MemClosed Q) (hd : d.Kept S Q c k) : (Device.moor d).Kept S Q c k := by
  unfold Device.moor; try dsimp only
  repeat' first
    | with_reducible assumption | with_reducible apply dramLost_kept | with_reducible apply onCiph_kept | with_reducible apply onKeep_kept
    | with_reducible apply onLant_kept | with_reducible apply onStart_kept

theorem entryComplete_kept {d : Device} (hq : MemClosed Q) (hd : d.Kept S Q c k) : (entryComplete d).Kept S Q c k := by
  unfold entryComplete; try dsimp only
  repeat' first
    | with_reducible assumption | with_reducible apply ciphOff_kept | with_reducible apply domReset_kept | with_reducible apply lantOff_kept
    | with_reducible apply logFlush_kept | with_reducible apply moor_kept | with_reducible apply onEv_queue_kept | rfl
    | with_reducible apply onPwr_kept | with_reducible apply padHold_kept | with_reducible apply raise_kept
    | with_reducible apply foldl_kept | split | (dsimp only) | (intro _ _ _; try dsimp only)

theorem sequencerTick_kept {vinMv : Nat} {temp : BitVec 16} {d : Device} (hd : d.Kept S Q c k) : (sequencerTick vinMv temp d).Kept S Q c k := by
  unfold sequencerTick; try dsimp only
  repeat' first
    | with_reducible assumption | with_reducible apply latchSet_kept | with_reducible apply onPwr_kept | with_reducible apply raise_kept
    | with_reducible apply tempGroups_kept | with_reducible apply thermSample_kept | split

theorem rtcAlarm_kept {d : Device} (hd : d.Kept S Q c k) : (rtcAlarm d).Kept S Q c k := by
  unfold rtcAlarm; try dsimp only
  repeat' first | with_reducible assumption | with_reducible apply latchSet_kept | split

theorem exitEclipse_kept {d : Device} (hd : d.Kept S Q c k) : (Device.exitEclipse d).Kept S Q c k := by
  unfold Device.exitEclipse; try dsimp only
  repeat' first
    | with_reducible assumption | with_reducible apply domEnter_kept | with_reducible apply keeperRelease_kept
    | with_reducible apply onRelay_kept | with_reducible apply startCommon_kept | with_reducible apply foldl_kept | split | (dsimp only)
    | (intro _ _ _; try dsimp only)

theorem exitDeep_kept {d : Device} (hd : d.Kept S Q c k) : (Device.exitDeep d).Kept S Q c k := by
  unfold Device.exitDeep; try dsimp only
  repeat' first
    | with_reducible assumption | with_reducible apply domEnter_kept | with_reducible apply inc_kept
    | with_reducible apply keeperRelease_kept | with_reducible apply onLL_kept | with_reducible apply startCommon_kept
    | with_reducible apply foldl_kept | split | (dsimp only) | (intro _ _ _; try dsimp only)

theorem wakeExit_kept {runs : List TrainRun} {d : Device} (hq : MemClosed Q) (hd : d.Kept S Q c k) : (wakeExit runs d).Kept S Q c k := by
  unfold wakeExit; try dsimp only
  repeat' first
    | with_reducible assumption | with_reducible apply bringUp_kept | with_reducible apply coldStart_kept
    | with_reducible apply exitDeep_kept | with_reducible apply exitEclipse_kept | with_reducible apply inc_kept
    | with_reducible apply onPwr_kept | split

theorem padRelease_kept {d : Device} {groups : BitVec 4} (hd : d.Kept S Q c k) : (Device.padRelease d groups).Kept S Q c k := by
  unfold Device.padRelease; try dsimp only
  repeat' first
    | with_reducible assumption | with_reducible apply onPwr_kept | with_reducible apply padHold_kept | with_reducible apply raise_kept
    | with_reducible apply foldl_kept | split | (dsimp only) | (intro _ _ _; try dsimp only)

theorem rowpadRelease_kept {groups : BitVec 4} {d : Device}
    (h : d.Kept S Q c k) : (padRelease groups d).Kept S Q c k := keeperAccess_kept (padRelease_kept h) h

theorem brownLog_kept {d : Device} {mv : Nat} (hd : d.Kept S Q c k) : (Device.brownLog d mv).Kept S Q c k := by
  unfold Device.brownLog; try dsimp only
  repeat' first | with_reducible assumption | with_reducible apply onLog_kept | split

theorem railsDrop_kept {d : Device} (hq : MemClosed Q) (hd : d.Kept S Q c k) : (Device.railsDrop d).Kept S Q c k := by
  unfold Device.railsDrop; try dsimp only
  repeat' first
    | with_reducible assumption | with_reducible apply bringUp_kept | with_reducible apply onPwr_kept | with_reducible apply onStart_kept
    | with_reducible apply onTender_kept | with_reducible apply onTwin_kept | with_reducible apply padHoldAll_kept
    | with_reducible apply railsOff_kept

theorem owe_kept {d : Device} {ev : Nat} (hd : d.Kept S Q c k) : (Device.owe d ev).Kept S Q c k := by
  unfold Device.owe; try dsimp only
  repeat' first | with_reducible assumption | with_reducible apply onStart_kept

theorem brownout_kept {vinMv : Nat} {d : Device} (hq : MemClosed Q) (hd : d.Kept S Q c k) : (brownout vinMv d).Kept S Q c k := by
  unfold brownout; try dsimp only
  repeat' first
    | with_reducible assumption | with_reducible apply brownLog_kept | with_reducible apply freeNext_kept | with_reducible apply inc_kept
    | with_reducible apply onPwr_kept | with_reducible apply owe_kept | with_reducible apply railsDrop_kept | split

theorem mooringPowerLoss_kept {d : Device} (hq : MemClosed Q) (hd : d.Kept S Q c k) : (mooringPowerLoss d).Kept S Q c k := by
  unfold mooringPowerLoss; try dsimp only
  repeat' first | with_reducible assumption | with_reducible apply powerOn_kept | split

theorem thermalTrip_kept {d : Device} (hq : MemClosed Q) (hd : d.Kept S Q c k) : (thermalTrip d).Kept S Q c k := by
  unfold thermalTrip; try dsimp only
  repeat' first
    | with_reducible assumption | with_reducible apply inc_kept | with_reducible apply onPwr_kept | with_reducible apply owe_kept
    | with_reducible apply railsDrop_kept | split

theorem thermalRelease_kept {d : Device} (hq : MemClosed Q) (hd : d.Kept S Q c k) : (thermalRelease d).Kept S Q c k := by
  unfold thermalRelease; try dsimp only
  repeat' first | with_reducible assumption | with_reducible apply coldStart_kept | with_reducible apply onPwr_kept | split

theorem kick_kept {d : Device} {mask : BitVec 16} (hd : d.Kept S Q c k) : (Device.kick d mask).Kept S Q c k := by
  unfold Device.kick; try dsimp only
  repeat' first
    | with_reducible assumption | with_reducible apply ladderReap_kept | with_reducible apply watchFresh_kept
    | with_reducible apply foldl_kept

theorem watchKick_kept {mask : BitVec 16} {d : Device} (hd : d.Kept S Q c k) : (watchKick mask d).Kept S Q c k := by
  unfold watchKick; try dsimp only
  repeat' first | with_reducible assumption | with_reducible apply keeperAccess_kept | with_reducible apply kick_kept

theorem watchExpiry_kept {w : Fin 16} {kicked : Bool} {d : Device} (hd : d.Kept S Q c k) : (watchExpiry w kicked d).Kept S Q c k := by
  unfold watchExpiry; try dsimp only
  repeat' first
    | with_reducible assumption | with_reducible apply ladderStart_kept | with_reducible apply onWatch_kept
    | with_reducible apply raise_kept | split

theorem stepRetry_kept {d : Device} {l : Ladder} (hd : d.Kept S Q c k) : (Device.stepRetry d l).Kept S Q c k := by
  unfold Device.stepRetry; try dsimp only
  repeat' first
    | with_reducible assumption | with_reducible apply onWatch_kept | with_reducible apply foldl_kept | split | (dsimp only)
    | (intro _ _ _; try dsimp only)

theorem keeperRestart_kept {d : Device} (h : d.Kept S Q c k) : d.keeperRestart.Kept S Q c k := by
  unfold Device.keeperRestart; exact logScan_kept (evOpen_kept (onLL_kept (onKeep_kept (freeNext_kept (evReset_kept h)))))

theorem stepInit_kept {d : Device} {n : Nat} (hq : MemClosed Q) (hd : d.Kept S Q c k) : (Device.stepInit d n).Kept S Q c k := by
  unfold Device.stepInit; try dsimp only
  repeat' first
    | with_reducible assumption | with_reducible apply bandsVoid_kept | with_reducible apply domHold_kept
    | (with_reducible refine domLoad_kept (by assumption) ?_) | with_reducible apply gateWatch_kept
    | with_reducible apply keeperRestart_kept | with_reducible apply sectionBad_kept | split

theorem stepRun_kept {d : Device} {l : Ladder} (hq : MemClosed Q) (hd : d.Kept S Q c k) : (Device.stepRun d l).Kept S Q c k := by
  unfold Device.stepRun; try dsimp only
  repeat' first
    | with_reducible assumption | with_reducible apply coldStart_kept | with_reducible apply freeNext_kept | with_reducible apply inc_kept
    | with_reducible apply ladderPut_kept | with_reducible apply onLog_kept | with_reducible apply onTender_kept
    | with_reducible apply raise_kept | with_reducible apply stepInit_kept | with_reducible apply stepRetry_kept
    | with_reducible apply trigger_kept | with_reducible apply warmStart_kept | split

theorem ladderStep_kept {n : Fin 10} {d : Device} (hq : MemClosed Q) (hd : d.Kept S Q c k) : (ladderStep n d).Kept S Q c k := by
  unfold ladderStep; try dsimp only
  repeat' first | with_reducible assumption | with_reducible apply stepRun_kept | split

theorem ladderDeadline_kept {n : Fin 10} {d : Device} (hd : d.Kept S Q c k) : (ladderDeadline n d).Kept S Q c k := by
  unfold ladderDeadline; try dsimp only
  repeat' first | with_reducible assumption | with_reducible apply ladderPlan_kept | with_reducible apply onTender_kept | split

theorem ladderCmd_kept {d : Device} {n step : Nat}
    (h : d.Kept S Q c k) : (d.ladderCmd n step).Kept S Q c k := getD_kept (fun _ e => ladderAsk_kept e h) h

theorem ladderRequest_kept {n : Nat} {step : Nat} {d : Device} (hd : d.Kept S Q c k) : (ladderRequest n step d).Kept S Q c k := by
  unfold ladderRequest; try dsimp only
  repeat' first | with_reducible assumption | with_reducible apply keeperAccess_kept | with_reducible apply ladderCmd_kept

theorem ladderHaltClear_kept {d : Device} (hd : d.Kept S Q c k) : (ladderHaltClear d).Kept S Q c k := by
  unfold ladderHaltClear; try dsimp only
  repeat' first | with_reducible assumption | with_reducible apply haltClear_kept | with_reducible apply keeperAccess_kept

end Sys2Proof.Machine
end

