-- ==== Sys2Proof/Laws/KeptKeeper.lean ====
section
/-! SUPPORT. What every operation keeps: the system bus, the debug port, management and the superframe boundary. -/

-- One theorem at a time: in the package as one text many would otherwise wait at once, each on a thread of its own.
set_option Elab.async false

namespace Sys2Proof.Machine

variable {S : Prop} {Q : List Host.Cell → Prop} {c : Nat} {k : Otp} {d : Device}

theorem moorCmd_kept {d : Device} {off : Nat} {v : Word} (hd : d.Kept S Q c k) : (Device.moorCmd d off v).Kept S Q c k := by
  unfold Device.moorCmd; try dsimp only
  repeat' first
    | with_reducible assumption | with_reducible apply forceGo_kept | with_reducible apply haltClear_kept
    | with_reducible apply handoverGo_kept | with_reducible apply kick_kept | with_reducible apply ladderCmd_kept
    | with_reducible apply padRelease_kept | with_reducible apply rowpadRelease_kept | with_reducible apply pwrGo_kept | split

theorem keepCmd_kept {d : Device} {off : Nat} {_i : Nat} {v : Word}
    (hq : MemClosed Q) (hd : d.Kept S Q c k) : (Device.keepCmd d off _i v).Kept S Q c k := by
  unfold Device.keepCmd; try dsimp only
  repeat' first
    | with_reducible assumption | with_reducible apply evPop_kept | with_reducible apply logCommit_kept | with_reducible apply reloadGo_kept
    | split

theorem lantCmd_kept {d : Device} {off : Nat} {i : Nat} {v : Word} (hd : d.Kept S Q c k) : (Device.lantCmd d off i v).Kept S Q c k := by
  unfold Device.lantCmd; try dsimp only
  repeat' first
    | with_reducible assumption | with_reducible apply domFeed_kept | with_reducible apply onRef_kept | with_reducible apply planGo_kept
    | with_reducible apply profileGo_kept | with_reducible apply profileSwitchCancel_kept | split

theorem pktCmd_kept {d : Device} {off : Nat} {i : Nat} {v : Word} (hd : d.Kept S Q c k) : (Device.pktCmd d off i v).Kept S Q c k := by
  unfold Device.pktCmd; try dsimp only
  repeat' first
    | with_reducible assumption | with_reducible apply gateSwapReq_kept | with_reducible apply genCommitReq_kept
    | with_reducible apply meterLoad_kept | with_reducible apply meterStore_kept | with_reducible apply tblClear_kept
    | with_reducible apply tblHash_kept | with_reducible apply tblRead_kept | with_reducible apply tblWrite_kept | split

theorem cmdWrite_kept {d : Device} {n : Nat} {off : Nat} {i : Nat} {v : Word}
    (hq : MemClosed Q) (hd : d.Kept S Q c k) : (Device.cmdWrite d n off i v).Kept S Q c k := by
  unfold Device.cmdWrite; try dsimp only
  repeat' first
    | with_reducible assumption | with_reducible apply calCmdForce_kept | with_reducible apply calCmdPending_kept
    | with_reducible apply kdfCmd_kept | with_reducible apply keepCmd_kept | with_reducible apply lantCmd_kept
    | with_reducible apply moorCmd_kept | with_reducible apply pktCmd_kept | with_reducible apply retrain_kept
    | with_reducible apply snapWrite_kept | split

theorem w1cWrite_kept {d : Device} {n : Nat} {off : Nat} {i : Nat} {v : Word} (hd : d.Kept S Q c k) : (Device.w1cWrite d n off i v).Kept S Q c k := by
  unfold Device.w1cWrite; try dsimp only
  repeat' first
    | with_reducible assumption | with_reducible apply onEv_queue_kept | rfl | with_reducible apply onLog_kept
    | with_reducible apply onPkt_kept | with_reducible apply onPwr_kept | with_reducible apply refused_kept | split

theorem regWrite_kept {d : Device} {req : Nat} {addr : Nat} {v : Word}
    (hq : MemClosed Q) (hd : d.Kept S Q c k) : (Device.regWrite d req addr v).Kept S Q c k := by
  unfold Device.regWrite; try dsimp only
  repeat' first
    | with_reducible assumption | with_reducible apply cmdWrite_kept | with_reducible apply cvPut_kept | with_reducible apply regMerge_kept
    | with_reducible apply w1cWrite_kept | split

theorem busWrite_kept {d : Device} {req : Nat} {addr : Nat} {width : Nat} {v : Word}
    (hq : MemClosed Q) (hd : d.Kept S Q c k) : (Device.busWrite d req addr width v).Kept S Q c k := by
  unfold Device.busWrite; try dsimp only
  repeat' first | with_reducible assumption | with_reducible apply access_kept | with_reducible apply regWrite_kept

theorem memWrite_kept {d : Device} {addr : Nat} {v : Word}
    (hq : MemClosed Q) (h : d.Kept S Q c k) : (d.memWrite addr v).Kept S Q c k := onMem_kept (hq.2.1 _ _ _) h

theorem registerWrite_kept {req : Nat} {addr : Nat} {width : Nat} {v : Word} {d : Device}
    (hq : MemClosed Q) (hd : d.Kept S Q c k) : (registerWrite req addr width v d).Kept S Q c k := by
  unfold registerWrite; try dsimp only
  repeat' first | with_reducible assumption | with_reducible apply busWrite_kept | with_reducible apply memWrite_kept | split

theorem tapBypass_kept {d : Device} (hd : d.Kept S Q c k) : (Device.tapBypass d).Kept S Q c k := by
  unfold Device.tapBypass; try dsimp only
  repeat' first | with_reducible assumption | with_reducible apply emit_kept | with_reducible apply onDbg_kept

theorem extest_kept {boundary : Nat} {d : Device} (hd : d.Kept S Q c k) : (extest boundary d).Kept S Q c k := by
  unfold extest; try dsimp only
  repeat' first
    | with_reducible assumption | with_reducible apply emit_kept | with_reducible apply freeNext_kept | with_reducible apply onDbg_kept
    | with_reducible apply tapBypass_kept | split

theorem samplePreload_kept {boundary : Nat} {d : Device} (hd : d.Kept S Q c k) : (samplePreload boundary d).Kept S Q c k := by
  unfold samplePreload; try dsimp only
  repeat' first
    | with_reducible assumption | with_reducible apply emit_kept | with_reducible apply freeNext_kept | with_reducible apply onDbg_kept

theorem idcode_kept {d : Device} (hd : d.Kept S Q c k) : (idcode d).Kept S Q c k := by
  unfold idcode; try dsimp only
  repeat' first | with_reducible assumption | with_reducible apply emit_kept | with_reducible apply onDbg_kept

theorem clamp_kept {d : Device} (hd : d.Kept S Q c k) : (clamp d).Kept S Q c k := by
  unfold clamp; try dsimp only
  repeat' first
    | with_reducible assumption | with_reducible apply emit_kept | with_reducible apply onDbg_kept | with_reducible apply tapBypass_kept
    | split

theorem highz_kept {d : Device} (hd : d.Kept S Q c k) : (highz d).Kept S Q c k := by
  unfold highz; try dsimp only
  repeat' first
    | with_reducible assumption | with_reducible apply emit_kept | with_reducible apply onDbg_kept | with_reducible apply tapBypass_kept
    | split

theorem bypass_kept {_code : BitVec 5} {d : Device} (hd : d.Kept S Q c k) : (bypass _code d).Kept S Q c k := by
  unfold bypass; try dsimp only
  repeat' first | with_reducible assumption | with_reducible apply tapBypass_kept

theorem dbgRecord_kept {d : Device} {result : Nat} (hd : d.Kept S Q c k) : (Device.dbgRecord d result).Kept S Q c k := by
  unfold Device.dbgRecord; try dsimp only
  repeat' first | with_reducible assumption | with_reducible apply logReq_kept

theorem dbgChal_kept {random : Block} {d : Device} (hd : d.Kept S Q c k) : (dbgChal random d).Kept S Q c k := by
  unfold dbgChal; try dsimp only
  repeat' first | with_reducible assumption | with_reducible apply emit_kept | with_reducible apply onDbg_kept | split

theorem dbgResp_kept {response : Block} {d : Device} (hd : d.Kept S Q c k) : (dbgResp response d).Kept S Q c k := by
  unfold dbgResp; try dsimp only
  repeat' first
    | with_reducible assumption | with_reducible apply dbgRecord_kept | with_reducible apply onDbg_kept | with_reducible apply raise_kept
    | with_reducible apply tapBypass_kept | split

theorem dbgBlockExpiry_kept {d : Device} (hd : d.Kept S Q c k) : (dbgBlockExpiry d).Kept S Q c k := by
  unfold dbgBlockExpiry; try dsimp only
  repeat' first | with_reducible assumption | with_reducible apply onDbg_kept | split

theorem dbgLock_kept {d : Device} (hd : d.Kept S Q c k) : (Device.dbgLock d).Kept S Q c k := by
  unfold Device.dbgLock; try dsimp only
  repeat' first | with_reducible assumption | with_reducible apply dbgRecord_kept | with_reducible apply onDbg_kept | split

theorem dbgRelock_kept {d : Device} (hd : d.Kept S Q c k) : (dbgRelock d).Kept S Q c k := by
  unfold dbgRelock; try dsimp only
  repeat' first | with_reducible assumption | with_reducible apply dbgLock_kept

theorem onCore_kept {d : Device} {n : Nat} {f : Core → Core} (hd : d.Kept S Q c k) : (Device.onCore d n f).Kept S Q c k := by
  unfold Device.onCore; try dsimp only
  repeat' first | with_reducible assumption | with_reducible apply onDbg_kept

theorem coreHalt_kept {d : Device} {n : Nat} {reason : Nat} {pc : Word} (hd : d.Kept S Q c k) : (Device.coreHalt d n reason pc).Kept S Q c k := by
  unfold Device.coreHalt; try dsimp only
  repeat' first
    | with_reducible assumption | with_reducible apply onCore_kept | with_reducible apply onDbg_kept | with_reducible apply raise_kept

theorem haltReq_kept {d : Device} {n : Nat} (hd : d.Kept S Q c k) : (Device.haltReq d n).Kept S Q c k := by
  unfold Device.haltReq; try dsimp only
  repeat' first | with_reducible assumption | with_reducible apply coreHalt_kept | with_reducible apply freeNext_kept | split

theorem haltOver_kept {d : Device} (hd : d.Kept S Q c k) : (Device.haltOver d).Kept S Q c k := by
  unfold Device.haltOver; try dsimp only
  repeat' first
    | with_reducible assumption | with_reducible apply onDbg_kept | with_reducible apply onWatch_kept | with_reducible apply foldl_kept
    | split | (dsimp only) | (intro _ _ _; try dsimp only)

theorem resumeReq_kept {d : Device} {n : Nat} (hd : d.Kept S Q c k) : (Device.resumeReq d n).Kept S Q c k := by
  unfold Device.resumeReq; try dsimp only
  repeat' first | with_reducible assumption | with_reducible apply haltOver_kept | with_reducible apply onCore_kept

theorem stepReq_kept {d : Device} {n : Nat} (hd : d.Kept S Q c k) : (Device.stepReq d n).Kept S Q c k := by
  unfold Device.stepReq; try dsimp only
  repeat' first | with_reducible assumption | with_reducible apply coreHalt_kept | with_reducible apply freeNext_kept | split

theorem dbgHalt_kept {n : Fin 4} {d : Device} (hd : d.Kept S Q c k) : (dbgHalt n d).Kept S Q c k := by
  unfold dbgHalt; try dsimp only
  repeat' first | with_reducible assumption | with_reducible apply haltReq_kept | split

theorem dbgResume_kept {n : Fin 4} {d : Device} (hd : d.Kept S Q c k) : (dbgResume n d).Kept S Q c k := by
  unfold dbgResume; try dsimp only
  repeat' first | with_reducible assumption | with_reducible apply resumeReq_kept | split

theorem dbgStep_kept {n : Fin 4} {d : Device} (hd : d.Kept S Q c k) : (dbgStep n d).Kept S Q c k := by
  unfold dbgStep; try dsimp only
  repeat' first | with_reducible assumption | with_reducible apply stepReq_kept | split

theorem dbgBreakpoint_kept {n : Fin 4} {i : Fin 4} {d : Device} (hd : d.Kept S Q c k) : (dbgBreakpoint n i d).Kept S Q c k := by
  unfold dbgBreakpoint; try dsimp only
  repeat' first | with_reducible assumption | with_reducible apply coreHalt_kept | split

theorem dbgWatchpoint_kept {n : Fin 4} {addr : Word} {write : Bool} {d : Device}
    (hd : d.Kept S Q c k) : (dbgWatchpoint n addr write d).Kept S Q c k := by
  unfold dbgWatchpoint; try dsimp only
  repeat' first | with_reducible assumption | with_reducible apply coreHalt_kept | with_reducible apply freeNext_kept | split

theorem dbgCtrl_kept {d : Device} {n : Nat} {v : Word} (hd : d.Kept S Q c k) : (Device.dbgCtrl d n v).Kept S Q c k := by
  unfold Device.dbgCtrl; try dsimp only
  repeat' first
    | with_reducible assumption | with_reducible apply haltReq_kept | with_reducible apply resumeReq_kept
    | with_reducible apply stepReq_kept | split

theorem dbgWrite_kept {d : Device} {off : Nat} {v : Word} (hd : d.Kept S Q c k) : (Device.dbgWrite d off v).Kept S Q c k := by
  unfold Device.dbgWrite; try dsimp only
  repeat' first
    | with_reducible assumption | with_reducible apply dbgCtrl_kept | with_reducible apply dbgLock_kept | with_reducible apply onCore_kept
    | split

theorem sysRead_kept {d : Device} {addr : Nat} {x0 : Word} {rr : Device}
    (e : (Device.sysRead d addr) = (x0, rr)) (hd : d.Kept S Q c k) : rr.Kept S Q c k := by
  unfold Device.sysRead at e; try dsimp only at e
  repeat' split at e
  all_goals first | (cases e; done) | (cases e; (repeat' first | with_reducible assumption); done) | (refine busRead_kept e ?_; (repeat' first | with_reducible assumption); done)

theorem sysRead_kept2 {d : Device} {addr : Nat}
    (hd : d.Kept S Q c k) : (Device.sysRead d addr).2.Kept S Q c k := sysRead_kept (rr := (Device.sysRead d addr).2) rfl hd

theorem accCapture_kept {d : Device} (hd : d.Kept S Q c k) : (Device.accCapture d).Kept S Q c k := by
  unfold Device.accCapture; try dsimp only
  repeat' first
    | with_reducible assumption | with_reducible apply emit_kept | with_reducible apply freeNext_kept | with_reducible apply onDbg_kept

theorem accDone_kept {d : Device} {op : Nat} {v : Word} (hd : d.Kept S Q c k) : (Device.accDone d op v).Kept S Q c k := by
  unfold Device.accDone; try dsimp only
  repeat' first | with_reducible assumption | with_reducible apply onDbg_kept

theorem dbgAccessRead_kept {target : BitVec 6} {addr : Word} {d : Device} (hd : d.Kept S Q c k) : (dbgAccessRead target addr d).Kept S Q c k := by
  unfold dbgAccessRead; try dsimp only
  repeat' first
    | with_reducible assumption | with_reducible apply accCapture_kept | with_reducible apply accDone_kept
    | (with_reducible refine sysRead_kept (by assumption) ?_) | with_reducible apply sysRead_kept2 | with_reducible apply tapBypass_kept
    | split

theorem dbgAccessWrite_kept {target : BitVec 6} {addr : Word} {data : Word} {d : Device}
    (hq : MemClosed Q) (hd : d.Kept S Q c k) : (dbgAccessWrite target addr data d).Kept S Q c k := by
  unfold dbgAccessWrite; try dsimp only
  repeat' first
    | with_reducible assumption | with_reducible apply accCapture_kept | with_reducible apply accDone_kept
    | with_reducible apply dbgWrite_kept | with_reducible apply registerWrite_kept | with_reducible apply tapBypass_kept | split

theorem geoSwitch_kept {d : Device} {p : Nat} (hd : d.Kept S Q c k) : (Device.geoSwitch d p).Kept S Q c k := by
  unfold Device.geoSwitch; try dsimp only
  repeat' first
    | with_reducible assumption | with_reducible apply access_kept | with_reducible apply profileGo_kept | with_reducible apply raise_kept
    | split

theorem geoFix_kept {d : Device} {lat : Int} {lon : Int} (hd : d.Kept S Q c k) : (Device.geoFix d lat lon).Kept S Q c k := by
  unfold Device.geoFix; try dsimp only
  repeat' first | with_reducible assumption | with_reducible apply geoSwitch_kept | with_reducible apply onKeep_kept | split

theorem geoReset_kept {d : Device} {valid : Bool} (hd : d.Kept S Q c k) : (Device.geoReset d valid).Kept S Q c k := by
  unfold Device.geoReset; try dsimp only
  repeat' first | with_reducible assumption | with_reducible apply onKeep_kept

theorem labelEdges_kept {d : Device} {u : Nat} (hd : d.Kept S Q c k) : (Device.labelEdges d u).Kept S Q c k := by
  unfold Device.labelEdges; try dsimp only
  repeat' first
    | with_reducible assumption | with_reducible apply gnssLabel_kept | with_reducible apply foldl_kept | split | (dsimp only)
    | (intro _ _ _; try dsimp only)

theorem rmc_kept {d : Device} {f : List Bytes} (hd : d.Kept S Q c k) : (Device.rmc d f).Kept S Q c k := by
  unfold Device.rmc; try dsimp only
  repeat' first
    | with_reducible assumption | with_reducible apply geoFix_kept | with_reducible apply geoReset_kept
    | with_reducible apply labelEdges_kept | with_reducible apply onKeep_kept | with_reducible apply refLoss_kept
    | with_reducible apply foldl_kept | split | (dsimp only) | (intro _ _ _; try dsimp only)

theorem nmeaSentence_kept {text : Bytes} {d : Device} (hd : d.Kept S Q c k) : (nmeaSentence text d).Kept S Q c k := by
  unfold nmeaSentence; try dsimp only
  repeat' first | with_reducible assumption | with_reducible apply labelEdges_kept | with_reducible apply rmc_kept | split

theorem geoFixTimeout_kept {d : Device} (hd : d.Kept S Q c k) : (geoFixTimeout d).Kept S Q c k := by
  unfold geoFixTimeout; try dsimp only
  repeat' first | with_reducible assumption | with_reducible apply geoReset_kept | split

theorem ptpState_kept {d : Device} {e0 : Nat} {st : Nat} (hd : d.Kept S Q c k) : (Device.ptpState d e0 st).Kept S Q c k := by
  unfold Device.ptpState; try dsimp only
  repeat' first | with_reducible assumption | with_reducible apply onKeep_kept | with_reducible apply raise_kept | split

theorem ptpSlave_kept {d : Device} {e0 : Nat} (hd : d.Kept S Q c k) : (Device.ptpSlave d e0).Kept S Q c k := by
  unfold Device.ptpSlave; try dsimp only
  repeat' first
    | with_reducible assumption | with_reducible apply freeNext_kept | with_reducible apply ptpState_kept | with_reducible apply foldl_kept
    | split | (dsimp only) | (intro _ _ _; try dsimp only)

theorem domFeedPut_kept {x : RefDom} {offset : Int} {d : Device} (h : d.Kept S Q c k) : (ptpSyncComplete.domFeedPut x offset d).Kept S Q c k := by
  refine access_kept ?_ h
  exact feed_kept h

theorem ptpSyncComplete_kept {p : Fin 6} {offset : Int} {d : Device} (h : d.Kept S Q c k) : (ptpSyncComplete p offset d).Kept S Q c k := by
  unfold ptpSyncComplete; dsimp only
  repeat' split
  all_goals first | exact h | exact domFeedPut_kept (ptpSlave_kept h) | exact ptpSlave_kept h

theorem answer_kept {d : Device} {q : MgmtReq} {status : Nat} {body : Bytes}
    (hd : d.Kept S Q c k) : (Device.answer d q status body).Kept S Q c k := by
  unfold Device.answer; try dsimp only
  repeat' first | with_reducible assumption | with_reducible apply emit_kept | with_reducible apply inc_kept | split

theorem mgmtAccept_kept {d : Device} {q : MgmtReq} (hd : d.Kept S Q c k) : (Device.mgmtAccept d q).Kept S Q c k := by
  unfold Device.mgmtAccept; try dsimp only
  repeat' first
    | with_reducible assumption | with_reducible apply answer_kept | with_reducible apply inc_kept | with_reducible apply onKeep_kept
    | with_reducible apply raise_kept | split

theorem mgmtRx_kept {m : Datagram} {d : Device} (hd : d.Kept S Q c k) : (mgmtRx m d).Kept S Q c k := by
  unfold mgmtRx; try dsimp only
  repeat' first
    | with_reducible assumption | with_reducible apply answer_kept | with_reducible apply inc_kept | with_reducible apply mgmtAccept_kept
    | with_reducible apply onKeep_kept | with_reducible apply raise_kept | split

theorem mgNo_kept {d : Device} {status : Nat} (hd : d.Kept S Q c k) : (Device.mgNo d status).dev.Kept S Q c k := by
  unfold Device.mgNo; try dsimp only
  repeat' first | with_reducible assumption

theorem mgmtRun_kept {op : Nat} {f : MgmtReq → Device → MgResult} {d : Device}
    (hf : ∀ q d, d.Kept S Q c k → (f q d).dev.Kept S Q c k) (h : d.Kept S Q c k) : (d.mgmtRun op f).Kept S Q c k := by
  unfold Device.mgmtRun
  split
  · exact h
  · split
    · exact h
    · rename_i q rest _ _
      extract_lets d1 r d2 d3
      have h1 : d1.Kept S Q c k := onKeep_kept h
      have h2 : r.dev.Kept S Q c k := by
        show (if _ then _ else _ : MgResult).dev.Kept S Q c k
        split
        · exact h1
        · exact hf q _ h1
      have h3 : d3.Kept S Q c k := by
        show (if _ then _ else _ : Device).Kept S Q c k
        split
        · exact inc_kept (answer_kept h2)
        · exact answer_kept h2
      exact logReq_kept h3

theorem mgHello_kept {d : Device} (hd : d.Kept S Q c k) : (mgHello d).Kept S Q c k := by
  unfold mgHello; try dsimp only
  repeat' first
    | with_reducible assumption | with_reducible apply answer_kept | with_reducible apply inc_kept | with_reducible apply onKeep_kept
    | split

theorem mgReads_kept {d : Device} {a1 : List Nat} {a2 : Bytes} {x0 : Bytes} {rr : Device}
    (e : (Device.mgReads d a1 a2) = (x0, rr)) (hd : d.Kept S Q c k) : rr.Kept S Q c k := by
  revert x0 rr
  fun_induction Device.mgReads d a1 a2
  all_goals intro x0 rr e
  all_goals try dsimp only at e
  all_goals first | (cases e; done) | (cases e; (repeat' first | with_reducible assumption); done) | (refine busRead_kept e ?_; (repeat' first | with_reducible assumption | (with_reducible refine busRead_kept (by assumption) ?_) | with_reducible apply busRead_kept2 | split | (dsimp only) | (intro _ _ _; try dsimp only) | (simp only [kept_mk]) | (simp only [kept_mk_clk]) | (apply_assumption)); done) | (apply_assumption <;> first | exact e | (repeat' first | with_reducible assumption | (with_reducible refine busRead_kept (by assumption) ?_) | with_reducible apply busRead_kept2); done)

theorem mgReads_kept2 {d : Device} {a1 : List Nat} {a2 : Bytes}
    (hd : d.Kept S Q c k) : (Device.mgReads d a1 a2).2.Kept S Q c k := mgReads_kept (rr := (Device.mgReads d a1 a2).2) rfl hd

theorem mgRead_kept {q : MgmtReq} {d : Device} (hd : d.Kept S Q c k) : (mgRead q d).dev.Kept S Q c k := by
  unfold mgRead; try dsimp only
  repeat' first
    | with_reducible assumption | with_reducible apply mgNo_kept | (with_reducible refine mgReads_kept (by assumption) ?_)
    | with_reducible apply mgReads_kept2 | with_reducible apply snapWrite_kept | with_reducible apply foldl_kept | split | (dsimp only)
    | (intro _ _ _; try dsimp only)

theorem mgGuards_kept {d : Device} {a1 : List MgEntry} {a2 : Nat} {x0 : Option Nat} {rr : Device}
    (e : (Device.mgGuards d a1 a2) = (x0, rr)) (hd : d.Kept S Q c k) : rr.Kept S Q c k := by
  revert x0 rr
  fun_induction Device.mgGuards d a1 a2
  all_goals intro x0 rr e
  all_goals try dsimp only at e
  all_goals first | (cases e; done) | (cases e; (repeat' first | with_reducible assumption | (with_reducible refine busRead_kept (by assumption) ?_) | with_reducible apply busRead_kept2); done) | (refine busRead_kept e ?_; (repeat' first | with_reducible assumption | (with_reducible refine busRead_kept (by assumption) ?_) | with_reducible apply busRead_kept2 | split | (dsimp only) | (intro _ _ _; try dsimp only) | (simp only [kept_mk]) | (simp only [kept_mk_clk]) | (apply_assumption)); done) | (apply_assumption <;> first | exact e | (repeat' first | with_reducible assumption | (with_reducible refine busRead_kept (by assumption) ?_) | with_reducible apply busRead_kept2); done)

theorem mgGuards_kept2 {d : Device} {a1 : List MgEntry} {a2 : Nat}
    (hd : d.Kept S Q c k) : (Device.mgGuards d a1 a2).2.Kept S Q c k := mgGuards_kept (rr := (Device.mgGuards d a1 a2).2) rfl hd

theorem mgWrites_kept {d : Device} {a1 : List MgEntry} {a2 : Bytes} {x0 : Bytes} {rr : Device}
    (e : (Device.mgWrites d a1 a2) = (x0, rr)) (hq : MemClosed Q) (hd : d.Kept S Q c k) : rr.Kept S Q c k := by
  revert x0 rr
  fun_induction Device.mgWrites d a1 a2
  all_goals intro x0 rr e
  all_goals try dsimp only at e
  all_goals first | (cases e; done) | (cases e; (repeat' first | with_reducible assumption); done) | (refine busRead_kept e ?_; (repeat' first | with_reducible assumption | (with_reducible refine busRead_kept (by assumption) ?_) | with_reducible apply busRead_kept2 | with_reducible apply busWrite_kept | split | (dsimp only) | (intro _ _ _; try dsimp only) | (simp only [kept_mk]) | (simp only [kept_mk_clk]) | (apply_assumption)); done) | (apply_assumption <;> first | exact e | (repeat' first | with_reducible assumption | (with_reducible refine busRead_kept (by assumption) ?_) | with_reducible apply busRead_kept2 | with_reducible apply busWrite_kept); done)

theorem mgWrites_kept2 {d : Device} {a1 : List MgEntry} {a2 : Bytes}
    (hq : MemClosed Q) (hd : d.Kept S Q c k) : (Device.mgWrites d a1 a2).2.Kept S Q c k := mgWrites_kept (rr := (Device.mgWrites d a1 a2).2) rfl hq hd

theorem mgWrite_kept {q : MgmtReq} {d : Device} (hq : MemClosed Q) (hd : d.Kept S Q c k) : (mgWrite q d).dev.Kept S Q c k := by
  unfold mgWrite; try dsimp only
  repeat' first
    | with_reducible assumption | (with_reducible refine mgGuards_kept (by assumption) ?_) | with_reducible apply mgGuards_kept2
    | with_reducible apply mgNo_kept | (with_reducible refine mgWrites_kept (by assumption) ?_) | with_reducible apply mgWrites_kept2
    | with_reducible apply raise_kept | split

theorem mgStageBegin_kept {q : MgmtReq} {d : Device} (hd : d.Kept S Q c k) : (mgStageBegin q d).dev.Kept S Q c k := by
  unfold mgStageBegin; try dsimp only
  repeat' first
    | with_reducible assumption | with_reducible apply mgNo_kept | with_reducible apply raise_kept
    | (with_reducible refine stageOpen_kept (by assumption) ?_) | split

theorem mgStageData_kept {q : MgmtReq} {d : Device} (hd : d.Kept S Q c k) : (mgStageData q d).dev.Kept S Q c k := by
  unfold mgStageData; try dsimp only
  repeat' first | with_reducible assumption | with_reducible apply mgNo_kept | with_reducible apply onLL_kept | split

theorem mgStageEnd_kept {q : MgmtReq} {d : Device} (hd : d.Kept S Q c k) : (mgStageEnd q d).dev.Kept S Q c k := by
  unfold mgStageEnd; try dsimp only
  repeat' first | with_reducible assumption | with_reducible apply mgNo_kept | with_reducible apply stageClose_kept | split

theorem mgReload_kept {q : MgmtReq} {d : Device} (hq : MemClosed Q) (hd : d.Kept S Q c k) : (mgReload q d).dev.Kept S Q c k := by
  unfold mgReload; try dsimp only
  repeat' first | with_reducible assumption | with_reducible apply mgNo_kept | with_reducible apply reloadGo_kept | split

theorem mgLadder_kept {q : MgmtReq} {d : Device} (hd : d.Kept S Q c k) : (mgLadder q d).dev.Kept S Q c k := by
  unfold mgLadder; try dsimp only
  repeat' first
    | with_reducible assumption | (with_reducible refine ladderAsk_kept (by assumption) ?_) | with_reducible apply mgNo_kept | split

theorem mgRestart_kept {q : MgmtReq} {d : Device} (hd : d.Kept S Q c k) : (mgRestart q d).dev.Kept S Q c k := by
  unfold mgRestart; try dsimp only
  repeat' first
    | with_reducible assumption | (with_reducible refine ladderAsk_kept (by assumption) ?_) | with_reducible apply mgNo_kept | split

theorem mgLogRead_kept {q : MgmtReq} {d : Device} (hd : d.Kept S Q c k) : (mgLogRead q d).dev.Kept S Q c k := by
  unfold mgLogRead; try dsimp only
  repeat' first | with_reducible assumption | with_reducible apply mgNo_kept | split

theorem mgCharRead_kept {q : MgmtReq} {d : Device} (hd : d.Kept S Q c k) : (mgCharRead q d).dev.Kept S Q c k := by
  unfold mgCharRead; try dsimp only
  repeat' first | with_reducible assumption | with_reducible apply mgNo_kept | split

theorem radSwitch_kept {d : Device} {b : Band} (hd : d.Kept S Q c k) : (Device.radSwitch d b).Kept S Q c k := by
  unfold Device.radSwitch; try dsimp only
  repeat' first
    | with_reducible assumption | with_reducible apply domFault_kept | (with_reducible refine domLoad_kept (by assumption) ?_)
    | with_reducible apply gateWatch_kept | with_reducible apply onRad_kept | with_reducible apply txAbort_kept | split

theorem profileApply_kept {d : Device} {s : Switch} {sf : Nat}
    (hq : MemClosed Q) (hd : d.Kept S Q c k) : (Device.profileApply d s sf).Kept S Q c k := by
  unfold Device.profileApply; try dsimp only
  repeat' first
    | with_reducible assumption | with_reducible apply bandsVoid_kept | with_reducible apply dutyCarry_kept
    | with_reducible apply dutyWatchAll_kept | with_reducible apply onLant_kept | with_reducible apply onRelay_kept
    | with_reducible apply radSwitch_kept | with_reducible apply raise_kept | with_reducible apply release_kept
    | with_reducible apply foldl_kept | split | (dsimp only) | (intro _ _ _; try dsimp only)

theorem profileBoundary_kept {d : Device} {sf : Nat} (hq : MemClosed Q) (hd : d.Kept S Q c k) : (Device.profileBoundary d sf).Kept S Q c k := by
  unfold Device.profileBoundary; try dsimp only
  repeat' first
    | with_reducible assumption | with_reducible apply onLant_kept | with_reducible apply profileApply_kept
    | with_reducible apply raise_kept | split

theorem pendPut_kept {d : Device} {sf : Nat} (hd : d.Kept S Q c k) : (Device.pendPut d sf).Kept S Q c k := by
  unfold Device.pendPut; try dsimp only
  repeat' first | with_reducible assumption | with_reducible apply onLant_kept | split

theorem segPick_kept {d : Device} (hd : d.Kept S Q c k) : (Device.segPick d).Kept S Q c k := by
  unfold Device.segPick; try dsimp only
  repeat' first | with_reducible assumption | with_reducible apply onLant_kept | split

theorem bellPlace_kept {d : Device} {sf : Nat} {c0 : Nat} (hd : d.Kept S Q c k) : (Device.bellPlace d sf c0).Kept S Q c k := by
  unfold Device.bellPlace; try dsimp only
  repeat' first
    | with_reducible assumption | with_reducible apply bellSkip_kept | with_reducible apply onLant_kept | with_reducible apply raise_kept
    | with_reducible apply useGroup_kept | split

theorem bellBoundary_kept {d : Device} {sf : Nat} (hd : d.Kept S Q c k) : (Device.bellBoundary d sf).Kept S Q c k := by
  unfold Device.bellBoundary; try dsimp only
  repeat' first
    | with_reducible assumption | with_reducible apply bellPlace_kept | with_reducible apply bellSkip_kept
    | with_reducible apply onLant_kept | with_reducible apply foldl_kept | split | (dsimp only) | (intro _ _ _; try dsimp only)

theorem twinCompare_kept {d : Device} (hd : d.Kept S Q c k) : (Device.twinCompare d).Kept S Q c k := by
  unfold Device.twinCompare; try dsimp only
  repeat' first | with_reducible assumption | with_reducible apply onLL_kept | with_reducible apply raise_kept | split

theorem parentCompare_kept {d : Device} (hd : d.Kept S Q c k) : (Device.parentCompare d).Kept S Q c k := by
  unfold Device.parentCompare; try dsimp only
  repeat' first | with_reducible assumption | with_reducible apply onLL_kept | with_reducible apply raise_kept | split

theorem charCompare_kept {d : Device} (hd : d.Kept S Q c k) : (Device.charCompare d).Kept S Q c k := by
  unfold Device.charCompare; try dsimp only
  repeat' first
    | with_reducible assumption | with_reducible apply onLL_kept | with_reducible apply parentCompare_kept
    | with_reducible apply twinCompare_kept | split

theorem notesBoundary_kept {d : Device} {sf : Nat} (hd : d.Kept S Q c k) : (Device.notesBoundary d sf).Kept S Q c k := by
  unfold Device.notesBoundary; try dsimp only
  repeat' first
    | with_reducible assumption | with_reducible apply addNotes_kept | with_reducible apply bandsVoid_kept | with_reducible apply inc_kept
    | with_reducible apply onLant_kept | with_reducible apply raise_kept | with_reducible apply foldl_kept | split | (dsimp only)
    | (intro _ _ _; try dsimp only)

theorem bodiesPut_kept {d : Device} {sf : Nat} (hd : d.Kept S Q c k) : (Device.bodiesPut d sf).Kept S Q c k := by
  unfold Device.bodiesPut; try dsimp only
  repeat' first | with_reducible assumption | with_reducible apply freeNext_kept | with_reducible apply onLant_kept

theorem ringTake_kept {d : Device} (hd : d.Kept S Q c k) : (Device.ringTake d).Kept S Q c k := by
  unfold Device.ringTake; try dsimp only
  repeat' first | with_reducible assumption | with_reducible apply onRad_kept | split

theorem boundaryApply_kept {d : Device} {sf : Nat} (hq : MemClosed Q) (hd : d.Kept S Q c k) : (Device.boundaryApply d sf).Kept S Q c k := by
  unfold Device.boundaryApply; try dsimp only
  repeat' first
    | with_reducible assumption | with_reducible apply entryBoundary_kept | with_reducible apply epochSwitch_kept
    | with_reducible apply onLant_kept | with_reducible apply openApply_kept | with_reducible apply planApply_kept
    | with_reducible apply profileBoundary_kept | with_reducible apply reloadBoundary_kept | split

theorem boundaryPlan_kept {d : Device} {sf : Nat} (hd : d.Kept S Q c k) : (Device.boundaryPlan d sf).Kept S Q c k := by
  unfold Device.boundaryPlan; try dsimp only
  repeat' first
    | with_reducible assumption | with_reducible apply bellBoundary_kept | with_reducible apply notesBoundary_kept
    | with_reducible apply pendPut_kept | with_reducible apply segPick_kept

theorem boundaryRest_kept {d : Device} {sf : Nat} (hq : MemClosed Q) (hd : d.Kept S Q c k) : (Device.boundaryRest d sf).Kept S Q c k := by
  unfold Device.boundaryRest; try dsimp only
  repeat' first
    | with_reducible assumption | with_reducible apply airStep_kept | with_reducible apply calWait_kept
    | with_reducible apply charCompare_kept | with_reducible apply gateBoundary_kept | with_reducible apply grantsBoundary_kept
    | with_reducible apply joinLapse_kept | with_reducible apply mirrorBoundary_kept | with_reducible apply scanStep_kept | split

theorem superframeBoundary_kept {d : Device} (hq : MemClosed Q) (hd : d.Kept S Q c k) : (superframeBoundary d).Kept S Q c k := by
  unfold superframeBoundary; try dsimp only
  repeat' first
    | with_reducible assumption | with_reducible apply bodiesPut_kept | with_reducible apply boundaryApply_kept
    | with_reducible apply boundaryPlan_kept | with_reducible apply boundaryRest_kept | with_reducible apply reapClients_kept
    | with_reducible apply ringTake_kept | split

end Sys2Proof.Machine
end

