-- ==== Sys2Proof/Laws/Act.lean ====
section
/-! SUPPORT. What one command does around its effect: the clocks move to its instant, and the queue stays. -/

namespace Sys2Proof.Machine

/-- The canonical form is respected by every way in which the device changes its memory list. -/
theorem memClosed_wf : MemClosed (fun m => Memory.wf m = true) :=
  ⟨rfl, fun m a b => writeBytes_wf b m a, Memory.wf_filter⟩

theorem begin_now (t : Time) (d : Device) : (d.begin t).clk.now = max d.clk.now t := by
  have h : ∀ a b : Nat, a + (b - a) = max a b := by omega
  exact h _ _

theorem begin_kept {S : Prop} {Q : List Host.Cell → Prop} {t : Time} {d : Device} (hQ : Q d.mem.bytes) (hS : S → d.ev.Bound) :
    (d.begin t).Kept S Q (max d.clk.now t) d.otp :=
  ⟨begin_now t d, rfl, hQ, hS⟩

/-- A command whose effect keeps what `Device.Kept` says. -/
theorem act_kept {S : Prop} {Q : List Host.Cell → Prop} {t : Time} {f : Device → Device} {s s' : State} (e : s.act t f = .next s')
    (hf : ∀ d, d.Kept S Q (max s.dev.clk.now t) s.dev.otp → (f d).Kept S Q (max s.dev.clk.now t) s.dev.otp)
    (hQ : Q s.dev.mem.bytes) (hS : S → s.dev.ev.Bound) :
    s'.dev.Kept S Q (max s.dev.clk.now t) s.dev.otp := by
  cases e; exact hf _ (begin_kept hQ hS)

theorem act_pending {t : Time} {f : Device → Device} {s s' : State} (e : s.act t f = .next s') : s'.pending = s.pending := by
  cases e; rfl

end Sys2Proof.Machine
end

