-- ==== Sys2Proof/Laws/Exec.lean ====
section
/-! SUPPORT. What every command keeps: one lemma for each meaning. -/

namespace Sys2Proof.Machine

variable {S : Prop} {Q : List Host.Cell → Prop} {s s' : State}

/-- The instant that a meaning leaves is no earlier; the OTP contents stay; the event queue stays within its bound; and
`Q` holds of the memory list. -/
def State.Kept (S : Prop) (Q : List Host.Cell → Prop) (s s' : State) : Prop :=
  s'.pending = s.pending ∧ ∃ c, s.dev.clk.now ≤ c ∧ s'.dev.Kept S Q c s.dev.otp

theorem act_state_kept {t : Time} {f : Device → Device} (e : s.act t f = .next s')
    (hf : ∀ d c, d.Kept S Q c s.dev.otp → (f d).Kept S Q c s.dev.otp) (hQ : Q s.dev.mem.bytes) (hS : S → s.dev.ev.Bound) :
    State.Kept S Q s s' :=
  ⟨act_pending e, _, Nat.le_max_left _ _, act_kept e (fun d => hf d _) hQ hS⟩

theorem execRegisterWrite_kept {t : Time} {req addr width : Nat} {v : Word} (hq : MemClosed Q) (e : execRegisterWrite t req addr width v s = .next s') (hQ : Q s.dev.mem.bytes) (hS : S → s.dev.ev.Bound) :
    State.Kept S Q s s' := by
  unfold execRegisterWrite at e; split at e
  · cases e
  · exact act_state_kept e (fun _ _ h => registerWrite_kept hq h) hQ hS

theorem execRcRead_kept {t : Time} {req addr width : Nat} (e : execRcRead t req addr width s = .next s') (hQ : Q s.dev.mem.bytes) (hS : S → s.dev.ev.Bound) :
    State.Kept S Q s s' :=
  act_state_kept e (fun _ _ h => rcRead_kept h) hQ hS

theorem execLowWordRead_kept {t : Time} {req addr width : Nat} (e : execLowWordRead t req addr width s = .next s') (hQ : Q s.dev.mem.bytes) (hS : S → s.dev.ev.Bound) :
    State.Kept S Q s s' :=
  act_state_kept e (fun _ _ h => lowWordRead_kept h) hQ hS

theorem execSnapCapture_kept {t : Time} {n : Fin 10} (e : execSnapCapture t n s = .next s') (hQ : Q s.dev.mem.bytes) (hS : S → s.dev.ev.Bound) :
    State.Kept S Q s s' :=
  act_state_kept e (fun _ _ h => snapCapture_kept h) hQ hS

theorem execSnapEnd_kept {t : Time} {n : Fin 10} (e : execSnapEnd t n s = .next s') (hQ : Q s.dev.mem.bytes) (hS : S → s.dev.ev.Bound) :
    State.Kept S Q s s' :=
  act_state_kept e (fun _ _ h => snapEnd_kept h) hQ hS

theorem execTxCommand_kept {t : Time} {b : Band} {k : TxKind} {ret : BitVec 3} (e : execTxCommand t b k ret s = .next s') (hQ : Q s.dev.mem.bytes) (hS : S → s.dev.ev.Bound) :
    State.Kept S Q s s' :=
  act_state_kept e (fun _ _ h => txCommand_kept h) hQ hS

theorem execRxCommand_kept {t : Time} {b : Band} {w : RxWin} (hq : MemClosed Q) (e : execRxCommand t b w s = .next s') (hQ : Q s.dev.mem.bytes) (hS : S → s.dev.ev.Bound) :
    State.Kept S Q s s' :=
  act_state_kept e (fun _ _ h => rxCommand_kept hq h) hQ hS

theorem execKeeperImmediateTx_kept {t : Time} {b : Band} {rate cls : Nat} {ret : BitVec 3} {data : Bytes} (e : execKeeperImmediateTx t b rate cls ret data s = .next s') (hQ : Q s.dev.mem.bytes) (hS : S → s.dev.ev.Bound) :
    State.Kept S Q s s' :=
  act_state_kept e (fun _ _ h => keeperImmediateTx_kept h) hQ hS

theorem execRadioTransitionEnd_kept {t : Time} {b : Band} (hq : MemClosed Q) (e : execRadioTransitionEnd t b s = .next s') (hQ : Q s.dev.mem.bytes) (hS : S → s.dev.ev.Bound) :
    State.Kept S Q s s' :=
  act_state_kept e (fun _ _ h => radioTransitionEnd_kept hq h) hQ hS

theorem execSequenceStep_kept {t : Time} {b : Band} {sq : SeqId} {i : Fin 8} (e : execSequenceStep t b sq i s = .next s') (hQ : Q s.dev.mem.bytes) (hS : S → s.dev.ev.Bound) :
    State.Kept S Q s s' :=
  act_state_kept e (fun _ _ h => sequenceStep_kept h) hQ hS

theorem execTxFrameEnd_kept {t : Time} {b : Band} {p : FbPower} {cap : List FbSample} (hq : MemClosed Q) (e : execTxFrameEnd t b p cap s = .next s') (hQ : Q s.dev.mem.bytes) (hS : S → s.dev.ev.Bound) :
    State.Kept S Q s s' :=
  act_state_kept e (fun _ _ h => txFrameEnd_kept hq h) hQ hS

theorem execRxWindowClose_kept {t : Time} {b : Band} {w : RxWin} (hq : MemClosed Q) (e : execRxWindowClose t b w s = .next s') (hQ : Q s.dev.mem.bytes) (hS : S → s.dev.ev.Bound) :
    State.Kept S Q s s' :=
  act_state_kept e (fun _ _ h => rxWindowClose_kept hq h) hQ hS

theorem execTempSample_kept {t : Time} {temp : BitVec 16} (e : execTempSample t temp s = .next s') (hQ : Q s.dev.mem.bytes) (hS : S → s.dev.ev.Bound) :
    State.Kept S Q s s' :=
  act_state_kept e (fun _ _ h => tempSample_kept h) hQ hS

theorem execCalGapStart_kept {t : Time} {b : Band} (e : execCalGapStart t b s = .next s') (hQ : Q s.dev.mem.bytes) (hS : S → s.dev.ev.Bound) :
    State.Kept S Q s s' :=
  act_state_kept e (fun _ _ h => calGapStart_kept h) hQ hS

theorem execSynthCalEnd_kept {t : Time} {b : Band} {locked : Bool} (e : execSynthCalEnd t b locked s = .next s') (hQ : Q s.dev.mem.bytes) (hS : S → s.dev.ev.Bound) :
    State.Kept S Q s s' :=
  act_state_kept e (fun _ _ h => synthCalEnd_kept h) hQ hS

theorem execCalDeferExpiry_kept {t : Time} {b : Band} {g : Fin 16} (e : execCalDeferExpiry t b g s = .next s') (hQ : Q s.dev.mem.bytes) (hS : S → s.dev.ev.Bound) :
    State.Kept S Q s s' :=
  act_state_kept e (fun _ _ h => calDeferExpiry_kept h) hQ hS

theorem execCalCmdPending_kept {t : Time} {b : Band} {g : Fin 16} (e : execCalCmdPending t b g s = .next s') (hQ : Q s.dev.mem.bytes) (hS : S → s.dev.ev.Bound) :
    State.Kept S Q s s' :=
  act_state_kept e (fun _ _ h => calCmdPending_kept h) hQ hS

theorem execCalCmdForce_kept {t : Time} {b : Band} {g : Fin 16} (e : execCalCmdForce t b g s = .next s') (hQ : Q s.dev.mem.bytes) (hS : S → s.dev.ev.Bound) :
    State.Kept S Q s s' :=
  act_state_kept e (fun _ _ h => calCmdForce_kept h) hQ hS

theorem execForcedCalStart_kept {t : Time} {b : Band} (e : execForcedCalStart t b s = .next s') (hQ : Q s.dev.mem.bytes) (hS : S → s.dev.ev.Bound) :
    State.Kept S Q s s' :=
  act_state_kept e (fun _ _ h => forcedCalStart_kept h) hQ hS

theorem execLockLoss_kept {t : Time} {b : Band} (hq : MemClosed Q) (e : execLockLoss t b s = .next s') (hQ : Q s.dev.mem.bytes) (hS : S → s.dev.ev.Bound) :
    State.Kept S Q s s' :=
  act_state_kept e (fun _ _ h => lockLoss_kept hq h) hQ hS

theorem execBgcalStart_kept {t : Time} {b : Band} {k : Fin 5} (e : execBgcalStart t b k s = .next s') (hQ : Q s.dev.mem.bytes) (hS : S → s.dev.ev.Bound) :
    State.Kept S Q s s' :=
  act_state_kept e (fun _ _ h => bgcalStart_kept h) hQ hS

theorem execBgcalEnd_kept {t : Time} {b : Band} {result : Word} (e : execBgcalEnd t b result s = .next s') (hQ : Q s.dev.mem.bytes) (hS : S → s.dev.ev.Bound) :
    State.Kept S Q s s' :=
  act_state_kept e (fun _ _ h => bgcalEnd_kept h) hQ hS

theorem execPreambleDetect_kept {t : Time} {b : Band} {p : Detect} (hq : MemClosed Q) (e : execPreambleDetect t b p s = .next s') (hQ : Q s.dev.mem.bytes) (hS : S → s.dev.ev.Bound) :
    State.Kept S Q s s' :=
  act_state_kept e (fun _ _ h => preambleDetect_kept hq h) hQ hS

theorem execSyncSearchTimeout_kept {t : Time} {b : Band} (hq : MemClosed Q) (e : execSyncSearchTimeout t b s = .next s') (hQ : Q s.dev.mem.bytes) (hS : S → s.dev.ev.Bound) :
    State.Kept S Q s s' :=
  act_state_kept e (fun _ _ h => syncSearchTimeout_kept hq h) hQ hS

theorem execHeaderReceived_kept {t : Time} {b : Band} {sync : Time} {soft : List (Int × Int)} (hq : MemClosed Q) (e : execHeaderReceived t b sync soft s = .next s') (hQ : Q s.dev.mem.bytes) (hS : S → s.dev.ev.Bound) :
    State.Kept S Q s s' :=
  act_state_kept e (fun _ _ h => headerReceived_kept hq h) hQ hS

theorem execCodewordReady_kept {t : Time} {b : Band} {soft : List Int} {layers : Nat} (hq : MemClosed Q) (e : execCodewordReady t b soft layers s = .next s') (hQ : Q s.dev.mem.bytes) (hS : S → s.dev.ev.Bound) :
    State.Kept S Q s s' :=
  act_state_kept e (fun _ _ h => codewordReady_kept hq h) hQ hS

theorem execCodewordDecoded_kept {t : Time} {b : Band} (hq : MemClosed Q) (e : execCodewordDecoded t b s = .next s') (hQ : Q s.dev.mem.bytes) (hS : S → s.dev.ev.Bound) :
    State.Kept S Q s s' :=
  act_state_kept e (fun _ _ h => codewordDecoded_kept hq h) hQ hS

theorem execRxFrameEnd_kept {t : Time} {b : Band} (hq : MemClosed Q) (e : execRxFrameEnd t b s = .next s') (hQ : Q s.dev.mem.bytes) (hS : S → s.dev.ev.Bound) :
    State.Kept S Q s s' :=
  act_state_kept e (fun _ _ h => rxFrameEnd_kept hq h) hQ hS

theorem execFrame154Rx_kept {t : Time} {phr : Byte} {psdu : Bytes} {fcsOk : Bool} {rssi : Int} {sfd : Time} (hq : MemClosed Q) (e : execFrame154Rx t phr psdu fcsOk rssi sfd s = .next s') (hQ : Q s.dev.mem.bytes) (hS : S → s.dev.ev.Bound) :
    State.Kept S Q s s' :=
  act_state_kept e (fun _ _ h => frame154Rx_kept hq h) hQ hS

theorem execFrame154TxRequest_kept {t : Time} {ch : Nat} {ret : BitVec 3} {phr : Byte} {psdu : Bytes} (e : execFrame154TxRequest t ch ret phr psdu s = .next s') (hQ : Q s.dev.mem.bytes) (hS : S → s.dev.ev.Bound) :
    State.Kept S Q s s' :=
  act_state_kept e (fun _ _ h => frame154TxRequest_kept h) hQ hS

theorem execJobAdmit_kept {t : Time} (e : execJobAdmit t s = .next s') (hQ : Q s.dev.mem.bytes) (hS : S → s.dev.ev.Bound) :
    State.Kept S Q s s' :=
  act_state_kept e (fun _ _ h => jobAdmit_kept h) hQ hS

theorem execCheckJobEnd_kept {t : Time} {job : Nat} (hq : MemClosed Q) (e : execCheckJobEnd t job s = .next s') (hQ : Q s.dev.mem.bytes) (hS : S → s.dev.ev.Bound) :
    State.Kept S Q s s' :=
  act_state_kept e (fun _ _ h => checkJobEnd_kept hq h) hQ hS

theorem execReorderSkip_kept {t : Time} {client : Fin 8192} (e : execReorderSkip t client s = .next s') (hQ : Q s.dev.mem.bytes) (hS : S → s.dev.ev.Bound) :
    State.Kept S Q s s' :=
  act_state_kept e (fun _ _ h => reorderSkipCmd_kept h) hQ hS

theorem execKeyServiceEpoch_kept {t : Time} {client : Fin 8192} (e : execKeyServiceEpoch t client s = .next s') (hQ : Q s.dev.mem.bytes) (hS : S → s.dev.ev.Bound) :
    State.Kept S Q s s' :=
  act_state_kept e (fun _ _ h => keyServiceEpoch_kept h) hQ hS

theorem execKdfCmd_kept {t : Time} {v : Word} (e : execKdfCmd t v s = .next s') (hQ : Q s.dev.mem.bytes) (hS : S → s.dev.ev.Bound) :
    State.Kept S Q s s' :=
  act_state_kept e (fun _ _ h => kdfCmd_kept h) hQ hS

theorem execKdfJobEnd_kept {t : Time} (e : execKdfJobEnd t s = .next s') (hQ : Q s.dev.mem.bytes) (hS : S → s.dev.ev.Bound) :
    State.Kept S Q s s' :=
  act_state_kept e (fun _ _ h => kdfJobEnd_kept h) hQ hS

theorem execRingVerify_kept {t : Time} (e : execRingVerify t s = .next s') (hQ : Q s.dev.mem.bytes) (hS : S → s.dev.ev.Bound) :
    State.Kept S Q s s' :=
  act_state_kept e (fun _ _ h => ringVerify_kept h) hQ hS

theorem execAssocAnswer_kept {t : Time} (hq : MemClosed Q) (e : execAssocAnswer t s = .next s') (hQ : Q s.dev.mem.bytes) (hS : S → s.dev.ev.Bound) :
    State.Kept S Q s s' :=
  act_state_kept e (fun _ _ h => assocAnswer_kept hq h) hQ hS

theorem execSuperframeBoundary_kept {t : Time} (hq : MemClosed Q) (e : execSuperframeBoundary t s = .next s') (hQ : Q s.dev.mem.bytes) (hS : S → s.dev.ev.Bound) :
    State.Kept S Q s s' :=
  act_state_kept e (fun _ _ h => superframeBoundary_kept hq h) hQ hS

theorem execOpenMapWrite_kept {t : Time} {b : Band} {v : Word} (e : execOpenMapWrite t b v s = .next s') (hQ : Q s.dev.mem.bytes) (hS : S → s.dev.ev.Bound) :
    State.Kept S Q s s' :=
  act_state_kept e (fun _ _ h => openMapWrite_kept h) hQ hS

theorem execPlanCommit_kept {t : Time} {sfAhead : BitVec 8} (e : execPlanCommit t sfAhead s = .next s') (hQ : Q s.dev.mem.bytes) (hS : S → s.dev.ev.Bound) :
    State.Kept S Q s s' :=
  act_state_kept e (fun _ _ h => planCommit_kept h) hQ hS

theorem execDutyBucketRoll_kept {t : Time} (e : execDutyBucketRoll t s = .next s') (hQ : Q s.dev.mem.bytes) (hS : S → s.dev.ev.Bound) :
    State.Kept S Q s s' :=
  act_state_kept e (fun _ _ h => dutyBucketRoll_kept h) hQ hS

theorem execProfileSwitchGo_kept {t : Time} {p : Fin 16} {countdown : BitVec 6} (e : execProfileSwitchGo t p countdown s = .next s') (hQ : Q s.dev.mem.bytes) (hS : S → s.dev.ev.Bound) :
    State.Kept S Q s s' :=
  act_state_kept e (fun _ _ h => profileSwitchGo_kept h) hQ hS

theorem execProfileSwitchCancel_kept {t : Time} (e : execProfileSwitchCancel t s = .next s') (hQ : Q s.dev.mem.bytes) (hS : S → s.dev.ev.Bound) :
    State.Kept S Q s s' :=
  act_state_kept e (fun _ _ h => profileSwitchCancel_kept h) hQ hS

theorem execBellMatch_kept {t : Time} {code : Word} (e : execBellMatch t code s = .next s') (hQ : Q s.dev.mem.bytes) (hS : S → s.dev.ev.Bound) :
    State.Kept S Q s s' :=
  act_state_kept e (fun _ _ h => bellMatch_kept h) hQ hS

theorem execParentWindowClose_kept {t : Time} (e : execParentWindowClose t s = .next s') (hQ : Q s.dev.mem.bytes) (hS : S → s.dev.ev.Bound) :
    State.Kept S Q s s' :=
  act_state_kept e (fun _ _ h => parentWindowClose_kept h) hQ hS

theorem execPacketEntry_kept {t : Time} {inj : Option Injection} (e : execPacketEntry t inj s = .next s') (hQ : Q s.dev.mem.bytes) (hS : S → s.dev.ev.Bound) :
    State.Kept S Q s s' :=
  act_state_kept e (fun _ _ h => packetEntry_kept h) hQ hS

theorem execRecircEntry_kept {t : Time} (e : execRecircEntry t s = .next s') (hQ : Q s.dev.mem.bytes) (hS : S → s.dev.ev.Bound) :
    State.Kept S Q s s' :=
  act_state_kept e (fun _ _ h => recircEntry_kept h) hQ hS

theorem execPassResolve_kept {t : Time} (e : execPassResolve t s = .next s') (hQ : Q s.dev.mem.bytes) (hS : S → s.dev.ev.Bound) :
    State.Kept S Q s s' :=
  act_state_kept e (fun _ _ h => passResolve_kept h) hQ hS

theorem execLearnPop_kept {t : Time} (e : execLearnPop t s = .next s') (hQ : Q s.dev.mem.bytes) (hS : S → s.dev.ev.Bound) :
    State.Kept S Q s s' :=
  act_state_kept e (fun _ _ h => learnPop_kept h) hQ hS

theorem execTblRead_kept {t : Time} {tbl : Fin 4} {index : BitVec 15} (e : execTblRead t tbl index s = .next s') (hQ : Q s.dev.mem.bytes) (hS : S → s.dev.ev.Bound) :
    State.Kept S Q s s' :=
  act_state_kept e (fun _ _ h => tblRead_kept h) hQ hS

theorem execTblWrite_kept {t : Time} {tbl : Fin 4} {index : BitVec 15} (e : execTblWrite t tbl index s = .next s') (hQ : Q s.dev.mem.bytes) (hS : S → s.dev.ev.Bound) :
    State.Kept S Q s s' :=
  act_state_kept e (fun _ _ h => tblWrite_kept h) hQ hS

theorem execTblClear_kept {t : Time} {tbl : Fin 4} {index : BitVec 15} (e : execTblClear t tbl index s = .next s') (hQ : Q s.dev.mem.bytes) (hS : S → s.dev.ev.Bound) :
    State.Kept S Q s s' :=
  act_state_kept e (fun _ _ h => tblClear_kept h) hQ hS

theorem execTblHash_kept {t : Time} {tbl : Fin 4} (e : execTblHash t tbl s = .next s') (hQ : Q s.dev.mem.bytes) (hS : S → s.dev.ev.Bound) :
    State.Kept S Q s s' :=
  act_state_kept e (fun _ _ h => tblHash_kept h) hQ hS

theorem execGenCommit_kept {t : Time} (e : execGenCommit t s = .next s') (hQ : Q s.dev.mem.bytes) (hS : S → s.dev.ev.Bound) :
    State.Kept S Q s s' :=
  act_state_kept e (fun _ _ h => genCommit_kept h) hQ hS

theorem execGenCommitProceed_kept {t : Time} (e : execGenCommitProceed t s = .next s') (hQ : Q s.dev.mem.bytes) (hS : S → s.dev.ev.Bound) :
    State.Kept S Q s s' :=
  act_state_kept e (fun _ _ h => genCommitProceed_kept h) hQ hS

theorem execGenDrainTimeout_kept {t : Time} (e : execGenDrainTimeout t s = .next s') (hQ : Q s.dev.mem.bytes) (hS : S → s.dev.ev.Bound) :
    State.Kept S Q s s' :=
  act_state_kept e (fun _ _ h => genDrainTimeout_kept h) hQ hS

theorem execPortSelect_kept {t : Time} {p : Fin 9} (e : execPortSelect t p s = .next s') (hQ : Q s.dev.mem.bytes) (hS : S → s.dev.ev.Bound) :
    State.Kept S Q s s' :=
  act_state_kept e (fun _ _ h => portSelect_kept h) hQ hS

theorem execPortFrameEnd_kept {t : Time} {p : Fin 9} (e : execPortFrameEnd t p s = .next s') (hQ : Q s.dev.mem.bytes) (hS : S → s.dev.ev.Bound) :
    State.Kept S Q s s' :=
  act_state_kept e (fun _ _ h => portFrameEnd_kept h) hQ hS

theorem execGateEntryChange_kept {t : Time} {e : Fin 6} (e : execGateEntryChange t e s = .next s') (hQ : Q s.dev.mem.bytes) (hS : S → s.dev.ev.Bound) :
    State.Kept S Q s s' :=
  act_state_kept e (fun _ _ h => gateEntryChange_kept h) hQ hS

theorem execGateDataWrite_kept {t : Time} {v : Word} (e : execGateDataWrite t v s = .next s') (hQ : Q s.dev.mem.bytes) (hS : S → s.dev.ev.Bound) :
    State.Kept S Q s s' :=
  act_state_kept e (fun _ _ h => gateDataWrite_kept h) hQ hS

theorem execGateSwap_kept {t : Time} {e : Fin 6} (e : execGateSwap t e s = .next s') (hQ : Q s.dev.mem.bytes) (hS : S → s.dev.ev.Bound) :
    State.Kept S Q s s' :=
  act_state_kept e (fun _ _ h => gateSwap_kept h) hQ hS

theorem execMeterWrite_kept {t : Time} {colourAware : Bool} {yellowDp : BitVec 2} (e : execMeterWrite t colourAware yellowDp s = .next s') (hQ : Q s.dev.mem.bytes) (hS : S → s.dev.ev.Bound) :
    State.Kept S Q s s' :=
  act_state_kept e (fun _ _ h => meterWrite_kept h) hQ hS

theorem execMeterRead_kept {t : Time} (e : execMeterRead t s = .next s') (hQ : Q s.dev.mem.bytes) (hS : S → s.dev.ev.Bound) :
    State.Kept S Q s s' :=
  act_state_kept e (fun _ _ h => meterRead_kept h) hQ hS

theorem execEthFrameRx_kept {t : Time} {e : Fin 6} {data : Bytes} (e : execEthFrameRx t e data s = .next s') (hQ : Q s.dev.mem.bytes) (hS : S → s.dev.ev.Bound) :
    State.Kept S Q s s' :=
  act_state_kept e (fun _ _ h => ethFrameRx_kept h) hQ hS

theorem execLinkUpChange_kept {t : Time} {e : Fin 6} {blockLock hiBer localFault remoteFault : Bool} (e : execLinkUpChange t e blockLock hiBer localFault remoteFault s = .next s') (hQ : Q s.dev.mem.bytes) (hS : S → s.dev.ev.Bound) :
    State.Kept S Q s s' :=
  act_state_kept e (fun _ _ h => linkUpChange_kept h) hQ hS

theorem execRngBringupStart_kept {t : Time} (e : execRngBringupStart t s = .next s') (hQ : Q s.dev.mem.bytes) (hS : S → s.dev.ev.Bound) :
    State.Kept S Q s s' :=
  act_state_kept e (fun _ _ h => rngBringupStart_kept h) hQ hS

theorem execRngTrainTimeout_kept {t : Time} (e : execRngTrainTimeout t s = .next s') (hQ : Q s.dev.mem.bytes) (hS : S → s.dev.ev.Bound) :
    State.Kept S Q s s' :=
  act_state_kept e (fun _ _ h => rngTrainTimeout_kept h) hQ hS

theorem execRngCheckEnd_kept {t : Time} {errs6 errs7 : Nat} (e : execRngCheckEnd t errs6 errs7 s = .next s') (hQ : Q s.dev.mem.bytes) (hS : S → s.dev.ev.Bound) :
    State.Kept S Q s s' :=
  act_state_kept e (fun _ _ h => rngCheckEnd_kept h) hQ hS

theorem execRngStepResult_kept {t : Time} (e : execRngStepResult t s = .next s') (hQ : Q s.dev.mem.bytes) (hS : S → s.dev.ev.Bound) :
    State.Kept S Q s s' :=
  act_state_kept e (fun _ _ h => rngStepResult_kept h) hQ hS

theorem execRngRetryExpiry_kept {t : Time} (e : execRngRetryExpiry t s = .next s') (hQ : Q s.dev.mem.bytes) (hS : S → s.dev.ev.Bound) :
    State.Kept S Q s s' :=
  act_state_kept e (fun _ _ h => rngRetryExpiry_kept h) hQ hS

theorem execRngLinkDown_kept {t : Time} {block6 hiBer6 block7 hiBer7 : Bool} (e : execRngLinkDown t block6 hiBer6 block7 hiBer7 s = .next s') (hQ : Q s.dev.mem.bytes) (hS : S → s.dev.ev.Bound) :
    State.Kept S Q s s' :=
  act_state_kept e (fun _ _ h => rngLinkDown_kept h) hQ hS

theorem execRngRetrainCmd_kept {t : Time} (e : execRngRetrainCmd t s = .next s') (hQ : Q s.dev.mem.bytes) (hS : S → s.dev.ev.Bound) :
    State.Kept S Q s s' :=
  act_state_kept e (fun _ _ h => rngRetrainCmd_kept h) hQ hS

theorem execRngFrameRx_kept {t : Time} {data : Bytes} (hq : MemClosed Q) (e : execRngFrameRx t data s = .next s') (hQ : Q s.dev.mem.bytes) (hS : S → s.dev.ev.Bound) :
    State.Kept S Q s s' :=
  act_state_kept e (fun _ _ h => rngFrameRx_kept hq h) hQ hS

theorem execRngIdleEntry_kept {t : Time} (e : execRngIdleEntry t s = .next s') (hQ : Q s.dev.mem.bytes) (hS : S → s.dev.ev.Bound) :
    State.Kept S Q s s' :=
  act_state_kept e (fun _ _ h => rngIdleEntry_kept h) hQ hS

theorem execKeepaliveTimer_kept {t : Time} (e : execKeepaliveTimer t s = .next s') (hQ : Q s.dev.mem.bytes) (hS : S → s.dev.ev.Bound) :
    State.Kept S Q s s' :=
  act_state_kept e (fun _ _ h => keepaliveTimer_kept h) hQ hS

theorem execMirrorRetxTimeout_kept {t : Time} {ch : Fin 6} (e : execMirrorRetxTimeout t ch s = .next s') (hQ : Q s.dev.mem.bytes) (hS : S → s.dev.ev.Bound) :
    State.Kept S Q s s' :=
  act_state_kept e (fun _ _ h => mirrorRetxTimeout_kept h) hQ hS

theorem execLaneTestWrite_kept {t : Time} {lane : Fin 8} {v : Word} (e : execLaneTestWrite t lane v s = .next s') (hQ : Q s.dev.mem.bytes) (hS : S → s.dev.ev.Bound) :
    State.Kept S Q s s' :=
  act_state_kept e (fun _ _ h => laneTestWrite_kept h) hQ hS

theorem execTsPop_kept {t : Time} (e : execTsPop t s = .next s') (hQ : Q s.dev.mem.bytes) (hS : S → s.dev.ev.Bound) :
    State.Kept S Q s s' :=
  act_state_kept e (fun _ _ h => tsPop_kept h) hQ hS

theorem execPpsEdge_kept {t : Time} {falling : Bool} (e : execPpsEdge t falling s = .next s') (hQ : Q s.dev.mem.bytes) (hS : S → s.dev.ev.Bound) :
    State.Kept S Q s s' :=
  act_state_kept e (fun _ _ h => ppsEdge_kept h) hQ hS

theorem execNmeaSentence_kept {t : Time} {text : Bytes} (e : execNmeaSentence t text s = .next s') (hQ : Q s.dev.mem.bytes) (hS : S → s.dev.ev.Bound) :
    State.Kept S Q s s' :=
  act_state_kept e (fun _ _ h => nmeaSentence_kept h) hQ hS

theorem execDomFeed_kept {t : Time} {x : RefDom} {hi : Word} (e : execDomFeed t x hi s = .next s') (hQ : Q s.dev.mem.bytes) (hS : S → s.dev.ev.Bound) :
    State.Kept S Q s s' :=
  act_state_kept e (fun _ _ h => domFeed_kept h) hQ hS

theorem execDomainLossTimeout_kept {t : Time} {x : RefDom} (e : execDomainLossTimeout t x s = .next s') (hQ : Q s.dev.mem.bytes) (hS : S → s.dev.ev.Bound) :
    State.Kept S Q s s' :=
  act_state_kept e (fun _ _ h => domainLossTimeout_kept h) hQ hS

theorem execRevertTimer_kept {t : Time} (e : execRevertTimer t s = .next s') (hQ : Q s.dev.mem.bytes) (hS : S → s.dev.ev.Bound) :
    State.Kept S Q s s' :=
  act_state_kept e (fun _ _ h => revertTimer_kept h) hQ hS

theorem execTimeGateTimeout_kept {t : Time} (e : execTimeGateTimeout t s = .next s') (hQ : Q s.dev.mem.bytes) (hS : S → s.dev.ev.Bound) :
    State.Kept S Q s s' :=
  act_state_kept e (fun _ _ h => timeGateTimeout_kept h) hQ hS

theorem execRtcSecondWrite_kept {t : Time} (e : execRtcSecondWrite t s = .next s') (hQ : Q s.dev.mem.bytes) (hS : S → s.dev.ev.Bound) :
    State.Kept S Q s s' :=
  act_state_kept e (fun _ _ h => rtcSecondWrite_kept h) hQ hS

theorem execDramRequest_kept {t : Time} {req addr : Nat} {keepOpen : Bool} {data : Option Bytes} (e : execDramRequest t req addr keepOpen data s = .next s') (hQ : Q s.dev.mem.bytes) (hS : S → s.dev.ev.Bound) :
    State.Kept S Q s s' :=
  act_state_kept e (fun _ _ h => dramRequest_kept h) hQ hS

theorem execRowCloseTimeout_kept {t : Time} {ch : Fin 2} {bank : Fin 8} (e : execRowCloseTimeout t ch bank s = .next s') (hQ : Q s.dev.mem.bytes) (hS : S → s.dev.ev.Bound) :
    State.Kept S Q s s' :=
  act_state_kept e (fun _ _ h => rowCloseTimeout_kept h) hQ hS

theorem execRefreshDue_kept {t : Time} {ch : Fin 2} (e : execRefreshDue t ch s = .next s') (hQ : Q s.dev.mem.bytes) (hS : S → s.dev.ev.Bound) :
    State.Kept S Q s s' :=
  act_state_kept e (fun _ _ h => refreshDue_kept h) hQ hS

theorem execSelfRefreshEntry_kept {t : Time} {ch : Fin 2} (e : execSelfRefreshEntry t ch s = .next s') (hQ : Q s.dev.mem.bytes) (hS : S → s.dev.ev.Bound) :
    State.Kept S Q s s' :=
  act_state_kept e (fun _ _ h => selfRefreshEntry_kept h) hQ hS

theorem execSramScrub_kept {t : Time} {blk : Fin 7} {sub : Band} {word : Nat} {r : EccOutcome} (e : execSramScrub t blk sub word r s = .next s') (hQ : Q s.dev.mem.bytes) (hS : S → s.dev.ev.Bound) :
    State.Kept S Q s s' :=
  act_state_kept e (fun _ _ h => sramScrub_kept h) hQ hS

theorem execCvStart_kept {t : Time} {req : Nat} {n : Fin 4} (e : execCvStart t req n s = .next s') (hQ : Q s.dev.mem.bytes) (hS : S → s.dev.ev.Bound) :
    State.Kept S Q s s' :=
  act_state_kept e (fun _ _ h => cvStart_kept h) hQ hS

theorem execCvData_kept {t : Time} {req : Nat} {n : Fin 4} {v : Word} (e : execCvData t req n v s = .next s') (hQ : Q s.dev.mem.bytes) (hS : S → s.dev.ev.Bound) :
    State.Kept S Q s s' :=
  act_state_kept e (fun _ _ h => cvData_kept h) hQ hS

theorem execCvStateWrite_kept {t : Time} {req : Nat} {n : Fin 4} {hi : Word} (e : execCvStateWrite t req n hi s = .next s') (hQ : Q s.dev.mem.bytes) (hS : S → s.dev.ev.Bound) :
    State.Kept S Q s s' :=
  act_state_kept e (fun _ _ h => cvStateWrite_kept h) hQ hS

theorem execDomainReady_kept {t : Time} {n : Fin 10} (hq : MemClosed Q) (e : execDomainReady t n s = .next s') (hQ : Q s.dev.mem.bytes) (hS : S → s.dev.ev.Bound) :
    State.Kept S Q s s' :=
  act_state_kept e (fun _ _ h => domainReady_kept hq h) hQ hS

theorem execReloadCmd_kept {t : Time} {mask : BitVec 10} (hq : MemClosed Q) (e : execReloadCmd t mask s = .next s') (hQ : Q s.dev.mem.bytes) (hS : S → s.dev.ev.Bound) :
    State.Kept S Q s s' :=
  act_state_kept e (fun _ _ h => reloadCmd_kept hq h) hQ hS

theorem execReloadComplete_kept {t : Time} (e : execReloadComplete t s = .next s') (hQ : Q s.dev.mem.bytes) (hS : S → s.dev.ev.Bound) :
    State.Kept S Q s s' :=
  act_state_kept e (fun _ _ h => reloadComplete_kept h) hQ hS

theorem execReloadFail_kept {t : Time} {n : Fin 10} (hq : MemClosed Q) (e : execReloadFail t n s = .next s') (hQ : Q s.dev.mem.bytes) (hS : S → s.dev.ev.Bound) :
    State.Kept S Q s s' :=
  act_state_kept e (fun _ _ h => reloadFail_kept hq h) hQ hS

theorem execVinRise_kept {t : Time} {mv : Nat} (hq : MemClosed Q) (e : execVinRise t mv s = .next s') (hQ : Q s.dev.mem.bytes) (hS : S → s.dev.ev.Bound) :
    State.Kept S Q s s' :=
  act_state_kept e (fun _ _ h => vinRise_kept hq h) hQ hS

theorem execRailStep_kept {t : Time} {inRegulation : Bool} (e : execRailStep t inRegulation s = .next s') (hQ : Q s.dev.mem.bytes) (hS : S → s.dev.ev.Bound) :
    State.Kept S Q s s' :=
  act_state_kept e (fun _ _ h => railStep_kept h) hQ hS

theorem execRailFaultRetry_kept {t : Time} (e : execRailFaultRetry t s = .next s') (hQ : Q s.dev.mem.bytes) (hS : S → s.dev.ev.Bound) :
    State.Kept S Q s s' :=
  act_state_kept e (fun _ _ h => railFaultRetry_kept h) hQ hS

theorem execResetAssert_kept {t : Time} (hq : MemClosed Q) (e : execResetAssert t s = .next s') (hQ : Q s.dev.mem.bytes) (hS : S → s.dev.ev.Bound) :
    State.Kept S Q s s' :=
  act_state_kept e (fun _ _ h => resetAssert_kept hq h) hQ hS

theorem execResetRelease_kept {t : Time} (hq : MemClosed Q) (e : execResetRelease t s = .next s') (hQ : Q s.dev.mem.bytes) (hS : S → s.dev.ev.Bound) :
    State.Kept S Q s s' :=
  act_state_kept e (fun _ _ h => resetRelease_kept hq h) hQ hS

theorem execBringUp_kept {t : Time} {runs : List TrainRun} (hq : MemClosed Q) (e : execBringUp t runs s = .next s') (hQ : Q s.dev.mem.bytes) (hS : S → s.dev.ev.Bound) :
    State.Kept S Q s s' :=
  act_state_kept e (fun _ _ h => bringUp_kept hq h) hQ hS

theorem execStartLimitExpiry_kept {t : Time} {n : Fin 10} (hq : MemClosed Q) (e : execStartLimitExpiry t n s = .next s') (hQ : Q s.dev.mem.bytes) (hS : S → s.dev.ev.Bound) :
    State.Kept S Q s s' :=
  act_state_kept e (fun _ _ h => startLimitExpiry_kept hq h) hQ hS

theorem execStartWaitExpiry_kept {t : Time} (e : execStartWaitExpiry t s = .next s') (hQ : Q s.dev.mem.bytes) (hS : S → s.dev.ev.Bound) :
    State.Kept S Q s s' :=
  act_state_kept e (fun _ _ h => startWaitExpiry_kept h) hQ hS

theorem execHbPatternClassify_kept {t : Time} {h1 h2 h3 : Time} (e : execHbPatternClassify t h1 h2 h3 s = .next s') (hQ : Q s.dev.mem.bytes) (hS : S → s.dev.ev.Bound) :
    State.Kept S Q s s' :=
  act_state_kept e (fun _ _ h => hbPatternClassify_kept h) hQ hS

theorem execHeartbeatLoss_kept {t : Time} (e : execHeartbeatLoss t s = .next s') (hQ : Q s.dev.mem.bytes) (hS : S → s.dev.ev.Bound) :
    State.Kept S Q s s' :=
  act_state_kept e (fun _ _ h => heartbeatLoss_kept h) hQ hS

theorem execHeartbeatReturn_kept {t : Time} (e : execHeartbeatReturn t s = .next s') (hQ : Q s.dev.mem.bytes) (hS : S → s.dev.ev.Bound) :
    State.Kept S Q s s' :=
  act_state_kept e (fun _ _ h => heartbeatReturn_kept h) hQ hS

theorem execHandoverCmd_kept {t : Time} {sfAhead : BitVec 8} (e : execHandoverCmd t sfAhead s = .next s') (hQ : Q s.dev.mem.bytes) (hS : S → s.dev.ev.Bound) :
    State.Kept S Q s s' :=
  act_state_kept e (fun _ _ h => handoverCmd_kept h) hQ hS

theorem execForceCmd_kept {t : Time} (e : execForceCmd t s = .next s') (hQ : Q s.dev.mem.bytes) (hS : S → s.dev.ev.Bound) :
    State.Kept S Q s s' :=
  act_state_kept e (fun _ _ h => forceCmd_kept h) hQ hS

theorem execLampChange_kept {t : Time} (hq : MemClosed Q) (e : execLampChange t s = .next s') (hQ : Q s.dev.mem.bytes) (hS : S → s.dev.ev.Bound) :
    State.Kept S Q s s' :=
  act_state_kept e (fun _ _ h => lampChange_kept hq h) hQ hS

theorem execPwrRequestEclipse_kept {t : Time} (e : execPwrRequestEclipse t s = .next s') (hQ : Q s.dev.mem.bytes) (hS : S → s.dev.ev.Bound) :
    State.Kept S Q s s' :=
  act_state_kept e (fun _ _ h => pwrRequest_kept h) hQ hS

theorem execPwrRequestDeepEclipse_kept {t : Time} (e : execPwrRequestDeepEclipse t s = .next s') (hQ : Q s.dev.mem.bytes) (hS : S → s.dev.ev.Bound) :
    State.Kept S Q s s' :=
  act_state_kept e (fun _ _ h => pwrRequest_kept h) hQ hS

theorem execPwrRequestMoored_kept {t : Time} (e : execPwrRequestMoored t s = .next s') (hQ : Q s.dev.mem.bytes) (hS : S → s.dev.ev.Bound) :
    State.Kept S Q s s' :=
  act_state_kept e (fun _ _ h => pwrRequest_kept h) hQ hS

theorem execPwrRequestAccept_kept {t : Time} (e : execPwrRequestAccept t s = .next s') (hQ : Q s.dev.mem.bytes) (hS : S → s.dev.ev.Bound) :
    State.Kept S Q s s' :=
  act_state_kept e (fun _ _ h => pwrRequestAccept_kept h) hQ hS

theorem execEntryComplete_kept {t : Time} (hq : MemClosed Q) (e : execEntryComplete t s = .next s') (hQ : Q s.dev.mem.bytes) (hS : S → s.dev.ev.Bound) :
    State.Kept S Q s s' :=
  act_state_kept e (fun _ _ h => entryComplete_kept hq h) hQ hS

theorem execSequencerTick_kept {t : Time} {vinMv : Nat} {temp : BitVec 16} (e : execSequencerTick t vinMv temp s = .next s') (hQ : Q s.dev.mem.bytes) (hS : S → s.dev.ev.Bound) :
    State.Kept S Q s s' :=
  act_state_kept e (fun _ _ h => sequencerTick_kept h) hQ hS

theorem execRtcAlarm_kept {t : Time} (e : execRtcAlarm t s = .next s') (hQ : Q s.dev.mem.bytes) (hS : S → s.dev.ev.Bound) :
    State.Kept S Q s s' :=
  act_state_kept e (fun _ _ h => rtcAlarm_kept h) hQ hS

theorem execWakeExit_kept {t : Time} {runs : List TrainRun} (hq : MemClosed Q) (e : execWakeExit t runs s = .next s') (hQ : Q s.dev.mem.bytes) (hS : S → s.dev.ev.Bound) :
    State.Kept S Q s s' :=
  act_state_kept e (fun _ _ h => wakeExit_kept hq h) hQ hS

theorem execPadRelease_kept {t : Time} {groups : BitVec 4} (e : execPadRelease t groups s = .next s') (hQ : Q s.dev.mem.bytes) (hS : S → s.dev.ev.Bound) :
    State.Kept S Q s s' :=
  act_state_kept e (fun _ _ h => rowpadRelease_kept h) hQ hS

theorem execGpioDebounce_kept {t : Time} {pin : Fin 16} {level : Bool} {since : Time} (e : execGpioDebounce t pin level since s = .next s') (hQ : Q s.dev.mem.bytes) (hS : S → s.dev.ev.Bound) :
    State.Kept S Q s s' :=
  act_state_kept e (fun _ _ h => gpioDebounce_kept h) hQ hS

theorem execGpioChatterCheck_kept {t : Time} {pin : Fin 16} {transitions : Nat} (e : execGpioChatterCheck t pin transitions s = .next s') (hQ : Q s.dev.mem.bytes) (hS : S → s.dev.ev.Bound) :
    State.Kept S Q s s' :=
  act_state_kept e (fun _ _ h => gpioChatterCheck_kept h) hQ hS

theorem execGpioReassess_kept {t : Time} {pin : Fin 16} {transitions : Nat} (e : execGpioReassess t pin transitions s = .next s') (hQ : Q s.dev.mem.bytes) (hS : S → s.dev.ev.Bound) :
    State.Kept S Q s s' :=
  act_state_kept e (fun _ _ h => gpioReassess_kept h) hQ hS

theorem execGpioStuck_kept {t : Time} {pin : Fin 16} (e : execGpioStuck t pin s = .next s') (hQ : Q s.dev.mem.bytes) (hS : S → s.dev.ev.Bound) :
    State.Kept S Q s s' :=
  act_state_kept e (fun _ _ h => gpioStuck_kept h) hQ hS

theorem execSpoolWrite_kept {t : Time} (hq : MemClosed Q) (e : execSpoolWrite t s = .next s') (hQ : Q s.dev.mem.bytes) (hS : S → s.dev.ev.Bound) :
    State.Kept S Q s s' :=
  act_state_kept e (fun _ _ h => spoolWrite_kept hq h) hQ hS

theorem execSpoolAckRx_kept {t : Time} {data : Bytes} (e : execSpoolAckRx t data s = .next s') (hQ : Q s.dev.mem.bytes) (hS : S → s.dev.ev.Bound) :
    State.Kept S Q s s' :=
  act_state_kept e (fun _ _ h => spoolAckRx_kept h) hQ hS

theorem execSpoolFwdTimeout_kept {t : Time} (e : execSpoolFwdTimeout t s = .next s') (hQ : Q s.dev.mem.bytes) (hS : S → s.dev.ev.Bound) :
    State.Kept S Q s s' :=
  act_state_kept e (fun _ _ h => spoolFwdTimeout_kept h) hQ hS

theorem execGeoFixTimeout_kept {t : Time} (e : execGeoFixTimeout t s = .next s') (hQ : Q s.dev.mem.bytes) (hS : S → s.dev.ev.Bound) :
    State.Kept S Q s s' :=
  act_state_kept e (fun _ _ h => geoFixTimeout_kept h) hQ hS

theorem execPtpSyncComplete_kept {t : Time} {e : Fin 6} {offset : Int} (e : execPtpSyncComplete t e offset s = .next s') (hQ : Q s.dev.mem.bytes) (hS : S → s.dev.ev.Bound) :
    State.Kept S Q s s' :=
  act_state_kept e (fun _ _ h => ptpSyncComplete_kept h) hQ hS

theorem execMgmtRx_kept {t : Time} {m : Datagram} (e : execMgmtRx t m s = .next s') (hQ : Q s.dev.mem.bytes) (hS : S → s.dev.ev.Bound) :
    State.Kept S Q s s' :=
  act_state_kept e (fun _ _ h => mgmtRx_kept h) hQ hS

theorem execHello_kept {t : Time} (e : execHello t s = .next s') (hQ : Q s.dev.mem.bytes) (hS : S → s.dev.ev.Bound) :
    State.Kept S Q s s' :=
  act_state_kept e (fun _ _ h => mgHello_kept h) hQ hS

theorem execRead_kept {t : Time} (e : execRead t s = .next s') (hQ : Q s.dev.mem.bytes) (hS : S → s.dev.ev.Bound) :
    State.Kept S Q s s' :=
  act_state_kept e (fun _ _ h => mgmtRun_kept (fun _ _ h => mgRead_kept h) h) hQ hS

theorem execWriteGuarded_kept {t : Time} (hq : MemClosed Q) (e : execWriteGuarded t s = .next s') (hQ : Q s.dev.mem.bytes) (hS : S → s.dev.ev.Bound) :
    State.Kept S Q s s' :=
  act_state_kept e (fun _ _ h => mgmtRun_kept (fun _ _ h => mgWrite_kept hq h) h) hQ hS

theorem execStageBegin_kept {t : Time} (e : execStageBegin t s = .next s') (hQ : Q s.dev.mem.bytes) (hS : S → s.dev.ev.Bound) :
    State.Kept S Q s s' :=
  act_state_kept e (fun _ _ h => mgmtRun_kept (fun _ _ h => mgStageBegin_kept h) h) hQ hS

theorem execStageData_kept {t : Time} (e : execStageData t s = .next s') (hQ : Q s.dev.mem.bytes) (hS : S → s.dev.ev.Bound) :
    State.Kept S Q s s' :=
  act_state_kept e (fun _ _ h => mgmtRun_kept (fun _ _ h => mgStageData_kept h) h) hQ hS

theorem execStageEnd_kept {t : Time} (e : execStageEnd t s = .next s') (hQ : Q s.dev.mem.bytes) (hS : S → s.dev.ev.Bound) :
    State.Kept S Q s s' :=
  act_state_kept e (fun _ _ h => mgmtRun_kept (fun _ _ h => mgStageEnd_kept h) h) hQ hS

theorem execReload_kept {t : Time} (hq : MemClosed Q) (e : execReload t s = .next s') (hQ : Q s.dev.mem.bytes) (hS : S → s.dev.ev.Bound) :
    State.Kept S Q s s' :=
  act_state_kept e (fun _ _ h => mgmtRun_kept (fun _ _ h => mgReload_kept hq h) h) hQ hS

theorem execLadder_kept {t : Time} (e : execLadder t s = .next s') (hQ : Q s.dev.mem.bytes) (hS : S → s.dev.ev.Bound) :
    State.Kept S Q s s' :=
  act_state_kept e (fun _ _ h => mgmtRun_kept (fun _ _ h => mgLadder_kept h) h) hQ hS

theorem execLogRead_kept {t : Time} (e : execLogRead t s = .next s') (hQ : Q s.dev.mem.bytes) (hS : S → s.dev.ev.Bound) :
    State.Kept S Q s s' :=
  act_state_kept e (fun _ _ h => mgmtRun_kept (fun _ _ h => mgLogRead_kept h) h) hQ hS

theorem execCharRead_kept {t : Time} (e : execCharRead t s = .next s') (hQ : Q s.dev.mem.bytes) (hS : S → s.dev.ev.Bound) :
    State.Kept S Q s s' :=
  act_state_kept e (fun _ _ h => mgmtRun_kept (fun _ _ h => mgCharRead_kept h) h) hQ hS

theorem execRestart_kept {t : Time} (e : execRestart t s = .next s') (hQ : Q s.dev.mem.bytes) (hS : S → s.dev.ev.Bound) :
    State.Kept S Q s s' :=
  act_state_kept e (fun _ _ h => mgmtRun_kept (fun _ _ h => mgRestart_kept h) h) hQ hS

theorem execEvPendClear_kept {t : Time} {i : Fin 8} {v : Word} (e : execEvPendClear t i v s = .next s') (hQ : Q s.dev.mem.bytes) (hS : S → s.dev.ev.Bound) :
    State.Kept S Q s s' :=
  act_state_kept e (fun _ _ h => evPendClear_kept h) hQ hS

theorem execEvOccRead_kept {t : Time} (e : execEvOccRead t s = .next s') (hQ : Q s.dev.mem.bytes) (hS : S → s.dev.ev.Bound) :
    State.Kept S Q s s' :=
  act_state_kept e (fun _ _ h => evOccRead_kept h) hQ hS

theorem execEvPop_kept {t : Time} (e : execEvPop t s = .next s') (hQ : Q s.dev.mem.bytes) (hS : S → s.dev.ev.Bound) :
    State.Kept S Q s s' :=
  act_state_kept e (fun _ _ h => evPop_kept h) hQ hS

theorem execLogCommit_kept {t : Time} (e : execLogCommit t s = .next s') (hQ : Q s.dev.mem.bytes) (hS : S → s.dev.ev.Bound) :
    State.Kept S Q s s' :=
  act_state_kept e (fun _ _ h => logCommit_kept h) hQ hS

theorem execLogCommitDone_kept {t : Time} (e : execLogCommitDone t s = .next s') (hQ : Q s.dev.mem.bytes) (hS : S → s.dev.ev.Bound) :
    State.Kept S Q s s' :=
  act_state_kept e (fun _ _ h => logCommitDone_kept h) hQ hS

theorem execLogSecondEnd_kept {t : Time} (e : execLogSecondEnd t s = .next s') (hQ : Q s.dev.mem.bytes) (hS : S → s.dev.ev.Bound) :
    State.Kept S Q s s' :=
  act_state_kept e (fun _ _ h => logSecondEnd_kept h) hQ hS

theorem execBrownout_kept {t : Time} {vinMv : Nat} (hq : MemClosed Q) (e : execBrownout t vinMv s = .next s') (hQ : Q s.dev.mem.bytes) (hS : S → s.dev.ev.Bound) :
    State.Kept S Q s s' :=
  act_state_kept e (fun _ _ h => brownout_kept hq h) hQ hS

theorem execMooringPowerLoss_kept {t : Time} (hq : MemClosed Q) (e : execMooringPowerLoss t s = .next s') (hQ : Q s.dev.mem.bytes) (hS : S → s.dev.ev.Bound) :
    State.Kept S Q s s' :=
  act_state_kept e (fun _ _ h => mooringPowerLoss_kept hq h) hQ hS

theorem execWatchKick_kept {t : Time} {mask : BitVec 16} (e : execWatchKick t mask s = .next s') (hQ : Q s.dev.mem.bytes) (hS : S → s.dev.ev.Bound) :
    State.Kept S Q s s' :=
  act_state_kept e (fun _ _ h => watchKick_kept h) hQ hS

theorem execWatchExpiry_kept {t : Time} {w : Fin 16} (e : execWatchExpiry t w s = .next s') (hQ : Q s.dev.mem.bytes) (hS : S → s.dev.ev.Bound) :
    State.Kept S Q s s' :=
  act_state_kept e (fun _ _ h => watchExpiry_kept h) hQ hS

theorem execLadderStep_kept {t : Time} {d : Fin 10} (hq : MemClosed Q) (e : execLadderStep t d s = .next s') (hQ : Q s.dev.mem.bytes) (hS : S → s.dev.ev.Bound) :
    State.Kept S Q s s' :=
  act_state_kept e (fun _ _ h => ladderStep_kept hq h) hQ hS

theorem execLadderDeadline_kept {t : Time} {d : Fin 10} (e : execLadderDeadline t d s = .next s') (hQ : Q s.dev.mem.bytes) (hS : S → s.dev.ev.Bound) :
    State.Kept S Q s s' :=
  act_state_kept e (fun _ _ h => ladderDeadline_kept h) hQ hS

theorem execLadderRequest_kept {t : Time} {d step : Nat} (e : execLadderRequest t d step s = .next s') (hQ : Q s.dev.mem.bytes) (hS : S → s.dev.ev.Bound) :
    State.Kept S Q s s' :=
  act_state_kept e (fun _ _ h => ladderRequest_kept h) hQ hS

theorem execLadderHaltClear_kept {t : Time} (e : execLadderHaltClear t s = .next s') (hQ : Q s.dev.mem.bytes) (hS : S → s.dev.ev.Bound) :
    State.Kept S Q s s' :=
  act_state_kept e (fun _ _ h => ladderHaltClear_kept h) hQ hS

theorem execExtest_kept {t : Time} {boundary : Nat} (e : execExtest t boundary s = .next s') (hQ : Q s.dev.mem.bytes) (hS : S → s.dev.ev.Bound) :
    State.Kept S Q s s' :=
  act_state_kept e (fun _ _ h => extest_kept h) hQ hS

theorem execSamplePreload_kept {t : Time} {boundary : Nat} (e : execSamplePreload t boundary s = .next s') (hQ : Q s.dev.mem.bytes) (hS : S → s.dev.ev.Bound) :
    State.Kept S Q s s' :=
  act_state_kept e (fun _ _ h => samplePreload_kept h) hQ hS

theorem execIdcode_kept {t : Time} (e : execIdcode t s = .next s') (hQ : Q s.dev.mem.bytes) (hS : S → s.dev.ev.Bound) :
    State.Kept S Q s s' :=
  act_state_kept e (fun _ _ h => idcode_kept h) hQ hS

theorem execClamp_kept {t : Time} (e : execClamp t s = .next s') (hQ : Q s.dev.mem.bytes) (hS : S → s.dev.ev.Bound) :
    State.Kept S Q s s' :=
  act_state_kept e (fun _ _ h => clamp_kept h) hQ hS

theorem execHighz_kept {t : Time} (e : execHighz t s = .next s') (hQ : Q s.dev.mem.bytes) (hS : S → s.dev.ev.Bound) :
    State.Kept S Q s s' :=
  act_state_kept e (fun _ _ h => highz_kept h) hQ hS

theorem execBypass_kept {t : Time} {code : BitVec 5} (e : execBypass t code s = .next s') (hQ : Q s.dev.mem.bytes) (hS : S → s.dev.ev.Bound) :
    State.Kept S Q s s' :=
  act_state_kept e (fun _ _ h => bypass_kept h) hQ hS

theorem execDbgChal_kept {t : Time} {random : Block} (e : execDbgChal t random s = .next s') (hQ : Q s.dev.mem.bytes) (hS : S → s.dev.ev.Bound) :
    State.Kept S Q s s' :=
  act_state_kept e (fun _ _ h => dbgChal_kept h) hQ hS

theorem execDbgResp_kept {t : Time} {response : Block} (e : execDbgResp t response s = .next s') (hQ : Q s.dev.mem.bytes) (hS : S → s.dev.ev.Bound) :
    State.Kept S Q s s' :=
  act_state_kept e (fun _ _ h => dbgResp_kept h) hQ hS

theorem execDbgBlockExpiry_kept {t : Time} (e : execDbgBlockExpiry t s = .next s') (hQ : Q s.dev.mem.bytes) (hS : S → s.dev.ev.Bound) :
    State.Kept S Q s s' :=
  act_state_kept e (fun _ _ h => dbgBlockExpiry_kept h) hQ hS

theorem execDbgRelock_kept {t : Time} (e : execDbgRelock t s = .next s') (hQ : Q s.dev.mem.bytes) (hS : S → s.dev.ev.Bound) :
    State.Kept S Q s s' :=
  act_state_kept e (fun _ _ h => dbgRelock_kept h) hQ hS

theorem execDbgAccessRead_kept {t : Time} {target : BitVec 6} {addr : Word} (e : execDbgAccessRead t target addr s = .next s') (hQ : Q s.dev.mem.bytes) (hS : S → s.dev.ev.Bound) :
    State.Kept S Q s s' := by
  unfold execDbgAccessRead at e; split at e
  · cases e
  · exact act_state_kept e (fun _ _ h => dbgAccessRead_kept h) hQ hS

theorem execDbgAccessWrite_kept {t : Time} {target : BitVec 6} {addr data : Word} (hq : MemClosed Q) (e : execDbgAccessWrite t target addr data s = .next s') (hQ : Q s.dev.mem.bytes) (hS : S → s.dev.ev.Bound) :
    State.Kept S Q s s' := by
  unfold execDbgAccessWrite at e; split at e
  · cases e
  · exact act_state_kept e (fun _ _ h => dbgAccessWrite_kept hq h) hQ hS

theorem execDbgHalt_kept {t : Time} {core : Fin 4} (e : execDbgHalt t core s = .next s') (hQ : Q s.dev.mem.bytes) (hS : S → s.dev.ev.Bound) :
    State.Kept S Q s s' :=
  act_state_kept e (fun _ _ h => dbgHalt_kept h) hQ hS

theorem execDbgResume_kept {t : Time} {core : Fin 4} (e : execDbgResume t core s = .next s') (hQ : Q s.dev.mem.bytes) (hS : S → s.dev.ev.Bound) :
    State.Kept S Q s s' :=
  act_state_kept e (fun _ _ h => dbgResume_kept h) hQ hS

theorem execDbgStep_kept {t : Time} {core : Fin 4} (e : execDbgStep t core s = .next s') (hQ : Q s.dev.mem.bytes) (hS : S → s.dev.ev.Bound) :
    State.Kept S Q s s' :=
  act_state_kept e (fun _ _ h => dbgStep_kept h) hQ hS

theorem execDbgBreakpoint_kept {t : Time} {core i : Fin 4} (e : execDbgBreakpoint t core i s = .next s') (hQ : Q s.dev.mem.bytes) (hS : S → s.dev.ev.Bound) :
    State.Kept S Q s s' :=
  act_state_kept e (fun _ _ h => dbgBreakpoint_kept h) hQ hS

theorem execDbgWatchpoint_kept {t : Time} {core : Fin 4} {addr : Word} {write : Bool} (e : execDbgWatchpoint t core addr write s = .next s') (hQ : Q s.dev.mem.bytes) (hS : S → s.dev.ev.Bound) :
    State.Kept S Q s s' :=
  act_state_kept e (fun _ _ h => dbgWatchpoint_kept h) hQ hS

theorem execThermalTrip_kept {t : Time} (hq : MemClosed Q) (e : execThermalTrip t s = .next s') (hQ : Q s.dev.mem.bytes) (hS : S → s.dev.ev.Bound) :
    State.Kept S Q s s' :=
  act_state_kept e (fun _ _ h => thermalTrip_kept hq h) hQ hS

theorem execThermalRelease_kept {t : Time} (hq : MemClosed Q) (e : execThermalRelease t s = .next s') (hQ : Q s.dev.mem.bytes) (hS : S → s.dev.ev.Bound) :
    State.Kept S Q s s' :=
  act_state_kept e (fun _ _ h => thermalRelease_kept hq h) hQ hS

theorem execSfdpRetry_kept {t : Time} {found : Bool} (hq : MemClosed Q) (e : execSfdpRetry t found s = .next s') (hQ : Q s.dev.mem.bytes) (hS : S → s.dev.ev.Bound) :
    State.Kept S Q s s' :=
  act_state_kept e (fun _ _ h => sfdpRetry_kept hq h) hQ hS

theorem execSealJobEnd_kept {t : Time} {job : Nat} (e : execSealJobEnd t job s = .next s') (hQ : Q s.dev.mem.bytes) (hS : S → s.dev.ev.Bound) :
    State.Kept S Q s s' :=
  act_state_kept e (fun _ _ h => sealJobEnd_kept h) hQ hS

theorem execDramRequestComplete_kept {t : Time} {ch : Fin 2} (hq : MemClosed Q) (e : execDramRequestComplete t ch s = .next s') (hQ : Q s.dev.mem.bytes) (hS : S → s.dev.ev.Bound) :
    State.Kept S Q s s' :=
  act_state_kept e (fun _ _ h => dramRequestComplete_kept hq h) hQ hS

theorem execPrbsCheckerSync_kept {t : Time} {lane : Fin 8} {bits : List Bool} (e : execPrbsCheckerSync t lane bits s = .next s') (hQ : Q s.dev.mem.bytes) (hS : S → s.dev.ev.Bound) :
    State.Kept S Q s s' :=
  act_state_kept e (fun _ _ h => prbsCheckerSync_kept h) hQ hS

theorem execTimeExchangeTimer_kept {t : Time} (e : execTimeExchangeTimer t s = .next s') (hQ : Q s.dev.mem.bytes) (hS : S → s.dev.ev.Bound) :
    State.Kept S Q s s' :=
  act_state_kept e (fun _ _ h => timeExchangeTimer_kept h) hQ hS

theorem execHandoverBoundary_kept {t : Time} (e : execHandoverBoundary t s = .next s') (hQ : Q s.dev.mem.bytes) (hS : S → s.dev.ev.Bound) :
    State.Kept S Q s s' :=
  act_state_kept e (fun _ _ h => handoverBoundary_kept h) hQ hS

end Sys2Proof.Machine
end

