-- ==== Sys2Proof/Laws/State.lean ====
section
/-! SUPPORT. What each update of the device does to each field: one lemma per field per update, so that no proof unfolds a
record update. -/

namespace Sys2Proof.Machine

variable (s : State) (d : Device)

@[simp] theorem onLant_clk (f : Lantern → Lantern) : (d.onLant f).clk = d.clk := rfl
@[simp] theorem onLant_regs (f : Lantern → Lantern) : (d.onLant f).regs = d.regs := rfl
@[simp] theorem onLant_doms (f : Lantern → Lantern) : (d.onLant f).doms = d.doms := rfl
@[simp] theorem onLant_rad (f : Lantern → Lantern) : (d.onLant f).rad = d.rad := rfl
@[simp] theorem onLant_lant (f : Lantern → Lantern) : (d.onLant f).lant = f d.lant := rfl
@[simp] theorem onLant_time (f : Lantern → Lantern) : (d.onLant f).time = d.time := rfl
@[simp] theorem onLant_ciph (f : Lantern → Lantern) : (d.onLant f).ciph = d.ciph := rfl
@[simp] theorem onLant_pkt (f : Lantern → Lantern) : (d.onLant f).pkt = d.pkt := rfl
@[simp] theorem onLant_lanes (f : Lantern → Lantern) : (d.onLant f).lanes = d.lanes := rfl
@[simp] theorem onLant_mem (f : Lantern → Lantern) : (d.onLant f).mem = d.mem := rfl
@[simp] theorem onLant_cv (f : Lantern → Lantern) : (d.onLant f).cv = d.cv := rfl
@[simp] theorem onLant_ll (f : Lantern → Lantern) : (d.onLant f).ll = d.ll := rfl
@[simp] theorem onLant_start (f : Lantern → Lantern) : (d.onLant f).start = d.start := rfl
@[simp] theorem onLant_twin (f : Lantern → Lantern) : (d.onLant f).twin = d.twin := rfl
@[simp] theorem onLant_pwr (f : Lantern → Lantern) : (d.onLant f).pwr = d.pwr := rfl
@[simp] theorem onLant_keep (f : Lantern → Lantern) : (d.onLant f).keep = d.keep := rfl
@[simp] theorem onLant_ev (f : Lantern → Lantern) : (d.onLant f).ev = d.ev := rfl
@[simp] theorem onLant_log (f : Lantern → Lantern) : (d.onLant f).log = d.log := rfl
@[simp] theorem onLant_tender (f : Lantern → Lantern) : (d.onLant f).tender = d.tender := rfl
@[simp] theorem onLant_dbg (f : Lantern → Lantern) : (d.onLant f).dbg = d.dbg := rfl
@[simp] theorem onLant_otp (f : Lantern → Lantern) : (d.onLant f).otp = d.otp := rfl
@[simp] theorem onLant_cycle (f : Lantern → Lantern) : (d.onLant f).cycle = d.cycle := rfl
@[simp] theorem onLant_free (f : Lantern → Lantern) : (d.onLant f).free = d.free := rfl
@[simp] theorem onLant_out (f : Lantern → Lantern) : (d.onLant f).out = d.out := rfl

@[simp] theorem onTime_clk (f : TimeBlk → TimeBlk) : (d.onTime f).clk = d.clk := rfl
@[simp] theorem onTime_regs (f : TimeBlk → TimeBlk) : (d.onTime f).regs = d.regs := rfl
@[simp] theorem onTime_doms (f : TimeBlk → TimeBlk) : (d.onTime f).doms = d.doms := rfl
@[simp] theorem onTime_rad (f : TimeBlk → TimeBlk) : (d.onTime f).rad = d.rad := rfl
@[simp] theorem onTime_lant (f : TimeBlk → TimeBlk) : (d.onTime f).lant = d.lant := rfl
@[simp] theorem onTime_time (f : TimeBlk → TimeBlk) : (d.onTime f).time = f d.time := rfl
@[simp] theorem onTime_ciph (f : TimeBlk → TimeBlk) : (d.onTime f).ciph = d.ciph := rfl
@[simp] theorem onTime_pkt (f : TimeBlk → TimeBlk) : (d.onTime f).pkt = d.pkt := rfl
@[simp] theorem onTime_lanes (f : TimeBlk → TimeBlk) : (d.onTime f).lanes = d.lanes := rfl
@[simp] theorem onTime_mem (f : TimeBlk → TimeBlk) : (d.onTime f).mem = d.mem := rfl
@[simp] theorem onTime_cv (f : TimeBlk → TimeBlk) : (d.onTime f).cv = d.cv := rfl
@[simp] theorem onTime_ll (f : TimeBlk → TimeBlk) : (d.onTime f).ll = d.ll := rfl
@[simp] theorem onTime_start (f : TimeBlk → TimeBlk) : (d.onTime f).start = d.start := rfl
@[simp] theorem onTime_twin (f : TimeBlk → TimeBlk) : (d.onTime f).twin = d.twin := rfl
@[simp] theorem onTime_pwr (f : TimeBlk → TimeBlk) : (d.onTime f).pwr = d.pwr := rfl
@[simp] theorem onTime_keep (f : TimeBlk → TimeBlk) : (d.onTime f).keep = d.keep := rfl
@[simp] theorem onTime_ev (f : TimeBlk → TimeBlk) : (d.onTime f).ev = d.ev := rfl
@[simp] theorem onTime_log (f : TimeBlk → TimeBlk) : (d.onTime f).log = d.log := rfl
@[simp] theorem onTime_tender (f : TimeBlk → TimeBlk) : (d.onTime f).tender = d.tender := rfl
@[simp] theorem onTime_dbg (f : TimeBlk → TimeBlk) : (d.onTime f).dbg = d.dbg := rfl
@[simp] theorem onTime_otp (f : TimeBlk → TimeBlk) : (d.onTime f).otp = d.otp := rfl
@[simp] theorem onTime_cycle (f : TimeBlk → TimeBlk) : (d.onTime f).cycle = d.cycle := rfl
@[simp] theorem onTime_free (f : TimeBlk → TimeBlk) : (d.onTime f).free = d.free := rfl
@[simp] theorem onTime_out (f : TimeBlk → TimeBlk) : (d.onTime f).out = d.out := rfl

@[simp] theorem onCiph_clk (f : Cipher → Cipher) : (d.onCiph f).clk = d.clk := rfl
@[simp] theorem onCiph_regs (f : Cipher → Cipher) : (d.onCiph f).regs = d.regs := rfl
@[simp] theorem onCiph_doms (f : Cipher → Cipher) : (d.onCiph f).doms = d.doms := rfl
@[simp] theorem onCiph_rad (f : Cipher → Cipher) : (d.onCiph f).rad = d.rad := rfl
@[simp] theorem onCiph_lant (f : Cipher → Cipher) : (d.onCiph f).lant = d.lant := rfl
@[simp] theorem onCiph_time (f : Cipher → Cipher) : (d.onCiph f).time = d.time := rfl
@[simp] theorem onCiph_ciph (f : Cipher → Cipher) : (d.onCiph f).ciph = f d.ciph := rfl
@[simp] theorem onCiph_pkt (f : Cipher → Cipher) : (d.onCiph f).pkt = d.pkt := rfl
@[simp] theorem onCiph_lanes (f : Cipher → Cipher) : (d.onCiph f).lanes = d.lanes := rfl
@[simp] theorem onCiph_mem (f : Cipher → Cipher) : (d.onCiph f).mem = d.mem := rfl
@[simp] theorem onCiph_cv (f : Cipher → Cipher) : (d.onCiph f).cv = d.cv := rfl
@[simp] theorem onCiph_ll (f : Cipher → Cipher) : (d.onCiph f).ll = d.ll := rfl
@[simp] theorem onCiph_start (f : Cipher → Cipher) : (d.onCiph f).start = d.start := rfl
@[simp] theorem onCiph_twin (f : Cipher → Cipher) : (d.onCiph f).twin = d.twin := rfl
@[simp] theorem onCiph_pwr (f : Cipher → Cipher) : (d.onCiph f).pwr = d.pwr := rfl
@[simp] theorem onCiph_keep (f : Cipher → Cipher) : (d.onCiph f).keep = d.keep := rfl
@[simp] theorem onCiph_ev (f : Cipher → Cipher) : (d.onCiph f).ev = d.ev := rfl
@[simp] theorem onCiph_log (f : Cipher → Cipher) : (d.onCiph f).log = d.log := rfl
@[simp] theorem onCiph_tender (f : Cipher → Cipher) : (d.onCiph f).tender = d.tender := rfl
@[simp] theorem onCiph_dbg (f : Cipher → Cipher) : (d.onCiph f).dbg = d.dbg := rfl
@[simp] theorem onCiph_otp (f : Cipher → Cipher) : (d.onCiph f).otp = d.otp := rfl
@[simp] theorem onCiph_cycle (f : Cipher → Cipher) : (d.onCiph f).cycle = d.cycle := rfl
@[simp] theorem onCiph_free (f : Cipher → Cipher) : (d.onCiph f).free = d.free := rfl
@[simp] theorem onCiph_out (f : Cipher → Cipher) : (d.onCiph f).out = d.out := rfl

@[simp] theorem onPkt_clk (f : Packet → Packet) : (d.onPkt f).clk = d.clk := rfl
@[simp] theorem onPkt_regs (f : Packet → Packet) : (d.onPkt f).regs = d.regs := rfl
@[simp] theorem onPkt_doms (f : Packet → Packet) : (d.onPkt f).doms = d.doms := rfl
@[simp] theorem onPkt_rad (f : Packet → Packet) : (d.onPkt f).rad = d.rad := rfl
@[simp] theorem onPkt_lant (f : Packet → Packet) : (d.onPkt f).lant = d.lant := rfl
@[simp] theorem onPkt_time (f : Packet → Packet) : (d.onPkt f).time = d.time := rfl
@[simp] theorem onPkt_ciph (f : Packet → Packet) : (d.onPkt f).ciph = d.ciph := rfl
@[simp] theorem onPkt_pkt (f : Packet → Packet) : (d.onPkt f).pkt = f d.pkt := rfl
@[simp] theorem onPkt_lanes (f : Packet → Packet) : (d.onPkt f).lanes = d.lanes := rfl
@[simp] theorem onPkt_mem (f : Packet → Packet) : (d.onPkt f).mem = d.mem := rfl
@[simp] theorem onPkt_cv (f : Packet → Packet) : (d.onPkt f).cv = d.cv := rfl
@[simp] theorem onPkt_ll (f : Packet → Packet) : (d.onPkt f).ll = d.ll := rfl
@[simp] theorem onPkt_start (f : Packet → Packet) : (d.onPkt f).start = d.start := rfl
@[simp] theorem onPkt_twin (f : Packet → Packet) : (d.onPkt f).twin = d.twin := rfl
@[simp] theorem onPkt_pwr (f : Packet → Packet) : (d.onPkt f).pwr = d.pwr := rfl
@[simp] theorem onPkt_keep (f : Packet → Packet) : (d.onPkt f).keep = d.keep := rfl
@[simp] theorem onPkt_ev (f : Packet → Packet) : (d.onPkt f).ev = d.ev := rfl
@[simp] theorem onPkt_log (f : Packet → Packet) : (d.onPkt f).log = d.log := rfl
@[simp] theorem onPkt_tender (f : Packet → Packet) : (d.onPkt f).tender = d.tender := rfl
@[simp] theorem onPkt_dbg (f : Packet → Packet) : (d.onPkt f).dbg = d.dbg := rfl
@[simp] theorem onPkt_otp (f : Packet → Packet) : (d.onPkt f).otp = d.otp := rfl
@[simp] theorem onPkt_cycle (f : Packet → Packet) : (d.onPkt f).cycle = d.cycle := rfl
@[simp] theorem onPkt_free (f : Packet → Packet) : (d.onPkt f).free = d.free := rfl
@[simp] theorem onPkt_out (f : Packet → Packet) : (d.onPkt f).out = d.out := rfl

@[simp] theorem onLanes_clk (f : Lanes → Lanes) : (d.onLanes f).clk = d.clk := rfl
@[simp] theorem onLanes_regs (f : Lanes → Lanes) : (d.onLanes f).regs = d.regs := rfl
@[simp] theorem onLanes_doms (f : Lanes → Lanes) : (d.onLanes f).doms = d.doms := rfl
@[simp] theorem onLanes_rad (f : Lanes → Lanes) : (d.onLanes f).rad = d.rad := rfl
@[simp] theorem onLanes_lant (f : Lanes → Lanes) : (d.onLanes f).lant = d.lant := rfl
@[simp] theorem onLanes_time (f : Lanes → Lanes) : (d.onLanes f).time = d.time := rfl
@[simp] theorem onLanes_ciph (f : Lanes → Lanes) : (d.onLanes f).ciph = d.ciph := rfl
@[simp] theorem onLanes_pkt (f : Lanes → Lanes) : (d.onLanes f).pkt = d.pkt := rfl
@[simp] theorem onLanes_lanes (f : Lanes → Lanes) : (d.onLanes f).lanes = f d.lanes := rfl
@[simp] theorem onLanes_mem (f : Lanes → Lanes) : (d.onLanes f).mem = d.mem := rfl
@[simp] theorem onLanes_cv (f : Lanes → Lanes) : (d.onLanes f).cv = d.cv := rfl
@[simp] theorem onLanes_ll (f : Lanes → Lanes) : (d.onLanes f).ll = d.ll := rfl
@[simp] theorem onLanes_start (f : Lanes → Lanes) : (d.onLanes f).start = d.start := rfl
@[simp] theorem onLanes_twin (f : Lanes → Lanes) : (d.onLanes f).twin = d.twin := rfl
@[simp] theorem onLanes_pwr (f : Lanes → Lanes) : (d.onLanes f).pwr = d.pwr := rfl
@[simp] theorem onLanes_keep (f : Lanes → Lanes) : (d.onLanes f).keep = d.keep := rfl
@[simp] theorem onLanes_ev (f : Lanes → Lanes) : (d.onLanes f).ev = d.ev := rfl
@[simp] theorem onLanes_log (f : Lanes → Lanes) : (d.onLanes f).log = d.log := rfl
@[simp] theorem onLanes_tender (f : Lanes → Lanes) : (d.onLanes f).tender = d.tender := rfl
@[simp] theorem onLanes_dbg (f : Lanes → Lanes) : (d.onLanes f).dbg = d.dbg := rfl
@[simp] theorem onLanes_otp (f : Lanes → Lanes) : (d.onLanes f).otp = d.otp := rfl
@[simp] theorem onLanes_cycle (f : Lanes → Lanes) : (d.onLanes f).cycle = d.cycle := rfl
@[simp] theorem onLanes_free (f : Lanes → Lanes) : (d.onLanes f).free = d.free := rfl
@[simp] theorem onLanes_out (f : Lanes → Lanes) : (d.onLanes f).out = d.out := rfl

@[simp] theorem onMem_clk (f : Mem → Mem) : (d.onMem f).clk = d.clk := rfl
@[simp] theorem onMem_regs (f : Mem → Mem) : (d.onMem f).regs = d.regs := rfl
@[simp] theorem onMem_doms (f : Mem → Mem) : (d.onMem f).doms = d.doms := rfl
@[simp] theorem onMem_rad (f : Mem → Mem) : (d.onMem f).rad = d.rad := rfl
@[simp] theorem onMem_lant (f : Mem → Mem) : (d.onMem f).lant = d.lant := rfl
@[simp] theorem onMem_time (f : Mem → Mem) : (d.onMem f).time = d.time := rfl
@[simp] theorem onMem_ciph (f : Mem → Mem) : (d.onMem f).ciph = d.ciph := rfl
@[simp] theorem onMem_pkt (f : Mem → Mem) : (d.onMem f).pkt = d.pkt := rfl
@[simp] theorem onMem_lanes (f : Mem → Mem) : (d.onMem f).lanes = d.lanes := rfl
@[simp] theorem onMem_mem (f : Mem → Mem) : (d.onMem f).mem = f d.mem := rfl
@[simp] theorem onMem_cv (f : Mem → Mem) : (d.onMem f).cv = d.cv := rfl
@[simp] theorem onMem_ll (f : Mem → Mem) : (d.onMem f).ll = d.ll := rfl
@[simp] theorem onMem_start (f : Mem → Mem) : (d.onMem f).start = d.start := rfl
@[simp] theorem onMem_twin (f : Mem → Mem) : (d.onMem f).twin = d.twin := rfl
@[simp] theorem onMem_pwr (f : Mem → Mem) : (d.onMem f).pwr = d.pwr := rfl
@[simp] theorem onMem_keep (f : Mem → Mem) : (d.onMem f).keep = d.keep := rfl
@[simp] theorem onMem_ev (f : Mem → Mem) : (d.onMem f).ev = d.ev := rfl
@[simp] theorem onMem_log (f : Mem → Mem) : (d.onMem f).log = d.log := rfl
@[simp] theorem onMem_tender (f : Mem → Mem) : (d.onMem f).tender = d.tender := rfl
@[simp] theorem onMem_dbg (f : Mem → Mem) : (d.onMem f).dbg = d.dbg := rfl
@[simp] theorem onMem_otp (f : Mem → Mem) : (d.onMem f).otp = d.otp := rfl
@[simp] theorem onMem_cycle (f : Mem → Mem) : (d.onMem f).cycle = d.cycle := rfl
@[simp] theorem onMem_free (f : Mem → Mem) : (d.onMem f).free = d.free := rfl
@[simp] theorem onMem_out (f : Mem → Mem) : (d.onMem f).out = d.out := rfl

@[simp] theorem onLL_clk (f : LightList → LightList) : (d.onLL f).clk = d.clk := rfl
@[simp] theorem onLL_regs (f : LightList → LightList) : (d.onLL f).regs = d.regs := rfl
@[simp] theorem onLL_doms (f : LightList → LightList) : (d.onLL f).doms = d.doms := rfl
@[simp] theorem onLL_rad (f : LightList → LightList) : (d.onLL f).rad = d.rad := rfl
@[simp] theorem onLL_lant (f : LightList → LightList) : (d.onLL f).lant = d.lant := rfl
@[simp] theorem onLL_time (f : LightList → LightList) : (d.onLL f).time = d.time := rfl
@[simp] theorem onLL_ciph (f : LightList → LightList) : (d.onLL f).ciph = d.ciph := rfl
@[simp] theorem onLL_pkt (f : LightList → LightList) : (d.onLL f).pkt = d.pkt := rfl
@[simp] theorem onLL_lanes (f : LightList → LightList) : (d.onLL f).lanes = d.lanes := rfl
@[simp] theorem onLL_mem (f : LightList → LightList) : (d.onLL f).mem = d.mem := rfl
@[simp] theorem onLL_cv (f : LightList → LightList) : (d.onLL f).cv = d.cv := rfl
@[simp] theorem onLL_ll (f : LightList → LightList) : (d.onLL f).ll = f d.ll := rfl
@[simp] theorem onLL_start (f : LightList → LightList) : (d.onLL f).start = d.start := rfl
@[simp] theorem onLL_twin (f : LightList → LightList) : (d.onLL f).twin = d.twin := rfl
@[simp] theorem onLL_pwr (f : LightList → LightList) : (d.onLL f).pwr = d.pwr := rfl
@[simp] theorem onLL_keep (f : LightList → LightList) : (d.onLL f).keep = d.keep := rfl
@[simp] theorem onLL_ev (f : LightList → LightList) : (d.onLL f).ev = d.ev := rfl
@[simp] theorem onLL_log (f : LightList → LightList) : (d.onLL f).log = d.log := rfl
@[simp] theorem onLL_tender (f : LightList → LightList) : (d.onLL f).tender = d.tender := rfl
@[simp] theorem onLL_dbg (f : LightList → LightList) : (d.onLL f).dbg = d.dbg := rfl
@[simp] theorem onLL_otp (f : LightList → LightList) : (d.onLL f).otp = d.otp := rfl
@[simp] theorem onLL_cycle (f : LightList → LightList) : (d.onLL f).cycle = d.cycle := rfl
@[simp] theorem onLL_free (f : LightList → LightList) : (d.onLL f).free = d.free := rfl
@[simp] theorem onLL_out (f : LightList → LightList) : (d.onLL f).out = d.out := rfl

@[simp] theorem onStart_clk (f : Start → Start) : (d.onStart f).clk = d.clk := rfl
@[simp] theorem onStart_regs (f : Start → Start) : (d.onStart f).regs = d.regs := rfl
@[simp] theorem onStart_doms (f : Start → Start) : (d.onStart f).doms = d.doms := rfl
@[simp] theorem onStart_rad (f : Start → Start) : (d.onStart f).rad = d.rad := rfl
@[simp] theorem onStart_lant (f : Start → Start) : (d.onStart f).lant = d.lant := rfl
@[simp] theorem onStart_time (f : Start → Start) : (d.onStart f).time = d.time := rfl
@[simp] theorem onStart_ciph (f : Start → Start) : (d.onStart f).ciph = d.ciph := rfl
@[simp] theorem onStart_pkt (f : Start → Start) : (d.onStart f).pkt = d.pkt := rfl
@[simp] theorem onStart_lanes (f : Start → Start) : (d.onStart f).lanes = d.lanes := rfl
@[simp] theorem onStart_mem (f : Start → Start) : (d.onStart f).mem = d.mem := rfl
@[simp] theorem onStart_cv (f : Start → Start) : (d.onStart f).cv = d.cv := rfl
@[simp] theorem onStart_ll (f : Start → Start) : (d.onStart f).ll = d.ll := rfl
@[simp] theorem onStart_start (f : Start → Start) : (d.onStart f).start = f d.start := rfl
@[simp] theorem onStart_twin (f : Start → Start) : (d.onStart f).twin = d.twin := rfl
@[simp] theorem onStart_pwr (f : Start → Start) : (d.onStart f).pwr = d.pwr := rfl
@[simp] theorem onStart_keep (f : Start → Start) : (d.onStart f).keep = d.keep := rfl
@[simp] theorem onStart_ev (f : Start → Start) : (d.onStart f).ev = d.ev := rfl
@[simp] theorem onStart_log (f : Start → Start) : (d.onStart f).log = d.log := rfl
@[simp] theorem onStart_tender (f : Start → Start) : (d.onStart f).tender = d.tender := rfl
@[simp] theorem onStart_dbg (f : Start → Start) : (d.onStart f).dbg = d.dbg := rfl
@[simp] theorem onStart_otp (f : Start → Start) : (d.onStart f).otp = d.otp := rfl
@[simp] theorem onStart_cycle (f : Start → Start) : (d.onStart f).cycle = d.cycle := rfl
@[simp] theorem onStart_free (f : Start → Start) : (d.onStart f).free = d.free := rfl
@[simp] theorem onStart_out (f : Start → Start) : (d.onStart f).out = d.out := rfl

@[simp] theorem onTwin_clk (f : Twin → Twin) : (d.onTwin f).clk = d.clk := rfl
@[simp] theorem onTwin_regs (f : Twin → Twin) : (d.onTwin f).regs = d.regs := rfl
@[simp] theorem onTwin_doms (f : Twin → Twin) : (d.onTwin f).doms = d.doms := rfl
@[simp] theorem onTwin_rad (f : Twin → Twin) : (d.onTwin f).rad = d.rad := rfl
@[simp] theorem onTwin_lant (f : Twin → Twin) : (d.onTwin f).lant = d.lant := rfl
@[simp] theorem onTwin_time (f : Twin → Twin) : (d.onTwin f).time = d.time := rfl
@[simp] theorem onTwin_ciph (f : Twin → Twin) : (d.onTwin f).ciph = d.ciph := rfl
@[simp] theorem onTwin_pkt (f : Twin → Twin) : (d.onTwin f).pkt = d.pkt := rfl
@[simp] theorem onTwin_lanes (f : Twin → Twin) : (d.onTwin f).lanes = d.lanes := rfl
@[simp] theorem onTwin_mem (f : Twin → Twin) : (d.onTwin f).mem = d.mem := rfl
@[simp] theorem onTwin_cv (f : Twin → Twin) : (d.onTwin f).cv = d.cv := rfl
@[simp] theorem onTwin_ll (f : Twin → Twin) : (d.onTwin f).ll = d.ll := rfl
@[simp] theorem onTwin_start (f : Twin → Twin) : (d.onTwin f).start = d.start := rfl
@[simp] theorem onTwin_twin (f : Twin → Twin) : (d.onTwin f).twin = f d.twin := rfl
@[simp] theorem onTwin_pwr (f : Twin → Twin) : (d.onTwin f).pwr = d.pwr := rfl
@[simp] theorem onTwin_keep (f : Twin → Twin) : (d.onTwin f).keep = d.keep := rfl
@[simp] theorem onTwin_ev (f : Twin → Twin) : (d.onTwin f).ev = d.ev := rfl
@[simp] theorem onTwin_log (f : Twin → Twin) : (d.onTwin f).log = d.log := rfl
@[simp] theorem onTwin_tender (f : Twin → Twin) : (d.onTwin f).tender = d.tender := rfl
@[simp] theorem onTwin_dbg (f : Twin → Twin) : (d.onTwin f).dbg = d.dbg := rfl
@[simp] theorem onTwin_otp (f : Twin → Twin) : (d.onTwin f).otp = d.otp := rfl
@[simp] theorem onTwin_cycle (f : Twin → Twin) : (d.onTwin f).cycle = d.cycle := rfl
@[simp] theorem onTwin_free (f : Twin → Twin) : (d.onTwin f).free = d.free := rfl
@[simp] theorem onTwin_out (f : Twin → Twin) : (d.onTwin f).out = d.out := rfl

@[simp] theorem onPwr_clk (f : Power → Power) : (d.onPwr f).clk = d.clk := rfl
@[simp] theorem onPwr_regs (f : Power → Power) : (d.onPwr f).regs = d.regs := rfl
@[simp] theorem onPwr_doms (f : Power → Power) : (d.onPwr f).doms = d.doms := rfl
@[simp] theorem onPwr_rad (f : Power → Power) : (d.onPwr f).rad = d.rad := rfl
@[simp] theorem onPwr_lant (f : Power → Power) : (d.onPwr f).lant = d.lant := rfl
@[simp] theorem onPwr_time (f : Power → Power) : (d.onPwr f).time = d.time := rfl
@[simp] theorem onPwr_ciph (f : Power → Power) : (d.onPwr f).ciph = d.ciph := rfl
@[simp] theorem onPwr_pkt (f : Power → Power) : (d.onPwr f).pkt = d.pkt := rfl
@[simp] theorem onPwr_lanes (f : Power → Power) : (d.onPwr f).lanes = d.lanes := rfl
@[simp] theorem onPwr_mem (f : Power → Power) : (d.onPwr f).mem = d.mem := rfl
@[simp] theorem onPwr_cv (f : Power → Power) : (d.onPwr f).cv = d.cv := rfl
@[simp] theorem onPwr_ll (f : Power → Power) : (d.onPwr f).ll = d.ll := rfl
@[simp] theorem onPwr_start (f : Power → Power) : (d.onPwr f).start = d.start := rfl
@[simp] theorem onPwr_twin (f : Power → Power) : (d.onPwr f).twin = d.twin := rfl
@[simp] theorem onPwr_pwr (f : Power → Power) : (d.onPwr f).pwr = f d.pwr := rfl
@[simp] theorem onPwr_keep (f : Power → Power) : (d.onPwr f).keep = d.keep := rfl
@[simp] theorem onPwr_ev (f : Power → Power) : (d.onPwr f).ev = d.ev := rfl
@[simp] theorem onPwr_log (f : Power → Power) : (d.onPwr f).log = d.log := rfl
@[simp] theorem onPwr_tender (f : Power → Power) : (d.onPwr f).tender = d.tender := rfl
@[simp] theorem onPwr_dbg (f : Power → Power) : (d.onPwr f).dbg = d.dbg := rfl
@[simp] theorem onPwr_otp (f : Power → Power) : (d.onPwr f).otp = d.otp := rfl
@[simp] theorem onPwr_cycle (f : Power → Power) : (d.onPwr f).cycle = d.cycle := rfl
@[simp] theorem onPwr_free (f : Power → Power) : (d.onPwr f).free = d.free := rfl
@[simp] theorem onPwr_out (f : Power → Power) : (d.onPwr f).out = d.out := rfl

@[simp] theorem onKeep_clk (f : Keeper → Keeper) : (d.onKeep f).clk = d.clk := rfl
@[simp] theorem onKeep_regs (f : Keeper → Keeper) : (d.onKeep f).regs = d.regs := rfl
@[simp] theorem onKeep_doms (f : Keeper → Keeper) : (d.onKeep f).doms = d.doms := rfl
@[simp] theorem onKeep_rad (f : Keeper → Keeper) : (d.onKeep f).rad = d.rad := rfl
@[simp] theorem onKeep_lant (f : Keeper → Keeper) : (d.onKeep f).lant = d.lant := rfl
@[simp] theorem onKeep_time (f : Keeper → Keeper) : (d.onKeep f).time = d.time := rfl
@[simp] theorem onKeep_ciph (f : Keeper → Keeper) : (d.onKeep f).ciph = d.ciph := rfl
@[simp] theorem onKeep_pkt (f : Keeper → Keeper) : (d.onKeep f).pkt = d.pkt := rfl
@[simp] theorem onKeep_lanes (f : Keeper → Keeper) : (d.onKeep f).lanes = d.lanes := rfl
@[simp] theorem onKeep_mem (f : Keeper → Keeper) : (d.onKeep f).mem = d.mem := rfl
@[simp] theorem onKeep_cv (f : Keeper → Keeper) : (d.onKeep f).cv = d.cv := rfl
@[simp] theorem onKeep_ll (f : Keeper → Keeper) : (d.onKeep f).ll = d.ll := rfl
@[simp] theorem onKeep_start (f : Keeper → Keeper) : (d.onKeep f).start = d.start := rfl
@[simp] theorem onKeep_twin (f : Keeper → Keeper) : (d.onKeep f).twin = d.twin := rfl
@[simp] theorem onKeep_pwr (f : Keeper → Keeper) : (d.onKeep f).pwr = d.pwr := rfl
@[simp] theorem onKeep_keep (f : Keeper → Keeper) : (d.onKeep f).keep = f d.keep := rfl
@[simp] theorem onKeep_ev (f : Keeper → Keeper) : (d.onKeep f).ev = d.ev := rfl
@[simp] theorem onKeep_log (f : Keeper → Keeper) : (d.onKeep f).log = d.log := rfl
@[simp] theorem onKeep_tender (f : Keeper → Keeper) : (d.onKeep f).tender = d.tender := rfl
@[simp] theorem onKeep_dbg (f : Keeper → Keeper) : (d.onKeep f).dbg = d.dbg := rfl
@[simp] theorem onKeep_otp (f : Keeper → Keeper) : (d.onKeep f).otp = d.otp := rfl
@[simp] theorem onKeep_cycle (f : Keeper → Keeper) : (d.onKeep f).cycle = d.cycle := rfl
@[simp] theorem onKeep_free (f : Keeper → Keeper) : (d.onKeep f).free = d.free := rfl
@[simp] theorem onKeep_out (f : Keeper → Keeper) : (d.onKeep f).out = d.out := rfl

@[simp] theorem onEv_clk (f : Events → Events) : (d.onEv f).clk = d.clk := rfl
@[simp] theorem onEv_regs (f : Events → Events) : (d.onEv f).regs = d.regs := rfl
@[simp] theorem onEv_doms (f : Events → Events) : (d.onEv f).doms = d.doms := rfl
@[simp] theorem onEv_rad (f : Events → Events) : (d.onEv f).rad = d.rad := rfl
@[simp] theorem onEv_lant (f : Events → Events) : (d.onEv f).lant = d.lant := rfl
@[simp] theorem onEv_time (f : Events → Events) : (d.onEv f).time = d.time := rfl
@[simp] theorem onEv_ciph (f : Events → Events) : (d.onEv f).ciph = d.ciph := rfl
@[simp] theorem onEv_pkt (f : Events → Events) : (d.onEv f).pkt = d.pkt := rfl
@[simp] theorem onEv_lanes (f : Events → Events) : (d.onEv f).lanes = d.lanes := rfl
@[simp] theorem onEv_mem (f : Events → Events) : (d.onEv f).mem = d.mem := rfl
@[simp] theorem onEv_cv (f : Events → Events) : (d.onEv f).cv = d.cv := rfl
@[simp] theorem onEv_ll (f : Events → Events) : (d.onEv f).ll = d.ll := rfl
@[simp] theorem onEv_start (f : Events → Events) : (d.onEv f).start = d.start := rfl
@[simp] theorem onEv_twin (f : Events → Events) : (d.onEv f).twin = d.twin := rfl
@[simp] theorem onEv_pwr (f : Events → Events) : (d.onEv f).pwr = d.pwr := rfl
@[simp] theorem onEv_keep (f : Events → Events) : (d.onEv f).keep = d.keep := rfl
@[simp] theorem onEv_ev (f : Events → Events) : (d.onEv f).ev = f d.ev := rfl
@[simp] theorem onEv_log (f : Events → Events) : (d.onEv f).log = d.log := rfl
@[simp] theorem onEv_tender (f : Events → Events) : (d.onEv f).tender = d.tender := rfl
@[simp] theorem onEv_dbg (f : Events → Events) : (d.onEv f).dbg = d.dbg := rfl
@[simp] theorem onEv_otp (f : Events → Events) : (d.onEv f).otp = d.otp := rfl
@[simp] theorem onEv_cycle (f : Events → Events) : (d.onEv f).cycle = d.cycle := rfl
@[simp] theorem onEv_free (f : Events → Events) : (d.onEv f).free = d.free := rfl
@[simp] theorem onEv_out (f : Events → Events) : (d.onEv f).out = d.out := rfl

@[simp] theorem onLog_clk (f : Log → Log) : (d.onLog f).clk = d.clk := rfl
@[simp] theorem onLog_regs (f : Log → Log) : (d.onLog f).regs = d.regs := rfl
@[simp] theorem onLog_doms (f : Log → Log) : (d.onLog f).doms = d.doms := rfl
@[simp] theorem onLog_rad (f : Log → Log) : (d.onLog f).rad = d.rad := rfl
@[simp] theorem onLog_lant (f : Log → Log) : (d.onLog f).lant = d.lant := rfl
@[simp] theorem onLog_time (f : Log → Log) : (d.onLog f).time = d.time := rfl
@[simp] theorem onLog_ciph (f : Log → Log) : (d.onLog f).ciph = d.ciph := rfl
@[simp] theorem onLog_pkt (f : Log → Log) : (d.onLog f).pkt = d.pkt := rfl
@[simp] theorem onLog_lanes (f : Log → Log) : (d.onLog f).lanes = d.lanes := rfl
@[simp] theorem onLog_mem (f : Log → Log) : (d.onLog f).mem = d.mem := rfl
@[simp] theorem onLog_cv (f : Log → Log) : (d.onLog f).cv = d.cv := rfl
@[simp] theorem onLog_ll (f : Log → Log) : (d.onLog f).ll = d.ll := rfl
@[simp] theorem onLog_start (f : Log → Log) : (d.onLog f).start = d.start := rfl
@[simp] theorem onLog_twin (f : Log → Log) : (d.onLog f).twin = d.twin := rfl
@[simp] theorem onLog_pwr (f : Log → Log) : (d.onLog f).pwr = d.pwr := rfl
@[simp] theorem onLog_keep (f : Log → Log) : (d.onLog f).keep = d.keep := rfl
@[simp] theorem onLog_ev (f : Log → Log) : (d.onLog f).ev = d.ev := rfl
@[simp] theorem onLog_log (f : Log → Log) : (d.onLog f).log = f d.log := rfl
@[simp] theorem onLog_tender (f : Log → Log) : (d.onLog f).tender = d.tender := rfl
@[simp] theorem onLog_dbg (f : Log → Log) : (d.onLog f).dbg = d.dbg := rfl
@[simp] theorem onLog_otp (f : Log → Log) : (d.onLog f).otp = d.otp := rfl
@[simp] theorem onLog_cycle (f : Log → Log) : (d.onLog f).cycle = d.cycle := rfl
@[simp] theorem onLog_free (f : Log → Log) : (d.onLog f).free = d.free := rfl
@[simp] theorem onLog_out (f : Log → Log) : (d.onLog f).out = d.out := rfl

@[simp] theorem onTender_clk (f : Tender → Tender) : (d.onTender f).clk = d.clk := rfl
@[simp] theorem onTender_regs (f : Tender → Tender) : (d.onTender f).regs = d.regs := rfl
@[simp] theorem onTender_doms (f : Tender → Tender) : (d.onTender f).doms = d.doms := rfl
@[simp] theorem onTender_rad (f : Tender → Tender) : (d.onTender f).rad = d.rad := rfl
@[simp] theorem onTender_lant (f : Tender → Tender) : (d.onTender f).lant = d.lant := rfl
@[simp] theorem onTender_time (f : Tender → Tender) : (d.onTender f).time = d.time := rfl
@[simp] theorem onTender_ciph (f : Tender → Tender) : (d.onTender f).ciph = d.ciph := rfl
@[simp] theorem onTender_pkt (f : Tender → Tender) : (d.onTender f).pkt = d.pkt := rfl
@[simp] theorem onTender_lanes (f : Tender → Tender) : (d.onTender f).lanes = d.lanes := rfl
@[simp] theorem onTender_mem (f : Tender → Tender) : (d.onTender f).mem = d.mem := rfl
@[simp] theorem onTender_cv (f : Tender → Tender) : (d.onTender f).cv = d.cv := rfl
@[simp] theorem onTender_ll (f : Tender → Tender) : (d.onTender f).ll = d.ll := rfl
@[simp] theorem onTender_start (f : Tender → Tender) : (d.onTender f).start = d.start := rfl
@[simp] theorem onTender_twin (f : Tender → Tender) : (d.onTender f).twin = d.twin := rfl
@[simp] theorem onTender_pwr (f : Tender → Tender) : (d.onTender f).pwr = d.pwr := rfl
@[simp] theorem onTender_keep (f : Tender → Tender) : (d.onTender f).keep = d.keep := rfl
@[simp] theorem onTender_ev (f : Tender → Tender) : (d.onTender f).ev = d.ev := rfl
@[simp] theorem onTender_log (f : Tender → Tender) : (d.onTender f).log = d.log := rfl
@[simp] theorem onTender_tender (f : Tender → Tender) : (d.onTender f).tender = f d.tender := rfl
@[simp] theorem onTender_dbg (f : Tender → Tender) : (d.onTender f).dbg = d.dbg := rfl
@[simp] theorem onTender_otp (f : Tender → Tender) : (d.onTender f).otp = d.otp := rfl
@[simp] theorem onTender_cycle (f : Tender → Tender) : (d.onTender f).cycle = d.cycle := rfl
@[simp] theorem onTender_free (f : Tender → Tender) : (d.onTender f).free = d.free := rfl
@[simp] theorem onTender_out (f : Tender → Tender) : (d.onTender f).out = d.out := rfl

@[simp] theorem onDbg_clk (f : Debug → Debug) : (d.onDbg f).clk = d.clk := rfl
@[simp] theorem onDbg_regs (f : Debug → Debug) : (d.onDbg f).regs = d.regs := rfl
@[simp] theorem onDbg_doms (f : Debug → Debug) : (d.onDbg f).doms = d.doms := rfl
@[simp] theorem onDbg_rad (f : Debug → Debug) : (d.onDbg f).rad = d.rad := rfl
@[simp] theorem onDbg_lant (f : Debug → Debug) : (d.onDbg f).lant = d.lant := rfl
@[simp] theorem onDbg_time (f : Debug → Debug) : (d.onDbg f).time = d.time := rfl
@[simp] theorem onDbg_ciph (f : Debug → Debug) : (d.onDbg f).ciph = d.ciph := rfl
@[simp] theorem onDbg_pkt (f : Debug → Debug) : (d.onDbg f).pkt = d.pkt := rfl
@[simp] theorem onDbg_lanes (f : Debug → Debug) : (d.onDbg f).lanes = d.lanes := rfl
@[simp] theorem onDbg_mem (f : Debug → Debug) : (d.onDbg f).mem = d.mem := rfl
@[simp] theorem onDbg_cv (f : Debug → Debug) : (d.onDbg f).cv = d.cv := rfl
@[simp] theorem onDbg_ll (f : Debug → Debug) : (d.onDbg f).ll = d.ll := rfl
@[simp] theorem onDbg_start (f : Debug → Debug) : (d.onDbg f).start = d.start := rfl
@[simp] theorem onDbg_twin (f : Debug → Debug) : (d.onDbg f).twin = d.twin := rfl
@[simp] theorem onDbg_pwr (f : Debug → Debug) : (d.onDbg f).pwr = d.pwr := rfl
@[simp] theorem onDbg_keep (f : Debug → Debug) : (d.onDbg f).keep = d.keep := rfl
@[simp] theorem onDbg_ev (f : Debug → Debug) : (d.onDbg f).ev = d.ev := rfl
@[simp] theorem onDbg_log (f : Debug → Debug) : (d.onDbg f).log = d.log := rfl
@[simp] theorem onDbg_tender (f : Debug → Debug) : (d.onDbg f).tender = d.tender := rfl
@[simp] theorem onDbg_dbg (f : Debug → Debug) : (d.onDbg f).dbg = f d.dbg := rfl
@[simp] theorem onDbg_otp (f : Debug → Debug) : (d.onDbg f).otp = d.otp := rfl
@[simp] theorem onDbg_cycle (f : Debug → Debug) : (d.onDbg f).cycle = d.cycle := rfl
@[simp] theorem onDbg_free (f : Debug → Debug) : (d.onDbg f).free = d.free := rfl
@[simp] theorem onDbg_out (f : Debug → Debug) : (d.onDbg f).out = d.out := rfl

@[simp] theorem onCycle_clk (f : Cycle → Cycle) : (d.onCycle f).clk = d.clk := rfl
@[simp] theorem onCycle_regs (f : Cycle → Cycle) : (d.onCycle f).regs = d.regs := rfl
@[simp] theorem onCycle_doms (f : Cycle → Cycle) : (d.onCycle f).doms = d.doms := rfl
@[simp] theorem onCycle_rad (f : Cycle → Cycle) : (d.onCycle f).rad = d.rad := rfl
@[simp] theorem onCycle_lant (f : Cycle → Cycle) : (d.onCycle f).lant = d.lant := rfl
@[simp] theorem onCycle_time (f : Cycle → Cycle) : (d.onCycle f).time = d.time := rfl
@[simp] theorem onCycle_ciph (f : Cycle → Cycle) : (d.onCycle f).ciph = d.ciph := rfl
@[simp] theorem onCycle_pkt (f : Cycle → Cycle) : (d.onCycle f).pkt = d.pkt := rfl
@[simp] theorem onCycle_lanes (f : Cycle → Cycle) : (d.onCycle f).lanes = d.lanes := rfl
@[simp] theorem onCycle_mem (f : Cycle → Cycle) : (d.onCycle f).mem = d.mem := rfl
@[simp] theorem onCycle_cv (f : Cycle → Cycle) : (d.onCycle f).cv = d.cv := rfl
@[simp] theorem onCycle_ll (f : Cycle → Cycle) : (d.onCycle f).ll = d.ll := rfl
@[simp] theorem onCycle_start (f : Cycle → Cycle) : (d.onCycle f).start = d.start := rfl
@[simp] theorem onCycle_twin (f : Cycle → Cycle) : (d.onCycle f).twin = d.twin := rfl
@[simp] theorem onCycle_pwr (f : Cycle → Cycle) : (d.onCycle f).pwr = d.pwr := rfl
@[simp] theorem onCycle_keep (f : Cycle → Cycle) : (d.onCycle f).keep = d.keep := rfl
@[simp] theorem onCycle_ev (f : Cycle → Cycle) : (d.onCycle f).ev = d.ev := rfl
@[simp] theorem onCycle_log (f : Cycle → Cycle) : (d.onCycle f).log = d.log := rfl
@[simp] theorem onCycle_tender (f : Cycle → Cycle) : (d.onCycle f).tender = d.tender := rfl
@[simp] theorem onCycle_dbg (f : Cycle → Cycle) : (d.onCycle f).dbg = d.dbg := rfl
@[simp] theorem onCycle_otp (f : Cycle → Cycle) : (d.onCycle f).otp = d.otp := rfl
@[simp] theorem onCycle_cycle (f : Cycle → Cycle) : (d.onCycle f).cycle = f d.cycle := rfl
@[simp] theorem onCycle_free (f : Cycle → Cycle) : (d.onCycle f).free = d.free := rfl
@[simp] theorem onCycle_out (f : Cycle → Cycle) : (d.onCycle f).out = d.out := rfl

@[simp] theorem onRng_clk (f : Rng → Rng) : (d.onRng f).clk = d.clk := rfl
@[simp] theorem onRng_regs (f : Rng → Rng) : (d.onRng f).regs = d.regs := rfl
@[simp] theorem onRng_doms (f : Rng → Rng) : (d.onRng f).doms = d.doms := rfl
@[simp] theorem onRng_rad (f : Rng → Rng) : (d.onRng f).rad = d.rad := rfl
@[simp] theorem onRng_lant (f : Rng → Rng) : (d.onRng f).lant = d.lant := rfl
@[simp] theorem onRng_time (f : Rng → Rng) : (d.onRng f).time = d.time := rfl
@[simp] theorem onRng_ciph (f : Rng → Rng) : (d.onRng f).ciph = d.ciph := rfl
@[simp] theorem onRng_pkt (f : Rng → Rng) : (d.onRng f).pkt = d.pkt := rfl
@[simp] theorem onRng_mem (f : Rng → Rng) : (d.onRng f).mem = d.mem := rfl
@[simp] theorem onRng_cv (f : Rng → Rng) : (d.onRng f).cv = d.cv := rfl
@[simp] theorem onRng_ll (f : Rng → Rng) : (d.onRng f).ll = d.ll := rfl
@[simp] theorem onRng_start (f : Rng → Rng) : (d.onRng f).start = d.start := rfl
@[simp] theorem onRng_twin (f : Rng → Rng) : (d.onRng f).twin = d.twin := rfl
@[simp] theorem onRng_pwr (f : Rng → Rng) : (d.onRng f).pwr = d.pwr := rfl
@[simp] theorem onRng_keep (f : Rng → Rng) : (d.onRng f).keep = d.keep := rfl
@[simp] theorem onRng_ev (f : Rng → Rng) : (d.onRng f).ev = d.ev := rfl
@[simp] theorem onRng_log (f : Rng → Rng) : (d.onRng f).log = d.log := rfl
@[simp] theorem onRng_tender (f : Rng → Rng) : (d.onRng f).tender = d.tender := rfl
@[simp] theorem onRng_dbg (f : Rng → Rng) : (d.onRng f).dbg = d.dbg := rfl
@[simp] theorem onRng_otp (f : Rng → Rng) : (d.onRng f).otp = d.otp := rfl
@[simp] theorem onRng_cycle (f : Rng → Rng) : (d.onRng f).cycle = d.cycle := rfl
@[simp] theorem onRng_free (f : Rng → Rng) : (d.onRng f).free = d.free := rfl
@[simp] theorem onRng_out (f : Rng → Rng) : (d.onRng f).out = d.out := rfl

@[simp] theorem onRelay_clk (f : Relay → Relay) : (d.onRelay f).clk = d.clk := rfl
@[simp] theorem onRelay_regs (f : Relay → Relay) : (d.onRelay f).regs = d.regs := rfl
@[simp] theorem onRelay_doms (f : Relay → Relay) : (d.onRelay f).doms = d.doms := rfl
@[simp] theorem onRelay_rad (f : Relay → Relay) : (d.onRelay f).rad = d.rad := rfl
@[simp] theorem onRelay_time (f : Relay → Relay) : (d.onRelay f).time = d.time := rfl
@[simp] theorem onRelay_ciph (f : Relay → Relay) : (d.onRelay f).ciph = d.ciph := rfl
@[simp] theorem onRelay_pkt (f : Relay → Relay) : (d.onRelay f).pkt = d.pkt := rfl
@[simp] theorem onRelay_lanes (f : Relay → Relay) : (d.onRelay f).lanes = d.lanes := rfl
@[simp] theorem onRelay_mem (f : Relay → Relay) : (d.onRelay f).mem = d.mem := rfl
@[simp] theorem onRelay_cv (f : Relay → Relay) : (d.onRelay f).cv = d.cv := rfl
@[simp] theorem onRelay_ll (f : Relay → Relay) : (d.onRelay f).ll = d.ll := rfl
@[simp] theorem onRelay_start (f : Relay → Relay) : (d.onRelay f).start = d.start := rfl
@[simp] theorem onRelay_twin (f : Relay → Relay) : (d.onRelay f).twin = d.twin := rfl
@[simp] theorem onRelay_pwr (f : Relay → Relay) : (d.onRelay f).pwr = d.pwr := rfl
@[simp] theorem onRelay_keep (f : Relay → Relay) : (d.onRelay f).keep = d.keep := rfl
@[simp] theorem onRelay_ev (f : Relay → Relay) : (d.onRelay f).ev = d.ev := rfl
@[simp] theorem onRelay_log (f : Relay → Relay) : (d.onRelay f).log = d.log := rfl
@[simp] theorem onRelay_tender (f : Relay → Relay) : (d.onRelay f).tender = d.tender := rfl
@[simp] theorem onRelay_dbg (f : Relay → Relay) : (d.onRelay f).dbg = d.dbg := rfl
@[simp] theorem onRelay_otp (f : Relay → Relay) : (d.onRelay f).otp = d.otp := rfl
@[simp] theorem onRelay_cycle (f : Relay → Relay) : (d.onRelay f).cycle = d.cycle := rfl
@[simp] theorem onRelay_free (f : Relay → Relay) : (d.onRelay f).free = d.free := rfl
@[simp] theorem onRelay_out (f : Relay → Relay) : (d.onRelay f).out = d.out := rfl

@[simp] theorem onRad_clk (b : Band) (f : Radio → Radio) : (d.onRad b f).clk = d.clk := rfl
@[simp] theorem onRad_regs (b : Band) (f : Radio → Radio) : (d.onRad b f).regs = d.regs := rfl
@[simp] theorem onRad_doms (b : Band) (f : Radio → Radio) : (d.onRad b f).doms = d.doms := rfl
@[simp] theorem onRad_lant (b : Band) (f : Radio → Radio) : (d.onRad b f).lant = d.lant := rfl
@[simp] theorem onRad_time (b : Band) (f : Radio → Radio) : (d.onRad b f).time = d.time := rfl
@[simp] theorem onRad_ciph (b : Band) (f : Radio → Radio) : (d.onRad b f).ciph = d.ciph := rfl
@[simp] theorem onRad_pkt (b : Band) (f : Radio → Radio) : (d.onRad b f).pkt = d.pkt := rfl
@[simp] theorem onRad_lanes (b : Band) (f : Radio → Radio) : (d.onRad b f).lanes = d.lanes := rfl
@[simp] theorem onRad_mem (b : Band) (f : Radio → Radio) : (d.onRad b f).mem = d.mem := rfl
@[simp] theorem onRad_cv (b : Band) (f : Radio → Radio) : (d.onRad b f).cv = d.cv := rfl
@[simp] theorem onRad_ll (b : Band) (f : Radio → Radio) : (d.onRad b f).ll = d.ll := rfl
@[simp] theorem onRad_start (b : Band) (f : Radio → Radio) : (d.onRad b f).start = d.start := rfl
@[simp] theorem onRad_twin (b : Band) (f : Radio → Radio) : (d.onRad b f).twin = d.twin := rfl
@[simp] theorem onRad_pwr (b : Band) (f : Radio → Radio) : (d.onRad b f).pwr = d.pwr := rfl
@[simp] theorem onRad_keep (b : Band) (f : Radio → Radio) : (d.onRad b f).keep = d.keep := rfl
@[simp] theorem onRad_ev (b : Band) (f : Radio → Radio) : (d.onRad b f).ev = d.ev := rfl
@[simp] theorem onRad_log (b : Band) (f : Radio → Radio) : (d.onRad b f).log = d.log := rfl
@[simp] theorem onRad_tender (b : Band) (f : Radio → Radio) : (d.onRad b f).tender = d.tender := rfl
@[simp] theorem onRad_dbg (b : Band) (f : Radio → Radio) : (d.onRad b f).dbg = d.dbg := rfl
@[simp] theorem onRad_otp (b : Band) (f : Radio → Radio) : (d.onRad b f).otp = d.otp := rfl
@[simp] theorem onRad_cycle (b : Band) (f : Radio → Radio) : (d.onRad b f).cycle = d.cycle := rfl
@[simp] theorem onRad_free (b : Band) (f : Radio → Radio) : (d.onRad b f).free = d.free := rfl
@[simp] theorem onRad_out (b : Band) (f : Radio → Radio) : (d.onRad b f).out = d.out := rfl

@[simp] theorem onDom_clk (n : Nat) (f : Domain → Domain) : (d.onDom n f).clk = d.clk := rfl
@[simp] theorem onDom_regs (n : Nat) (f : Domain → Domain) : (d.onDom n f).regs = d.regs := rfl
@[simp] theorem onDom_rad (n : Nat) (f : Domain → Domain) : (d.onDom n f).rad = d.rad := rfl
@[simp] theorem onDom_lant (n : Nat) (f : Domain → Domain) : (d.onDom n f).lant = d.lant := rfl
@[simp] theorem onDom_time (n : Nat) (f : Domain → Domain) : (d.onDom n f).time = d.time := rfl
@[simp] theorem onDom_ciph (n : Nat) (f : Domain → Domain) : (d.onDom n f).ciph = d.ciph := rfl
@[simp] theorem onDom_pkt (n : Nat) (f : Domain → Domain) : (d.onDom n f).pkt = d.pkt := rfl
@[simp] theorem onDom_lanes (n : Nat) (f : Domain → Domain) : (d.onDom n f).lanes = d.lanes := rfl
@[simp] theorem onDom_mem (n : Nat) (f : Domain → Domain) : (d.onDom n f).mem = d.mem := rfl
@[simp] theorem onDom_cv (n : Nat) (f : Domain → Domain) : (d.onDom n f).cv = d.cv := rfl
@[simp] theorem onDom_ll (n : Nat) (f : Domain → Domain) : (d.onDom n f).ll = d.ll := rfl
@[simp] theorem onDom_start (n : Nat) (f : Domain → Domain) : (d.onDom n f).start = d.start := rfl
@[simp] theorem onDom_twin (n : Nat) (f : Domain → Domain) : (d.onDom n f).twin = d.twin := rfl
@[simp] theorem onDom_pwr (n : Nat) (f : Domain → Domain) : (d.onDom n f).pwr = d.pwr := rfl
@[simp] theorem onDom_keep (n : Nat) (f : Domain → Domain) : (d.onDom n f).keep = d.keep := rfl
@[simp] theorem onDom_ev (n : Nat) (f : Domain → Domain) : (d.onDom n f).ev = d.ev := rfl
@[simp] theorem onDom_log (n : Nat) (f : Domain → Domain) : (d.onDom n f).log = d.log := rfl
@[simp] theorem onDom_tender (n : Nat) (f : Domain → Domain) : (d.onDom n f).tender = d.tender := rfl
@[simp] theorem onDom_dbg (n : Nat) (f : Domain → Domain) : (d.onDom n f).dbg = d.dbg := rfl
@[simp] theorem onDom_otp (n : Nat) (f : Domain → Domain) : (d.onDom n f).otp = d.otp := rfl
@[simp] theorem onDom_cycle (n : Nat) (f : Domain → Domain) : (d.onDom n f).cycle = d.cycle := rfl
@[simp] theorem onDom_free (n : Nat) (f : Domain → Domain) : (d.onDom n f).free = d.free := rfl
@[simp] theorem onDom_out (n : Nat) (f : Domain → Domain) : (d.onDom n f).out = d.out := rfl

@[simp] theorem onClient_clk (c : Nat) (f : Client → Client) : (d.onClient c f).clk = d.clk := rfl
@[simp] theorem onClient_regs (c : Nat) (f : Client → Client) : (d.onClient c f).regs = d.regs := rfl
@[simp] theorem onClient_doms (c : Nat) (f : Client → Client) : (d.onClient c f).doms = d.doms := rfl
@[simp] theorem onClient_rad (c : Nat) (f : Client → Client) : (d.onClient c f).rad = d.rad := rfl
@[simp] theorem onClient_time (c : Nat) (f : Client → Client) : (d.onClient c f).time = d.time := rfl
@[simp] theorem onClient_ciph (c : Nat) (f : Client → Client) : (d.onClient c f).ciph = d.ciph := rfl
@[simp] theorem onClient_pkt (c : Nat) (f : Client → Client) : (d.onClient c f).pkt = d.pkt := rfl
@[simp] theorem onClient_lanes (c : Nat) (f : Client → Client) : (d.onClient c f).lanes = d.lanes := rfl
@[simp] theorem onClient_mem (c : Nat) (f : Client → Client) : (d.onClient c f).mem = d.mem := rfl
@[simp] theorem onClient_cv (c : Nat) (f : Client → Client) : (d.onClient c f).cv = d.cv := rfl
@[simp] theorem onClient_ll (c : Nat) (f : Client → Client) : (d.onClient c f).ll = d.ll := rfl
@[simp] theorem onClient_start (c : Nat) (f : Client → Client) : (d.onClient c f).start = d.start := rfl
@[simp] theorem onClient_twin (c : Nat) (f : Client → Client) : (d.onClient c f).twin = d.twin := rfl
@[simp] theorem onClient_pwr (c : Nat) (f : Client → Client) : (d.onClient c f).pwr = d.pwr := rfl
@[simp] theorem onClient_keep (c : Nat) (f : Client → Client) : (d.onClient c f).keep = d.keep := rfl
@[simp] theorem onClient_ev (c : Nat) (f : Client → Client) : (d.onClient c f).ev = d.ev := rfl
@[simp] theorem onClient_log (c : Nat) (f : Client → Client) : (d.onClient c f).log = d.log := rfl
@[simp] theorem onClient_tender (c : Nat) (f : Client → Client) : (d.onClient c f).tender = d.tender := rfl
@[simp] theorem onClient_dbg (c : Nat) (f : Client → Client) : (d.onClient c f).dbg = d.dbg := rfl
@[simp] theorem onClient_otp (c : Nat) (f : Client → Client) : (d.onClient c f).otp = d.otp := rfl
@[simp] theorem onClient_cycle (c : Nat) (f : Client → Client) : (d.onClient c f).cycle = d.cycle := rfl
@[simp] theorem onClient_free (c : Nat) (f : Client → Client) : (d.onClient c f).free = d.free := rfl
@[simp] theorem onClient_out (c : Nat) (f : Client → Client) : (d.onClient c f).out = d.out := rfl

@[simp] theorem onLink_clk (h : Nat) (f : Link → Link) : (d.onLink h f).clk = d.clk := rfl
@[simp] theorem onLink_regs (h : Nat) (f : Link → Link) : (d.onLink h f).regs = d.regs := rfl
@[simp] theorem onLink_doms (h : Nat) (f : Link → Link) : (d.onLink h f).doms = d.doms := rfl
@[simp] theorem onLink_rad (h : Nat) (f : Link → Link) : (d.onLink h f).rad = d.rad := rfl
@[simp] theorem onLink_time (h : Nat) (f : Link → Link) : (d.onLink h f).time = d.time := rfl
@[simp] theorem onLink_ciph (h : Nat) (f : Link → Link) : (d.onLink h f).ciph = d.ciph := rfl
@[simp] theorem onLink_pkt (h : Nat) (f : Link → Link) : (d.onLink h f).pkt = d.pkt := rfl
@[simp] theorem onLink_lanes (h : Nat) (f : Link → Link) : (d.onLink h f).lanes = d.lanes := rfl
@[simp] theorem onLink_mem (h : Nat) (f : Link → Link) : (d.onLink h f).mem = d.mem := rfl
@[simp] theorem onLink_cv (h : Nat) (f : Link → Link) : (d.onLink h f).cv = d.cv := rfl
@[simp] theorem onLink_ll (h : Nat) (f : Link → Link) : (d.onLink h f).ll = d.ll := rfl
@[simp] theorem onLink_start (h : Nat) (f : Link → Link) : (d.onLink h f).start = d.start := rfl
@[simp] theorem onLink_twin (h : Nat) (f : Link → Link) : (d.onLink h f).twin = d.twin := rfl
@[simp] theorem onLink_pwr (h : Nat) (f : Link → Link) : (d.onLink h f).pwr = d.pwr := rfl
@[simp] theorem onLink_keep (h : Nat) (f : Link → Link) : (d.onLink h f).keep = d.keep := rfl
@[simp] theorem onLink_ev (h : Nat) (f : Link → Link) : (d.onLink h f).ev = d.ev := rfl
@[simp] theorem onLink_log (h : Nat) (f : Link → Link) : (d.onLink h f).log = d.log := rfl
@[simp] theorem onLink_tender (h : Nat) (f : Link → Link) : (d.onLink h f).tender = d.tender := rfl
@[simp] theorem onLink_dbg (h : Nat) (f : Link → Link) : (d.onLink h f).dbg = d.dbg := rfl
@[simp] theorem onLink_otp (h : Nat) (f : Link → Link) : (d.onLink h f).otp = d.otp := rfl
@[simp] theorem onLink_cycle (h : Nat) (f : Link → Link) : (d.onLink h f).cycle = d.cycle := rfl
@[simp] theorem onLink_free (h : Nat) (f : Link → Link) : (d.onLink h f).free = d.free := rfl
@[simp] theorem onLink_out (h : Nat) (f : Link → Link) : (d.onLink h f).out = d.out := rfl

@[simp] theorem onQueue_clk (q : Nat) (f : Queue → Queue) : (d.onQueue q f).clk = d.clk := rfl
@[simp] theorem onQueue_regs (q : Nat) (f : Queue → Queue) : (d.onQueue q f).regs = d.regs := rfl
@[simp] theorem onQueue_doms (q : Nat) (f : Queue → Queue) : (d.onQueue q f).doms = d.doms := rfl
@[simp] theorem onQueue_rad (q : Nat) (f : Queue → Queue) : (d.onQueue q f).rad = d.rad := rfl
@[simp] theorem onQueue_lant (q : Nat) (f : Queue → Queue) : (d.onQueue q f).lant = d.lant := rfl
@[simp] theorem onQueue_time (q : Nat) (f : Queue → Queue) : (d.onQueue q f).time = d.time := rfl
@[simp] theorem onQueue_ciph (q : Nat) (f : Queue → Queue) : (d.onQueue q f).ciph = d.ciph := rfl
@[simp] theorem onQueue_lanes (q : Nat) (f : Queue → Queue) : (d.onQueue q f).lanes = d.lanes := rfl
@[simp] theorem onQueue_mem (q : Nat) (f : Queue → Queue) : (d.onQueue q f).mem = d.mem := rfl
@[simp] theorem onQueue_cv (q : Nat) (f : Queue → Queue) : (d.onQueue q f).cv = d.cv := rfl
@[simp] theorem onQueue_ll (q : Nat) (f : Queue → Queue) : (d.onQueue q f).ll = d.ll := rfl
@[simp] theorem onQueue_start (q : Nat) (f : Queue → Queue) : (d.onQueue q f).start = d.start := rfl
@[simp] theorem onQueue_twin (q : Nat) (f : Queue → Queue) : (d.onQueue q f).twin = d.twin := rfl
@[simp] theorem onQueue_pwr (q : Nat) (f : Queue → Queue) : (d.onQueue q f).pwr = d.pwr := rfl
@[simp] theorem onQueue_keep (q : Nat) (f : Queue → Queue) : (d.onQueue q f).keep = d.keep := rfl
@[simp] theorem onQueue_ev (q : Nat) (f : Queue → Queue) : (d.onQueue q f).ev = d.ev := rfl
@[simp] theorem onQueue_log (q : Nat) (f : Queue → Queue) : (d.onQueue q f).log = d.log := rfl
@[simp] theorem onQueue_tender (q : Nat) (f : Queue → Queue) : (d.onQueue q f).tender = d.tender := rfl
@[simp] theorem onQueue_dbg (q : Nat) (f : Queue → Queue) : (d.onQueue q f).dbg = d.dbg := rfl
@[simp] theorem onQueue_otp (q : Nat) (f : Queue → Queue) : (d.onQueue q f).otp = d.otp := rfl
@[simp] theorem onQueue_cycle (q : Nat) (f : Queue → Queue) : (d.onQueue q f).cycle = d.cycle := rfl
@[simp] theorem onQueue_free (q : Nat) (f : Queue → Queue) : (d.onQueue q f).free = d.free := rfl
@[simp] theorem onQueue_out (q : Nat) (f : Queue → Queue) : (d.onQueue q f).out = d.out := rfl

@[simp] theorem setCfg_clk (a : Nat) (v : Word) : (d.setCfg a v).clk = d.clk := rfl
@[simp] theorem setCfg_doms (a : Nat) (v : Word) : (d.setCfg a v).doms = d.doms := rfl
@[simp] theorem setCfg_rad (a : Nat) (v : Word) : (d.setCfg a v).rad = d.rad := rfl
@[simp] theorem setCfg_lant (a : Nat) (v : Word) : (d.setCfg a v).lant = d.lant := rfl
@[simp] theorem setCfg_time (a : Nat) (v : Word) : (d.setCfg a v).time = d.time := rfl
@[simp] theorem setCfg_ciph (a : Nat) (v : Word) : (d.setCfg a v).ciph = d.ciph := rfl
@[simp] theorem setCfg_pkt (a : Nat) (v : Word) : (d.setCfg a v).pkt = d.pkt := rfl
@[simp] theorem setCfg_lanes (a : Nat) (v : Word) : (d.setCfg a v).lanes = d.lanes := rfl
@[simp] theorem setCfg_mem (a : Nat) (v : Word) : (d.setCfg a v).mem = d.mem := rfl
@[simp] theorem setCfg_cv (a : Nat) (v : Word) : (d.setCfg a v).cv = d.cv := rfl
@[simp] theorem setCfg_ll (a : Nat) (v : Word) : (d.setCfg a v).ll = d.ll := rfl
@[simp] theorem setCfg_start (a : Nat) (v : Word) : (d.setCfg a v).start = d.start := rfl
@[simp] theorem setCfg_twin (a : Nat) (v : Word) : (d.setCfg a v).twin = d.twin := rfl
@[simp] theorem setCfg_pwr (a : Nat) (v : Word) : (d.setCfg a v).pwr = d.pwr := rfl
@[simp] theorem setCfg_keep (a : Nat) (v : Word) : (d.setCfg a v).keep = d.keep := rfl
@[simp] theorem setCfg_ev (a : Nat) (v : Word) : (d.setCfg a v).ev = d.ev := rfl
@[simp] theorem setCfg_log (a : Nat) (v : Word) : (d.setCfg a v).log = d.log := rfl
@[simp] theorem setCfg_tender (a : Nat) (v : Word) : (d.setCfg a v).tender = d.tender := rfl
@[simp] theorem setCfg_dbg (a : Nat) (v : Word) : (d.setCfg a v).dbg = d.dbg := rfl
@[simp] theorem setCfg_otp (a : Nat) (v : Word) : (d.setCfg a v).otp = d.otp := rfl
@[simp] theorem setCfg_cycle (a : Nat) (v : Word) : (d.setCfg a v).cycle = d.cycle := rfl
@[simp] theorem setCfg_free (a : Nat) (v : Word) : (d.setCfg a v).free = d.free := rfl
@[simp] theorem setCfg_out (a : Nat) (v : Word) : (d.setCfg a v).out = d.out := rfl

@[simp] theorem addCnt_clk (a n m : Nat) : (d.addCnt a n m).clk = d.clk := rfl
@[simp] theorem addCnt_doms (a n m : Nat) : (d.addCnt a n m).doms = d.doms := rfl
@[simp] theorem addCnt_rad (a n m : Nat) : (d.addCnt a n m).rad = d.rad := rfl
@[simp] theorem addCnt_lant (a n m : Nat) : (d.addCnt a n m).lant = d.lant := rfl
@[simp] theorem addCnt_time (a n m : Nat) : (d.addCnt a n m).time = d.time := rfl
@[simp] theorem addCnt_ciph (a n m : Nat) : (d.addCnt a n m).ciph = d.ciph := rfl
@[simp] theorem addCnt_pkt (a n m : Nat) : (d.addCnt a n m).pkt = d.pkt := rfl
@[simp] theorem addCnt_lanes (a n m : Nat) : (d.addCnt a n m).lanes = d.lanes := rfl
@[simp] theorem addCnt_mem (a n m : Nat) : (d.addCnt a n m).mem = d.mem := rfl
@[simp] theorem addCnt_cv (a n m : Nat) : (d.addCnt a n m).cv = d.cv := rfl
@[simp] theorem addCnt_ll (a n m : Nat) : (d.addCnt a n m).ll = d.ll := rfl
@[simp] theorem addCnt_start (a n m : Nat) : (d.addCnt a n m).start = d.start := rfl
@[simp] theorem addCnt_twin (a n m : Nat) : (d.addCnt a n m).twin = d.twin := rfl
@[simp] theorem addCnt_pwr (a n m : Nat) : (d.addCnt a n m).pwr = d.pwr := rfl
@[simp] theorem addCnt_keep (a n m : Nat) : (d.addCnt a n m).keep = d.keep := rfl
@[simp] theorem addCnt_ev (a n m : Nat) : (d.addCnt a n m).ev = d.ev := rfl
@[simp] theorem addCnt_log (a n m : Nat) : (d.addCnt a n m).log = d.log := rfl
@[simp] theorem addCnt_tender (a n m : Nat) : (d.addCnt a n m).tender = d.tender := rfl
@[simp] theorem addCnt_dbg (a n m : Nat) : (d.addCnt a n m).dbg = d.dbg := rfl
@[simp] theorem addCnt_otp (a n m : Nat) : (d.addCnt a n m).otp = d.otp := rfl
@[simp] theorem addCnt_free (a n m : Nat) : (d.addCnt a n m).free = d.free := rfl
@[simp] theorem addCnt_out (a n m : Nat) : (d.addCnt a n m).out = d.out := rfl

@[simp] theorem inc_clk (a : Nat) : (d.inc a).clk = d.clk := rfl
@[simp] theorem inc_doms (a : Nat) : (d.inc a).doms = d.doms := rfl
@[simp] theorem inc_rad (a : Nat) : (d.inc a).rad = d.rad := rfl
@[simp] theorem inc_lant (a : Nat) : (d.inc a).lant = d.lant := rfl
@[simp] theorem inc_time (a : Nat) : (d.inc a).time = d.time := rfl
@[simp] theorem inc_ciph (a : Nat) : (d.inc a).ciph = d.ciph := rfl
@[simp] theorem inc_pkt (a : Nat) : (d.inc a).pkt = d.pkt := rfl
@[simp] theorem inc_lanes (a : Nat) : (d.inc a).lanes = d.lanes := rfl
@[simp] theorem inc_mem (a : Nat) : (d.inc a).mem = d.mem := rfl
@[simp] theorem inc_cv (a : Nat) : (d.inc a).cv = d.cv := rfl
@[simp] theorem inc_ll (a : Nat) : (d.inc a).ll = d.ll := rfl
@[simp] theorem inc_start (a : Nat) : (d.inc a).start = d.start := rfl
@[simp] theorem inc_twin (a : Nat) : (d.inc a).twin = d.twin := rfl
@[simp] theorem inc_pwr (a : Nat) : (d.inc a).pwr = d.pwr := rfl
@[simp] theorem inc_keep (a : Nat) : (d.inc a).keep = d.keep := rfl
@[simp] theorem inc_ev (a : Nat) : (d.inc a).ev = d.ev := rfl
@[simp] theorem inc_log (a : Nat) : (d.inc a).log = d.log := rfl
@[simp] theorem inc_tender (a : Nat) : (d.inc a).tender = d.tender := rfl
@[simp] theorem inc_dbg (a : Nat) : (d.inc a).dbg = d.dbg := rfl
@[simp] theorem inc_otp (a : Nat) : (d.inc a).otp = d.otp := rfl
@[simp] theorem inc_free (a : Nat) : (d.inc a).free = d.free := rfl
@[simp] theorem inc_out (a : Nat) : (d.inc a).out = d.out := rfl

@[simp] theorem inc16_clk (a : Nat) : (d.inc16 a).clk = d.clk := rfl
@[simp] theorem inc16_doms (a : Nat) : (d.inc16 a).doms = d.doms := rfl
@[simp] theorem inc16_rad (a : Nat) : (d.inc16 a).rad = d.rad := rfl
@[simp] theorem inc16_lant (a : Nat) : (d.inc16 a).lant = d.lant := rfl
@[simp] theorem inc16_time (a : Nat) : (d.inc16 a).time = d.time := rfl
@[simp] theorem inc16_ciph (a : Nat) : (d.inc16 a).ciph = d.ciph := rfl
@[simp] theorem inc16_pkt (a : Nat) : (d.inc16 a).pkt = d.pkt := rfl
@[simp] theorem inc16_lanes (a : Nat) : (d.inc16 a).lanes = d.lanes := rfl
@[simp] theorem inc16_mem (a : Nat) : (d.inc16 a).mem = d.mem := rfl
@[simp] theorem inc16_cv (a : Nat) : (d.inc16 a).cv = d.cv := rfl
@[simp] theorem inc16_ll (a : Nat) : (d.inc16 a).ll = d.ll := rfl
@[simp] theorem inc16_start (a : Nat) : (d.inc16 a).start = d.start := rfl
@[simp] theorem inc16_twin (a : Nat) : (d.inc16 a).twin = d.twin := rfl
@[simp] theorem inc16_pwr (a : Nat) : (d.inc16 a).pwr = d.pwr := rfl
@[simp] theorem inc16_keep (a : Nat) : (d.inc16 a).keep = d.keep := rfl
@[simp] theorem inc16_ev (a : Nat) : (d.inc16 a).ev = d.ev := rfl
@[simp] theorem inc16_log (a : Nat) : (d.inc16 a).log = d.log := rfl
@[simp] theorem inc16_tender (a : Nat) : (d.inc16 a).tender = d.tender := rfl
@[simp] theorem inc16_dbg (a : Nat) : (d.inc16 a).dbg = d.dbg := rfl
@[simp] theorem inc16_otp (a : Nat) : (d.inc16 a).otp = d.otp := rfl
@[simp] theorem inc16_free (a : Nat) : (d.inc16 a).free = d.free := rfl
@[simp] theorem inc16_out (a : Nat) : (d.inc16 a).out = d.out := rfl

@[simp] theorem emit_clk (o : Output) : (d.emit o).clk = d.clk := rfl
@[simp] theorem emit_regs (o : Output) : (d.emit o).regs = d.regs := rfl
@[simp] theorem emit_doms (o : Output) : (d.emit o).doms = d.doms := rfl
@[simp] theorem emit_rad (o : Output) : (d.emit o).rad = d.rad := rfl
@[simp] theorem emit_lant (o : Output) : (d.emit o).lant = d.lant := rfl
@[simp] theorem emit_time (o : Output) : (d.emit o).time = d.time := rfl
@[simp] theorem emit_ciph (o : Output) : (d.emit o).ciph = d.ciph := rfl
@[simp] theorem emit_pkt (o : Output) : (d.emit o).pkt = d.pkt := rfl
@[simp] theorem emit_lanes (o : Output) : (d.emit o).lanes = d.lanes := rfl
@[simp] theorem emit_mem (o : Output) : (d.emit o).mem = d.mem := rfl
@[simp] theorem emit_cv (o : Output) : (d.emit o).cv = d.cv := rfl
@[simp] theorem emit_ll (o : Output) : (d.emit o).ll = d.ll := rfl
@[simp] theorem emit_start (o : Output) : (d.emit o).start = d.start := rfl
@[simp] theorem emit_twin (o : Output) : (d.emit o).twin = d.twin := rfl
@[simp] theorem emit_pwr (o : Output) : (d.emit o).pwr = d.pwr := rfl
@[simp] theorem emit_keep (o : Output) : (d.emit o).keep = d.keep := rfl
@[simp] theorem emit_ev (o : Output) : (d.emit o).ev = d.ev := rfl
@[simp] theorem emit_log (o : Output) : (d.emit o).log = d.log := rfl
@[simp] theorem emit_tender (o : Output) : (d.emit o).tender = d.tender := rfl
@[simp] theorem emit_dbg (o : Output) : (d.emit o).dbg = d.dbg := rfl
@[simp] theorem emit_otp (o : Output) : (d.emit o).otp = d.otp := rfl
@[simp] theorem emit_cycle (o : Output) : (d.emit o).cycle = d.cycle := rfl
@[simp] theorem emit_free (o : Output) : (d.emit o).free = d.free := rfl

@[simp] theorem freeNext_clk : (d.freeNext).clk = d.clk := rfl
@[simp] theorem freeNext_regs : (d.freeNext).regs = d.regs := rfl
@[simp] theorem freeNext_doms : (d.freeNext).doms = d.doms := rfl
@[simp] theorem freeNext_rad : (d.freeNext).rad = d.rad := rfl
@[simp] theorem freeNext_lant : (d.freeNext).lant = d.lant := rfl
@[simp] theorem freeNext_time : (d.freeNext).time = d.time := rfl
@[simp] theorem freeNext_ciph : (d.freeNext).ciph = d.ciph := rfl
@[simp] theorem freeNext_pkt : (d.freeNext).pkt = d.pkt := rfl
@[simp] theorem freeNext_lanes : (d.freeNext).lanes = d.lanes := rfl
@[simp] theorem freeNext_mem : (d.freeNext).mem = d.mem := rfl
@[simp] theorem freeNext_cv : (d.freeNext).cv = d.cv := rfl
@[simp] theorem freeNext_ll : (d.freeNext).ll = d.ll := rfl
@[simp] theorem freeNext_start : (d.freeNext).start = d.start := rfl
@[simp] theorem freeNext_twin : (d.freeNext).twin = d.twin := rfl
@[simp] theorem freeNext_pwr : (d.freeNext).pwr = d.pwr := rfl
@[simp] theorem freeNext_keep : (d.freeNext).keep = d.keep := rfl
@[simp] theorem freeNext_ev : (d.freeNext).ev = d.ev := rfl
@[simp] theorem freeNext_log : (d.freeNext).log = d.log := rfl
@[simp] theorem freeNext_tender : (d.freeNext).tender = d.tender := rfl
@[simp] theorem freeNext_dbg : (d.freeNext).dbg = d.dbg := rfl
@[simp] theorem freeNext_otp : (d.freeNext).otp = d.otp := rfl
@[simp] theorem freeNext_cycle : (d.freeNext).cycle = d.cycle := rfl
@[simp] theorem freeNext_out : (d.freeNext).out = d.out := rfl

@[simp] theorem begin_regs (t : Time) : (d.begin t).regs = d.regs := rfl
@[simp] theorem begin_doms (t : Time) : (d.begin t).doms = d.doms := rfl
@[simp] theorem begin_rad (t : Time) : (d.begin t).rad = d.rad := rfl
@[simp] theorem begin_lant (t : Time) : (d.begin t).lant = d.lant := rfl
@[simp] theorem begin_time (t : Time) : (d.begin t).time = d.time := rfl
@[simp] theorem begin_ciph (t : Time) : (d.begin t).ciph = d.ciph := rfl
@[simp] theorem begin_pkt (t : Time) : (d.begin t).pkt = d.pkt := rfl
@[simp] theorem begin_lanes (t : Time) : (d.begin t).lanes = d.lanes := rfl
@[simp] theorem begin_mem (t : Time) : (d.begin t).mem = d.mem := rfl
@[simp] theorem begin_cv (t : Time) : (d.begin t).cv = d.cv := rfl
@[simp] theorem begin_ll (t : Time) : (d.begin t).ll = d.ll := rfl
@[simp] theorem begin_start (t : Time) : (d.begin t).start = d.start := rfl
@[simp] theorem begin_twin (t : Time) : (d.begin t).twin = d.twin := rfl
@[simp] theorem begin_pwr (t : Time) : (d.begin t).pwr = d.pwr := rfl
@[simp] theorem begin_keep (t : Time) : (d.begin t).keep = d.keep := rfl
@[simp] theorem begin_ev (t : Time) : (d.begin t).ev = d.ev := rfl
@[simp] theorem begin_log (t : Time) : (d.begin t).log = d.log := rfl
@[simp] theorem begin_tender (t : Time) : (d.begin t).tender = d.tender := rfl
@[simp] theorem begin_dbg (t : Time) : (d.begin t).dbg = d.dbg := rfl
@[simp] theorem begin_otp (t : Time) : (d.begin t).otp = d.otp := rfl
@[simp] theorem begin_free (t : Time) : (d.begin t).free = d.free := rfl
@[simp] theorem begin_out (t : Time) : (d.begin t).out = [] := rfl
@[simp] theorem emit_out (o : Output) : (d.emit o).out = d.out ++ [o] := rfl
@[simp] theorem freeNext_free : d.freeNext.free = d.free + 1 := rfl

@[simp] theorem onDev_dev (f : Device → Device) : (s.onDev f).dev = f s.dev := rfl
@[simp] theorem onDev_pending (f : Device → Device) : (s.onDev f).pending = s.pending := rfl
theorem act_eq (t : Time) (f : Device → Device) : s.act t f = .next (s.onDev fun d => f (d.begin t)) := rfl

end Sys2Proof.Machine
end

