-- ==== Sys2Proof/Laws/Ops.lean ====
section
/-! SUPPORT. What the shared operations do: reading a map after a change, reading memory after a store, an access that is
refused or not, and all that raising an event changes. -/

namespace Sys2Proof.Machine

/-! ## Sparse maps -/

section Tab
variable {α : Type} {dflt v : α} {k j : Nat}

theorem Tab.get_put_self : ∀ {t : Tab α}, Tab.get (Tab.put t k v) dflt k = v
  | [] => by simp [Tab.put, Tab.get]
  | (k', v') :: r => by
    unfold Tab.put
    split
    · simp [Tab.get]
    · split
      · simp [Tab.get]
      · rename_i e; simp [Tab.get, e, Tab.get_put_self (t := r)]

theorem Tab.get_put_other (h : j ≠ k) : ∀ {t : Tab α}, Tab.get (Tab.put t k v) dflt j = Tab.get t dflt j
  | [] => by simp [Tab.put, Tab.get, Ne.symm h]
  | (k', v') :: r => by
    unfold Tab.put
    split
    · simp [Tab.get, Ne.symm h]
    · split
      · rename_i e; subst e; simp [Tab.get, Ne.symm h]
      · simp [Tab.get, Tab.get_put_other h (t := r)]

theorem Tab.get_del_other (h : j ≠ k) : ∀ {t : Tab α}, Tab.get (Tab.del t k) dflt j = Tab.get t dflt j
  | [] => rfl
  | (k', v') :: r => by
    unfold Tab.del
    split
    · rename_i e; subst e; simp [Tab.get, Ne.symm h]
    · simp [Tab.get, Tab.get_del_other h (t := r)]

/-- No entry lies below the bound of a canonical rest. -/
theorem Tab.get_below [DecidableEq α] {f : Nat → α} : ∀ {t : Tab α} {a : Nat}, Tab.wfFrom a f t = true → j < a → Tab.get t dflt j = dflt
  | [], _, _, _ => rfl
  | (k', v') :: r, a, w, h => by
    simp only [Tab.wfFrom, Bool.and_eq_true, decide_eq_true_eq] at w
    have : k' ≠ j := by omega
    simp [Tab.get, this, Tab.get_below w.2 (show j < k' + 1 by omega)]

theorem Tab.get_del_self [DecidableEq α] {f : Nat → α} : ∀ {t : Tab α} {a : Nat}, Tab.wfFrom a f t = true → Tab.get (Tab.del t k) dflt k = dflt
  | [], _, _ => rfl
  | (k', v') :: r, a, w => by
    simp only [Tab.wfFrom, Bool.and_eq_true, decide_eq_true_eq] at w
    unfold Tab.del
    split
    · rename_i e; subst e; exact Tab.get_below w.2 (Nat.lt_succ_self _)
    · rename_i e; simp [Tab.get, e, Tab.get_del_self w.2]

theorem Tab.get_set_self [DecidableEq α] {f : Nat → α} {t : Tab α} {a : Nat} (w : Tab.wfFrom a f t = true) : Tab.get (Tab.set t dflt k v) dflt k = v := by
  unfold Tab.set; split
  · rename_i e; rw [Tab.get_del_self w, e]
  · exact Tab.get_put_self

theorem Tab.get_set_other [DecidableEq α] {t : Tab α} (h : j ≠ k) : Tab.get (Tab.set t dflt k v) dflt j = Tab.get t dflt j := by
  unfold Tab.set; split
  · exact Tab.get_del_other h
  · exact Tab.get_put_other h

end Tab

/-! ## Memory -/

theorem readByte_writeByte_self {m : List Host.Cell} {a : Nat} {v : Byte} (w : Memory.wf m = true) : readByte (writeByte m a v) a = v :=
  Tab.get_set_self w

theorem readByte_writeByte_other {m : List Host.Cell} {a j : Nat} {v : Byte} (h : j ≠ a) : readByte (writeByte m a v) j = readByte m j :=
  Tab.get_set_other h

/-- A store leaves every byte outside it. -/
theorem readByte_writeBytes_out : ∀ {b : Bytes} {m : List Host.Cell} {a j : Nat}, j < a ∨ a + b.length ≤ j → readByte (writeBytes m a b) j = readByte m j
  | [], _, _, _, _ => rfl
  | v :: r, m, a, j, h => by
    have h' : j < a + 1 ∨ a + 1 + r.length ≤ j := by simp only [List.length_cons] at h; omega
    have e : j ≠ a := by simp only [List.length_cons] at h; omega
    rw [writeBytes, readByte_writeBytes_out h', readByte_writeByte_other e]

/-- A store puts its bytes at rising addresses. -/
theorem readByte_writeBytes_in : ∀ {b : Bytes} {m : List Host.Cell} {a i : Nat} (_ : Memory.wf m = true) (h : i < b.length),
    readByte (writeBytes m a b) (a + i) = b[i]
  | v :: r, m, a, 0, w, _ => by
    show readByte (writeBytes (writeByte m a v) (a + 1) r) a = v
    rw [readByte_writeBytes_out (Or.inl (Nat.lt_succ_self a)), readByte_writeByte_self w]
  | v :: r, m, a, i + 1, w, h => by
    rw [writeBytes, show a + (i + 1) = a + 1 + i by omega, readByte_writeBytes_in (writeByte_wf m a v w) (by simpa using h)]
    rfl

theorem beBytes_length : ∀ n v, (beBytes n v).length = n
  | 0, _ => rfl
  | n + 1, v => by simp [beBytes, beBytes_length n v]

/-! ## Accesses (R11, R14) -/

theorem access_admitted {d : Device} {req addr width : Nat} {f : Device → Device} (h : d.refusal req addr width = none) :
    d.access req addr width f = f d := by unfold Device.access; rw [h]

theorem access_refused {d : Device} {req addr width : Nat} {f : Device → Device} {x : Word} (h : d.refusal req addr width = some x) :
    d.access req addr width f = d.raise 26 x := by unfold Device.access; rw [h]

theorem keeperAccess_admitted {d : Device} {addr : Nat} {f : Device → Device} (h : d.Admits addr) : d.keeperAccess addr f = f d :=
  access_admitted h

/-! ## Raising an event changes the events and the Log unit, and nothing else (R354) -/

section Raise
variable {d : Device} {ev : Nat} {detail : Word} {x : EvEntry} {b : Bool}

@[simp] theorem evMark_clk : (d.evMark ev).clk = d.clk := rfl
@[simp] theorem evMark_regs : (d.evMark ev).regs = d.regs := rfl
@[simp] theorem evMark_doms : (d.evMark ev).doms = d.doms := rfl
@[simp] theorem evMark_rad : (d.evMark ev).rad = d.rad := rfl
@[simp] theorem evMark_lant : (d.evMark ev).lant = d.lant := rfl
@[simp] theorem evMark_time : (d.evMark ev).time = d.time := rfl
@[simp] theorem evMark_ciph : (d.evMark ev).ciph = d.ciph := rfl
@[simp] theorem evMark_pkt : (d.evMark ev).pkt = d.pkt := rfl
@[simp] theorem evMark_lanes : (d.evMark ev).lanes = d.lanes := rfl
@[simp] theorem evMark_mem : (d.evMark ev).mem = d.mem := rfl
@[simp] theorem evMark_cv : (d.evMark ev).cv = d.cv := rfl
@[simp] theorem evMark_ll : (d.evMark ev).ll = d.ll := rfl
@[simp] theorem evMark_start : (d.evMark ev).start = d.start := rfl
@[simp] theorem evMark_twin : (d.evMark ev).twin = d.twin := rfl
@[simp] theorem evMark_pwr : (d.evMark ev).pwr = d.pwr := rfl
@[simp] theorem evMark_keep : (d.evMark ev).keep = d.keep := rfl
@[simp] theorem evMark_log : (d.evMark ev).log = d.log := rfl
@[simp] theorem evMark_tender : (d.evMark ev).tender = d.tender := rfl
@[simp] theorem evMark_dbg : (d.evMark ev).dbg = d.dbg := rfl
@[simp] theorem evMark_otp : (d.evMark ev).otp = d.otp := rfl
@[simp] theorem evMark_free : (d.evMark ev).free = d.free := rfl
@[simp] theorem evMark_out : (d.evMark ev).out = d.out := rfl

@[simp] theorem evPush_clk : (d.evPush x).clk = d.clk := by unfold Device.evPush; dsimp only; split <;> [simp; (split <;> simp)]
@[simp] theorem evPush_regs : (d.evPush x).regs = d.regs := by unfold Device.evPush; dsimp only; split <;> [simp; (split <;> simp)]
@[simp] theorem evPush_doms : (d.evPush x).doms = d.doms := by unfold Device.evPush; dsimp only; split <;> [simp; (split <;> simp)]
@[simp] theorem evPush_rad : (d.evPush x).rad = d.rad := by unfold Device.evPush; dsimp only; split <;> [simp; (split <;> simp)]
@[simp] theorem evPush_lant : (d.evPush x).lant = d.lant := by unfold Device.evPush; dsimp only; split <;> [simp; (split <;> simp)]
@[simp] theorem evPush_time : (d.evPush x).time = d.time := by unfold Device.evPush; dsimp only; split <;> [simp; (split <;> simp)]
@[simp] theorem evPush_ciph : (d.evPush x).ciph = d.ciph := by unfold Device.evPush; dsimp only; split <;> [simp; (split <;> simp)]
@[simp] theorem evPush_pkt : (d.evPush x).pkt = d.pkt := by unfold Device.evPush; dsimp only; split <;> [simp; (split <;> simp)]
@[simp] theorem evPush_lanes : (d.evPush x).lanes = d.lanes := by unfold Device.evPush; dsimp only; split <;> [simp; (split <;> simp)]
@[simp] theorem evPush_mem : (d.evPush x).mem = d.mem := by unfold Device.evPush; dsimp only; split <;> [simp; (split <;> simp)]
@[simp] theorem evPush_cv : (d.evPush x).cv = d.cv := by unfold Device.evPush; dsimp only; split <;> [simp; (split <;> simp)]
@[simp] theorem evPush_ll : (d.evPush x).ll = d.ll := by unfold Device.evPush; dsimp only; split <;> [simp; (split <;> simp)]
@[simp] theorem evPush_start : (d.evPush x).start = d.start := by unfold Device.evPush; dsimp only; split <;> [simp; (split <;> simp)]
@[simp] theorem evPush_twin : (d.evPush x).twin = d.twin := by unfold Device.evPush; dsimp only; split <;> [simp; (split <;> simp)]
@[simp] theorem evPush_pwr : (d.evPush x).pwr = d.pwr := by unfold Device.evPush; dsimp only; split <;> [simp; (split <;> simp)]
@[simp] theorem evPush_keep : (d.evPush x).keep = d.keep := by unfold Device.evPush; dsimp only; split <;> [simp; (split <;> simp)]
@[simp] theorem evPush_log : (d.evPush x).log = d.log := by unfold Device.evPush; dsimp only; split <;> [simp; (split <;> simp)]
@[simp] theorem evPush_tender : (d.evPush x).tender = d.tender := by unfold Device.evPush; dsimp only; split <;> [simp; (split <;> simp)]
@[simp] theorem evPush_dbg : (d.evPush x).dbg = d.dbg := by unfold Device.evPush; dsimp only; split <;> [simp; (split <;> simp)]
@[simp] theorem evPush_otp : (d.evPush x).otp = d.otp := by unfold Device.evPush; dsimp only; split <;> [simp; (split <;> simp)]
@[simp] theorem evPush_free : (d.evPush x).free = d.free := by unfold Device.evPush; dsimp only; split <;> [simp; (split <;> simp)]
@[simp] theorem evPush_out : (d.evPush x).out = d.out := by unfold Device.evPush; dsimp only; split <;> [simp; (split <;> simp)]

@[simp] theorem evEntry_clk : (d.evEntry x b).clk = d.clk := by unfold Device.evEntry; dsimp only; split <;> simp [Device.logReq]
@[simp] theorem evEntry_regs : (d.evEntry x b).regs = d.regs := by unfold Device.evEntry; dsimp only; split <;> simp [Device.logReq]
@[simp] theorem evEntry_doms : (d.evEntry x b).doms = d.doms := by unfold Device.evEntry; dsimp only; split <;> simp [Device.logReq]
@[simp] theorem evEntry_rad : (d.evEntry x b).rad = d.rad := by unfold Device.evEntry; dsimp only; split <;> simp [Device.logReq]
@[simp] theorem evEntry_lant : (d.evEntry x b).lant = d.lant := by unfold Device.evEntry; dsimp only; split <;> simp [Device.logReq]
@[simp] theorem evEntry_time : (d.evEntry x b).time = d.time := by unfold Device.evEntry; dsimp only; split <;> simp [Device.logReq]
@[simp] theorem evEntry_ciph : (d.evEntry x b).ciph = d.ciph := by unfold Device.evEntry; dsimp only; split <;> simp [Device.logReq]
@[simp] theorem evEntry_pkt : (d.evEntry x b).pkt = d.pkt := by unfold Device.evEntry; dsimp only; split <;> simp [Device.logReq]
@[simp] theorem evEntry_lanes : (d.evEntry x b).lanes = d.lanes := by unfold Device.evEntry; dsimp only; split <;> simp [Device.logReq]
@[simp] theorem evEntry_mem : (d.evEntry x b).mem = d.mem := by unfold Device.evEntry; dsimp only; split <;> simp [Device.logReq]
@[simp] theorem evEntry_cv : (d.evEntry x b).cv = d.cv := by unfold Device.evEntry; dsimp only; split <;> simp [Device.logReq]
@[simp] theorem evEntry_ll : (d.evEntry x b).ll = d.ll := by unfold Device.evEntry; dsimp only; split <;> simp [Device.logReq]
@[simp] theorem evEntry_start : (d.evEntry x b).start = d.start := by unfold Device.evEntry; dsimp only; split <;> simp [Device.logReq]
@[simp] theorem evEntry_twin : (d.evEntry x b).twin = d.twin := by unfold Device.evEntry; dsimp only; split <;> simp [Device.logReq]
@[simp] theorem evEntry_pwr : (d.evEntry x b).pwr = d.pwr := by unfold Device.evEntry; dsimp only; split <;> simp [Device.logReq]
@[simp] theorem evEntry_keep : (d.evEntry x b).keep = d.keep := by unfold Device.evEntry; dsimp only; split <;> simp [Device.logReq]
@[simp] theorem evEntry_tender : (d.evEntry x b).tender = d.tender := by unfold Device.evEntry; dsimp only; split <;> simp [Device.logReq]
@[simp] theorem evEntry_dbg : (d.evEntry x b).dbg = d.dbg := by unfold Device.evEntry; dsimp only; split <;> simp [Device.logReq]
@[simp] theorem evEntry_otp : (d.evEntry x b).otp = d.otp := by unfold Device.evEntry; dsimp only; split <;> simp [Device.logReq]
@[simp] theorem evEntry_free : (d.evEntry x b).free = d.free := by unfold Device.evEntry; dsimp only; split <;> simp [Device.logReq]
@[simp] theorem evEntry_out : (d.evEntry x b).out = d.out := by unfold Device.evEntry; dsimp only; split <;> simp [Device.logReq]

@[simp] theorem evAccept_clk : (d.evAccept ev detail b).clk = d.clk := by unfold Device.evAccept; split <;> simp
@[simp] theorem evAccept_regs : (d.evAccept ev detail b).regs = d.regs := by unfold Device.evAccept; split <;> simp
@[simp] theorem evAccept_doms : (d.evAccept ev detail b).doms = d.doms := by unfold Device.evAccept; split <;> simp
@[simp] theorem evAccept_rad : (d.evAccept ev detail b).rad = d.rad := by unfold Device.evAccept; split <;> simp
@[simp] theorem evAccept_lant : (d.evAccept ev detail b).lant = d.lant := by unfold Device.evAccept; split <;> simp
@[simp] theorem evAccept_time : (d.evAccept ev detail b).time = d.time := by unfold Device.evAccept; split <;> simp
@[simp] theorem evAccept_ciph : (d.evAccept ev detail b).ciph = d.ciph := by unfold Device.evAccept; split <;> simp
@[simp] theorem evAccept_pkt : (d.evAccept ev detail b).pkt = d.pkt := by unfold Device.evAccept; split <;> simp
@[simp] theorem evAccept_lanes : (d.evAccept ev detail b).lanes = d.lanes := by unfold Device.evAccept; split <;> simp
@[simp] theorem evAccept_mem : (d.evAccept ev detail b).mem = d.mem := by unfold Device.evAccept; split <;> simp
@[simp] theorem evAccept_cv : (d.evAccept ev detail b).cv = d.cv := by unfold Device.evAccept; split <;> simp
@[simp] theorem evAccept_ll : (d.evAccept ev detail b).ll = d.ll := by unfold Device.evAccept; split <;> simp
@[simp] theorem evAccept_start : (d.evAccept ev detail b).start = d.start := by unfold Device.evAccept; split <;> simp
@[simp] theorem evAccept_twin : (d.evAccept ev detail b).twin = d.twin := by unfold Device.evAccept; split <;> simp
@[simp] theorem evAccept_pwr : (d.evAccept ev detail b).pwr = d.pwr := by unfold Device.evAccept; split <;> simp
@[simp] theorem evAccept_keep : (d.evAccept ev detail b).keep = d.keep := by unfold Device.evAccept; split <;> simp
@[simp] theorem evAccept_tender : (d.evAccept ev detail b).tender = d.tender := by unfold Device.evAccept; split <;> simp
@[simp] theorem evAccept_dbg : (d.evAccept ev detail b).dbg = d.dbg := by unfold Device.evAccept; split <;> simp
@[simp] theorem evAccept_otp : (d.evAccept ev detail b).otp = d.otp := by unfold Device.evAccept; split <;> simp
@[simp] theorem evAccept_free : (d.evAccept ev detail b).free = d.free := by unfold Device.evAccept; split <;> simp
@[simp] theorem evAccept_out : (d.evAccept ev detail b).out = d.out := by unfold Device.evAccept; split <;> simp

@[simp] theorem raise_clk : (d.raise ev detail).clk = d.clk := by unfold Device.raise; split <;> [simp; skip]; split <;> [simp; skip]; split <;> simp
@[simp] theorem raise_regs : (d.raise ev detail).regs = d.regs := by unfold Device.raise; split <;> [simp; skip]; split <;> [simp; skip]; split <;> simp
@[simp] theorem raise_doms : (d.raise ev detail).doms = d.doms := by unfold Device.raise; split <;> [simp; skip]; split <;> [simp; skip]; split <;> simp
@[simp] theorem raise_rad : (d.raise ev detail).rad = d.rad := by unfold Device.raise; split <;> [simp; skip]; split <;> [simp; skip]; split <;> simp
@[simp] theorem raise_lant : (d.raise ev detail).lant = d.lant := by unfold Device.raise; split <;> [simp; skip]; split <;> [simp; skip]; split <;> simp
@[simp] theorem raise_time : (d.raise ev detail).time = d.time := by unfold Device.raise; split <;> [simp; skip]; split <;> [simp; skip]; split <;> simp
@[simp] theorem raise_ciph : (d.raise ev detail).ciph = d.ciph := by unfold Device.raise; split <;> [simp; skip]; split <;> [simp; skip]; split <;> simp
@[simp] theorem raise_pkt : (d.raise ev detail).pkt = d.pkt := by unfold Device.raise; split <;> [simp; skip]; split <;> [simp; skip]; split <;> simp
@[simp] theorem raise_lanes : (d.raise ev detail).lanes = d.lanes := by unfold Device.raise; split <;> [simp; skip]; split <;> [simp; skip]; split <;> simp
@[simp] theorem raise_mem : (d.raise ev detail).mem = d.mem := by unfold Device.raise; split <;> [simp; skip]; split <;> [simp; skip]; split <;> simp
@[simp] theorem raise_cv : (d.raise ev detail).cv = d.cv := by unfold Device.raise; split <;> [simp; skip]; split <;> [simp; skip]; split <;> simp
@[simp] theorem raise_ll : (d.raise ev detail).ll = d.ll := by unfold Device.raise; split <;> [simp; skip]; split <;> [simp; skip]; split <;> simp
@[simp] theorem raise_start : (d.raise ev detail).start = d.start := by unfold Device.raise; split <;> [simp; skip]; split <;> [simp; skip]; split <;> simp
@[simp] theorem raise_twin : (d.raise ev detail).twin = d.twin := by unfold Device.raise; split <;> [simp; skip]; split <;> [simp; skip]; split <;> simp
@[simp] theorem raise_pwr : (d.raise ev detail).pwr = d.pwr := by unfold Device.raise; split <;> [simp; skip]; split <;> [simp; skip]; split <;> simp
@[simp] theorem raise_keep : (d.raise ev detail).keep = d.keep := by unfold Device.raise; split <;> [simp; skip]; split <;> [simp; skip]; split <;> simp
@[simp] theorem raise_tender : (d.raise ev detail).tender = d.tender := by unfold Device.raise; split <;> [simp; skip]; split <;> [simp; skip]; split <;> simp
@[simp] theorem raise_dbg : (d.raise ev detail).dbg = d.dbg := by unfold Device.raise; split <;> [simp; skip]; split <;> [simp; skip]; split <;> simp
@[simp] theorem raise_otp : (d.raise ev detail).otp = d.otp := by unfold Device.raise; split <;> [simp; skip]; split <;> [simp; skip]; split <;> simp
@[simp] theorem raise_free : (d.raise ev detail).free = d.free := by unfold Device.raise; split <;> [simp; skip]; split <;> [simp; skip]; split <;> simp
@[simp] theorem raise_out : (d.raise ev detail).out = d.out := by unfold Device.raise; split <;> [simp; skip]; split <;> [simp; skip]; split <;> simp

end Raise

end Sys2Proof.Machine
end

