-- ==== Sys2Proof/WellFormed.lean ====
section
/-! DEFINITION. Which commands can come from outside at all: the operands of a happening lie in the ranges
that the rule of its row gives them. `exec` does not ask; a statement that needs a range says so. -/

namespace Sys2Proof

/-- One byte lane's eyes are counted in 1/64 UI and do not exceed a whole UI (R246). -/
def LaneEye.wf (e : LaneEye) : Bool := decide (e.rd ≤ 64 ∧ e.wr ≤ 64)

/-- A start trains or restores the eight byte lanes in every run (R246). -/
def TrainRun.wf (r : TrainRun) : Bool := r.length == 8 && r.all LaneEye.wf

/-- A Sesia frame holds 1 to 16,383 bytes, by the 14-bit length of its header (Table 3.6). -/
def frameWf (data : Bytes) : Bool := decide (1 ≤ data.length ∧ data.length ≤ 16383)

/-- The access to a register names a requester of Table 11.2, a 4-bit code, a 34-bit address and a width
of 1, 2, 4 or 8 bytes. -/
def accessWf (req addr width : Nat) : Bool :=
  decide (req < 16 ∧ addr < 2 ^ 34) && [1, 2, 4, 8].contains width

/-- The well-formed commands. -/
def Instr.wf : Instr → Bool
  | .registerWrite _ req addr width _ => accessWf req addr width
  | .rcRead _ req addr width => accessWf req addr width
  | .lowWordRead _ req addr width => accessWf req addr width
  | .keeperImmediateTx _ _ rate cls _ data => frameWf data && decide (rate ≤ 0x17 ∧ cls ≤ 7)
  | .headerReceived _ _ _ soft => soft.length == 32
  | .frame154Rx _ phr psdu _ _ _ => decide (psdu.length = phr.toNat % 128)
  | .frame154TxRequest _ ch _ phr psdu => decide (11 ≤ ch ∧ ch ≤ 26 ∧ psdu.length = phr.toNat % 128)
  | .bringUp _ runs => runs.all TrainRun.wf
  | .wakeExit _ runs => runs.all TrainRun.wf
  | .sramScrub _ blk _ _ _ => decide (blk.val ≤ 6)
  | .prbsCheckerSync _ _ bits => decide (bits.length < 2 ^ 48)
  | .cvStart _ req _ => decide (req < 16)
  | .cvData _ req _ _ => decide (req < 16)
  | .cvStateWrite _ req _ _ => decide (req < 16)
  | .dramRequest _ req addr _ data =>
    decide (req ≤ 6 ∧ 0x200000000 ≤ addr ∧ addr < 0x400000000 ∧ data.all (fun x => x.length = 64))
  | .vinRise _ mv => decide (mv ≤ 60000)
  | .brownout _ mv => decide (mv < 7200)
  | .ladderRequest _ d step => decide (d < 10 ∧ step ≤ 7)
  | _ => true

end Sys2Proof
end

