-- ==== Sys2Proof/Tests/Slice0.lean ====
section
/-! SUPPORT. The model's own tests. First the well-formedness checks, each with a command it refuses; then values that the
specification prints; then, for every statement that has hypotheses, a witness: states and operands that meet those of its
clauses. -/

-- One theorem at a time: in the package as one text many would otherwise wait at once, each on a thread of its own.
set_option Elab.async false

namespace Sys2Proof.Tests

open Sys2Proof.Machine

/-! ## Well-formed commands -/

theorem test_wf_access_width : Instr.wf (.registerWrite 0 0 0x10000000 3 0) = false := by decide
theorem test_wf_access_requester : Instr.wf (.rcRead 0 16 0x10000000 4) = false := by decide
theorem test_wf_access_address : Instr.wf (.lowWordRead 0 0 0x400000000 4) = false := by decide
theorem test_wf_access : Instr.wf (.registerWrite 0 0 0x10000000 4 0) = true := by decide
theorem test_wf_frame_length : Instr.wf (.keeperImmediateTx 0 .l 15 0 0 []) = false := by decide
theorem test_wf_immediate_rate : Instr.wf (.keeperImmediateTx 0 .h 0x18 0 0 [0]) = false := by decide
theorem test_wf_immediate_rate_h : Instr.wf (.keeperImmediateTx 0 .h 0x17 0 0 [0]) = true := by decide
theorem test_wf_header_bits : Instr.wf (.headerReceived 0 .l 0 []) = false := by decide
theorem test_wf_154_length : Instr.wf (.frame154Rx 0 2 [0] true 0 0) = false := by decide
theorem test_wf_154_channel : Instr.wf (.frame154TxRequest 0 10 0 1 [0]) = false := by decide
theorem test_wf_training_lanes : Instr.wf (.bringUp 0 [[]]) = false := by decide
theorem test_wf_wake_training_lanes : Instr.wf (.wakeExit 0 [[]]) = false := by decide
theorem test_wf_scrub_block : Instr.wf (.sramScrub 0 6 .l 0 .clean) = true := by decide
theorem test_wf_prbs_bits : Instr.wf (.prbsCheckerSync 0 0 [true]) = true := by decide
theorem test_wf_check_requester : Instr.wf (.cvStart 0 16 0) = false := by decide
theorem test_wf_dram_address : Instr.wf (.dramRequest 0 0 0 false none) = false := by decide
theorem test_wf_supply : Instr.wf (.vinRise 0 60001) = false := by decide
theorem test_wf_brownout : Instr.wf (.brownout 0 7200) = false := by decide
theorem test_wf_ladder_domain : Instr.wf (.ladderRequest 0 10 0) = false := by decide
theorem test_wf_any_event : Instr.wf (.idcode 0) = true := by decide
theorem test_decode_none : decodeTableWord 32 0x12345678 = none := by decide

/-! ## Values that the specification prints -/

/-- The header of the example beside R59: an L-400 frame of 64 bytes. -/
theorem test_header_check : crc8 0x180400D3 = 0xD3 ∧ hdrOk 0x180400D3 = true ∧ hdrOk 0x180400D2 = false := by decide +kernel

/-- The example beside R255: a check of width 10 over C3 and 5A, whole and resumed. -/
theorem test_check_unit :
    cvFeed 10 0x233 false 0x3FF [0xC3] = 0x2CB ∧ cvFeed 10 0x233 false 0x2CB [0x5A] = 0x12F ∧
      cvFeed 10 0x233 false 0x3FF [0xC3, 0x5A] = 0x12F := by decide

/-- At L-400 the minimal REPLY of 20 bytes lasts 1,120 µs (chapter 4) and a frame of 64 bytes 2,000 µs (Table 3.7). -/
theorem test_minimal_reply_duration : frameQ .l (rateClassL 6) 6 20 = 1120 * qPerUs ∧ frameQ .l (rateClassL 6) 6 64 = 2000 * qPerUs := by decide

/-- The worked example of chapter 10: 2030-03-01T00:00:00 UTC. -/
theorem test_utc_seconds : utcSeconds 2030 3 1 [0x30, 0x30, 0x30, 0x30, 0x30, 0x30] = some 951868800 := by decide

/-- The worked example of chapter 6: the MAC header and the counter block of a protected report, and its CMAC blocks. -/
theorem test_protected_report :
    macHeader 1 0 true 0x0A17 false 0x142 = 0x1542E142 ∧ ctrPrefix 0x0A17 .l false 0x142 = [0x0A, 0x17, 0, 0, 0, 0, 1, 0x42, 0, 0, 0, 0] ∧
      cmacBlocks 60 = 4 := by decide

/-- FIPS 197, appendix C.1: AES-128 of the counting key and the doubled nibbles. -/
theorem test_aes : aes 0x000102030405060708090A0B0C0D0E0F 0x00112233445566778899AABBCCDDEEFF = 0x69C4E0D86A7B0430D8CDB78070B4C55A := by
  decide +kernel

/-! ## The states of the witnesses -/

/-- Every domain in this state, the device powered and started. -/
def allIn (st : Nat) : State :=
  let doms := (List.range 10).map fun n => (n, { Domain.reset with st := st })
  { State.reset with dev := ({ State.reset.dev with doms := doms } : Device).onStart fun s => { s with powered := true, stage := stageDone } }

/-- Every domain READY. -/
def up : State := allIn 3

/-- `up` with its device changed. -/
def upWith (f : Device → Device) : State := { up with dev := f up.dev }

/-- The device that a command of this instant meets in `upWith f`. -/
def met (t : Time) (f : Device → Device) : Device := (upWith f).seen t

/-- A Keeper access to these addresses is admitted. -/
def admitted (s : State) (l : List Nat) : Bool := l.all fun a => (s.seen 0).refusal 0 a 4 == none

/-- A register of a READY domain can be accessed. -/
theorem witness_admits :
    admitted up [Reg.CIPH_KDF_CMD, Reg.LANT_PLAN_CMD, Reg.LANT_PROFILE_CMD, Reg.PKT_LEARN_POP, Reg.LANE_TS_POP, Reg.KEEP_EV_OCC,
      Reg.PKT_TBL_CMD, Reg.PKT_GEN_CMD, Reg.PKT_GATE_DATA, Reg.PKT_MTR_CMD, Reg.LANE_RNG_CMD, Reg.KEEP_LL_RELOAD_CMD,
      Reg.MOOR_TWIN_CMD, Reg.MOOR_PWR_CMD, Reg.MOOR_PAD_RELEASE, Reg.KEEP_EV_POP, Reg.KEEP_LOG_CMD, Reg.MOOR_WATCH_KICK,
      Reg.MOOR_LADDER_CMD] = true := by decide

/-- So can each register of a numbered group. -/
theorem witness_admits_groups :
    admitted up ((List.range 10).map Reg.DOM_SNAP ++ [Band.l, .m, .h].map Reg.RAD_CAL_CMD ++ [Band.l, .m, .h].map openReg
      ++ (List.range 6).map Reg.PKT_GATE_CTRL ++ (List.range 8).map Reg.LANE_TEST ++ (List.range 2).map Reg.LANT_DOM_FEED_HI
      ++ (List.range 4).map Reg.CV_CMD ++ (List.range 4).map Reg.CV_DATA ++ (List.range 4).map Reg.CV_STATE_HI
      ++ (List.range 8).map Reg.KEEP_EV_PEND) = true := by decide

/-! ## Witnesses: the whole machine, registers and memory -/

theorem witness_StepIdlesOnAnEmptyQueue : State.reset.pending = [] := rfl

/-- A sound state with a command waiting, which runs. -/
theorem witness_EveryStepKeepsSoundness :
    State.Sound { State.reset with pending := [.idcode 0] } ∧ ∃ s', step { State.reset with pending := [.idcode 0] } = .next s' :=
  ⟨⟨rfl, by decide, by decide⟩, _, rfl⟩

theorem witness_OnlyABusHoleStopsACommand :
    busWindow 0x20000000 = none ∧ busWindow 0x10000000 ≠ none ∧ up.dev.dbgHole 1 0x10000000 = false ∧
      (upWith fun d => d.onDbg fun k => { k with unlocked := true }).dev.dbgHole 1 0x20000000 = true := by decide

theorem witness_OtherCommandsStoreNothing : Instr.mayStore (.idcode 0) = false ∧ ∃ s', exec (.idcode 0) State.reset = .next s' :=
  ⟨rfl, _, rfl⟩

/-- D1 is in RESET after reset: Keeper's access is refused, with bit 31 of the detail set (Table 17.10). -/
theorem witness_RefusedAccessesRaiseEv026 :
    Instr.keeperReg (.evPop 0) = some (0, 0, Reg.KEEP_EV_POP) ∧
      (State.reset.seen 0).refusal 0 Reg.KEEP_EV_POP 4 = some (w32 (0x80000000 + (Reg.KEEP_EV_POP - 0x10000000))) := by decide

theorem witness_RegisterWrites :
    busWindow 0x20000000 = none ∧ busWindow Reg.KEEP_EV_POP = some 2 ∧
      (State.reset.seen 0).refusal 0 Reg.KEEP_EV_POP 4 = some (w32 (0x80000000 + (Reg.KEEP_EV_POP - 0x10000000))) ∧
      busWindow 0x1000FFFC = some 2 ∧ (up.seen 0).refusal 0 0x1000FFFC 4 = none ∧ regAt 0x1000FFFC = none ∧
      (up.seen 0).refusal 0 Reg.KEEP_EV_POP 4 = none ∧ (regAt Reg.KEEP_EV_POP).isSome = true ∧
      (up.seen 0).refusal 0 (Reg.CV_CMD 0) 4 = none ∧ ((regAt (Reg.CV_CMD 0)).any fun x => (cvOpAt x.1.off 1).isSome) = true := by decide

theorem witness_MemoryWrites :
    Memory.wf up.dev.mem.bytes = true ∧ busWindow 0 = some 0 ∧ busWindow 0x0003FFFF = some 0 ∧ busWindow 0x01000000 = some 1 ∧
      busWindow 0x011FFFFF = some 1 ∧ busWindow 0x200000000 = some 3 ∧ busWindow 0x3FFFFFFFF = some 3 := by decide

/-- A counter, without and with a snapshot in progress, and a 64-bit register. -/
theorem witness_CountersAndLowWords :
    (up.seen 0).refusal 0 Reg.LANE_RNG_CRC_CNT 4 = none ∧
      (∃ r i, regAt Reg.LANE_RNG_CRC_CNT = some (r, i) ∧ r.kind = 0 ∧ 0 < r.rcMax) ∧
      bitOf (up.seen 0).regs.snap (cntDom ((up.seen 0).cntAt Reg.LANE_RNG_CRC_CNT)) = false ∧
      bitOf (met 0 fun d => { d with regs := { d.regs with snap := 0x3FF } }).regs.snap
        (cntDom ((up.seen 0).cntAt Reg.LANE_RNG_CRC_CNT)) = true ∧
      (up.seen 0).refusal 0 0x11050260 4 = none ∧ (∃ r i, regAt 0x11050260 = some (r, i) ∧ r.kind = 1 ∧ r.rcMax = 0) :=
  ⟨by decide, ⟨_, _, rfl, by decide, by decide⟩, by decide, by decide, by decide, ⟨_, _, rfl, by decide, by decide⟩⟩

/-- A domain with a snapshot in progress, and one without. -/
theorem witness_Snapshots :
    (up.seen 0).refusal 0 (Reg.DOM_SNAP 9) 4 = none ∧ bitOf (up.seen 0).regs.snap 9 = false ∧
      bitOf (met 0 fun d => { d with regs := { d.regs with snap := 0x200 } }).regs.snap 9 = true := by decide

/-! ## Witnesses: radios and reception -/

/-- A profile in force, every group of the radios calibrated, all transmit gates open. -/
def lit (d : Device) : Device :=
  let ready (r : Radio) : Radio := { r with limit := 0x100, groups := (List.range 16).map fun g => (g, ⟨true, 0⟩) }
  let d := ((d.onRad .l ready).onRad .m ready).onRad .h ready
  let band : ProfBand := ⟨true, 10, 0, 0xFF, 0x0100, 0, 0, [⟨0, 4095, 3600, 3600⟩], []⟩
  { (d.onLant fun l => { l with
      profile := some 0, profiles := [(0, { band with beaconCls := 6 }), (1, band), (2, band)], validMask := 1
      sealer := some (0, 0), dutyReady := true }) with
    time := { d.time with gateOpen := true }, clk := { d.clk with lampRun := true } }

/-- A frame of Radio L without a seal still to be made. -/
def aFrame : TxFrame :=
  { kind := .bell, rate := 0, cls := 0, chan := 0, data := [0], beacon := false, planned := 0, ret := 0, target := 0, ant := 0
    span := (0, 0), sf := 0, client := none, link := none, queue := none, pkts := [], recs := [], seq := 0, charged := false
    dup := none, resp := none, sealJob := none, sesia := true, durQ := 100 }

/-- A transmission whose first symbol is at this instant. -/
def aRun (firstSym : Time) : TxRun := ⟨aFrame, firstSym, 0, 0, 0, 0⟩

theorem witness_Transmissions :
    (State.reset.seen 0).domDown 2 = true ∧ (up.seen 0).domDown 2 = false ∧ (up.seen 0).domDown (bandDom .l) = false ∧
      ( let d := met 0 lit
        d.gatesOpen .l = true ∧ d.parentBand .l = false ∧ (d.prof .l).present = true ∧ d.lant.eclipseFlag = false ∧
          d.noBeacon .l (d.sfFor .l 0) = false ∧ d.dutyAdmits .l (0, 0) true 0 = true) ∧
      ( let d := met 0 lit
        d.keeperUp = true ∧ rateInClass .l 0 0 = true ∧ maxLength .l < 16383 ∧
          (d.nextFree .l (d.keeperFrame .l 0 0 0 [0]).durQ).isSome = true ∧ (d.nextFree .l (3000 * msec * qPerHn)) = none ∧
          rateInClass .l 0 0x17 = false) ∧
      ( let d := met 0 lit
        d.permits154 11 = false ∧ (d.useGroup .m 10).nextFree .m (d.frame154 0 11 1 [0]).durQ ≠ none) := by decide +kernel

/-- A window of Radio H open to this instant. -/
def aWin (closes : Time) : Win := ⟨.openSlot 0, 0, closes, 0, 0, 0, true, true, 0, false⟩

/-- Radio H listening, in this frame. -/
def hears (cur : Option RxDet) (d : Device) : Device :=
  d.onRad .h fun r => { r with st := .rx, cur := cur, wins := [aWin 1000000000] }

/-- A detection whose header has passed, with this many codewords ready and done of two, one of them failed or none. -/
def aDet (ready done failed : Nat) : RxDet := ⟨0, 0, some 0, true, 0, 2, ready, done, failed, 0, 0, 0, none, []⟩

/-- A detection without sync yet. -/
def bare : RxDet := newDet ⟨0, 0, 0, false⟩ 0 0

theorem witness_ReceiveWindows :
    (up.seen 0).domSt 2 = 3 ∧ (up.seen 0).litOrOff = true ∧
      ( let now := (met 0 lit).rxSync .l
        (now.winOf .l .parent) = none ∧ (now.prof .l).present = true) ∧
      ( let d := (met 0 fun d => (lit d).onTwin fun w => { w with role := 1 }).rxSync .l
        d.litOrOff = false ∧ ((d.winOf .l .air).any fun x =>
          !(x.2.radio .l).wins.any (fun y => y.w == .air && y.sf == x.1.sf) &&
            decide ((x.2.needCal .l x.1.chan).rxReach .l x.1 < x.1.closesAt)) = true) ∧
      (((((met 0 (hears none)).rxSync .h).radio .h).wins.find? fun x => x.w == .openSlot 0).isSome = true) ∧
      (((up.seen 0).rxSync .h).radio .h).wins.find? (fun x => x.w == .openSlot 0) = none ∧
      ( let d := (met 7 fun d => d.onRad .h fun r => { r with st := .rx, cur := some (aDet 0 0 0), wins := [aWin 7] }).rxSync .h
        ((d.radio .h).wins.any fun x => decide (x.closesAt ≤ d.clk.now) && !x.closed && x.isOpen) = true ∧
          ((d.radio .h).cur.any fun c => c.hdrOk) = true) := by decide +kernel

/-- Radio M with one transition to this state, which ends at instant 9. -/
def turning (dest : RState) (tx : Option TxRun) (d : Device) : Device :=
  d.onRad .m fun r => { r with st := .locked, trans := [⟨dest, 0, 9, none⟩], tx := tx }

/-- The device after what its instant brings to Radio M, and the transition in front there. -/
def turned (t : Time) (f : Device → Device) : Device :=
  let d := met t f
  ((d.rxSync .m).seqSync .m).seqFlush .m (d.rxSync .m).clk.now

theorem witness_TransitionsAndSequences :
    ((turned 0 id).radio .m).trans = [] ∧
      ( let d := turned 8 (turning .locked none); (d.radio .m).trans = [⟨.locked, 0, 9, none⟩] ∧ d.clk.now < 9) ∧
      ( let d := turned 9 (turning .locked none); (d.radio .m).trans = [⟨.locked, 0, 9, none⟩] ∧ 9 ≤ d.clk.now) ∧
      ( let d := turned 9 (turning .tx none); (d.radio .m).trans = [⟨.tx, 0, 9, none⟩] ∧ (d.radio .m).tx = none) ∧
      ( let d := turned 9 (turning .tx (some (aRun 50))); (d.radio .m).trans = [⟨.tx, 0, 9, none⟩] ∧ (d.radio .m).tx = some (aRun 50)) ∧
      ( let d := turned 9 (turning .rx none); (d.radio .m).trans = [⟨.rx, 0, 9, none⟩]) ∧
      ((up.seen 0).seqSync .m |>.radio .m).seqRun = none ∧
      ( let d := (met 5 fun d => d.onRad .m fun r => { r with seqRun := some (.rxOn, 5), seqLeft := [2] }).seqSync .m
        (d.radio .m).seqRun = some (.rxOn, 5) ∧ (d.radio .m).seqLeft.head? = some 2 ∧ 5 + d.seqOff .m .rxOn 2 ≤ d.clk.now) := by
  decide +kernel

theorem witness_FrameEnds :
    ((up.seen 0).radio .l).tx = none ∧
      ( let at_ (t : Time) := met t fun d => d.onRad .l fun r => { r with tx := some (aRun 5) }
        ((at_ 5).radio .l).tx = some (aRun 5) ∧ (at_ 5).clk.now < 5 + qToHn aFrame.durQ ∧
          5 + qToHn aFrame.durQ ≤ (at_ (5 + qToHn aFrame.durQ)).clk.now ∧ aFrame.sealJob = none ∧ aFrame.beacon = false) := by
  decide +kernel

theorem witness_Calibrations :
    (up.seen 0).start.powered = true ∧ (up.seen 0).pwr.st = 0 ∧ (State.reset.seen 0).start.powered = false ∧
      ( let d := met 0 fun d => d.onRad .m fun r => { r with pend := [⟨3, 0⟩] }
        let way := stepsTime (calSteps .m (d.radio .m).st) + (if (d.radio .m).st = .rx then toRxTime else 0)
        (d.radio .m).pend = [⟨3, 0⟩] ∧ (d.radio .m).busy d.clk.now = false ∧ d.clk.now + way + calGap ≤ d.gapEnd .m) ∧
      ( let d := met 0 fun d => d.onRad .m fun r => { r with pend := [⟨3, 0⟩], st := .tx }
        (d.radio .m).busy d.clk.now = true) ∧
      ( let d := met 0 fun d => d.onRad .m fun r => { r with forced := [3] }
        (d.radio .m).forced = [3] ∧ (d.radio .m).busy d.clk.now = false) ∧
      ( let d := met 0 fun d => d.onRad .m fun r => { r with pend := [⟨3, d.deferSf .m⟩] }
        ((d.radio .m).pend.any fun p => decide (p.group = 3 ∧ d.deferSf .m ≤ p.waited)) = true) ∧
      groupCount .l ≤ 15 ∧ 3 < groupCount .m ∧ ((up.seen 0).radio .m).cal = none ∧
      ( let run (back had : Bool) : Device := met 10 fun d => d.onRad .m fun r => { r with pend := [⟨3, 0⟩], cal := some ⟨3, 10, false, back, had⟩ }
        ((run false true).radio .m).cal = some ⟨3, 10, false, false, true⟩ ∧ 10 ≤ (run false true).clk.now ∧
          ((run false true).radio .m).forced = [] ∧ (((run false true).radio .m).pend.all fun p => p.group == 3) = true) := by
  decide +kernel

theorem witness_LockLossAndBackground :
    ( let now := (up.seen 0).rxSync .h
      (now.radio .h).cur = none ∧ (now.radio .h).st ≠ .tx ∧ (now.radio .h).st ≠ .rx) ∧
      ( let now := (met 0 (hears none)).rxSync .h; (now.radio .h).cur = none ∧ (now.radio .h).st = .rx) ∧
      ( let now := (met 0 (hears (some bare))).rxSync .h; (now.radio .h).cur = some bare ∧ (now.radio .h).st = .rx) ∧
      ( let now := (met 0 fun d => d.onRad .h fun r => { r with st := .tx, tx := some (aRun 0) }).rxSync .h
        (now.radio .h).cur = none ∧ (now.radio .h).st = .tx ∧ (now.radio .h).tx = some (aRun 0)) ∧
      ( let d := met 0 fun d => (d.setCfg (Reg.RAD_BGCAL_CTRL .h) 0x1F).onRad .h fun r => { r with st := .locked, caps := [[]] }
        (d.radio .h).st = .locked ∧ (d.radio .h).busy d.clk.now = false ∧ (d.radio .h).tx = none ∧ (d.radio .h).wins = [] ∧
          (d.radio .h).bg = none ∧ (d.radio .h).forced = [] ∧ d.cb (Reg.RAD_BGCAL_CTRL .h) 0 = true) ∧
      (met 0 fun d => (d.setCfg (Reg.RAD_DPD_CTRL .h) 1).onRad .h fun r => { r with bg := some 4 }).dpdOn .h = true ∧
      ((met 0 fun d => d.onRad .h fun r => { r with bg := some 4 }).radio .h).bg = some 4 ∧
      ((met 0 fun d => d.onRad .h fun r => { r with bg := some 3 }).radio .h).bg = some 3 := by decide +kernel

/-- A radio that hears nothing, one that hears; a detection below and at the threshold; and the ways a frame meets a detection. -/
theorem witness_FrameStarts :
    ( let d := (up.seen 0).rxSync .h; (d.radio .h).receiving d.clk.now = false) ∧
      ( let d := (met 7 (hears none)).rxSync .h
        (d.radio .h).receiving d.clk.now = true ∧ 7 ≤ d.clk.now ∧ d.pdThreshold .h ≤ 0xC0 ∧ 0 < d.pdThreshold .h ∧ (d.radio .h).cur = none) ∧
      ( let d := (met 7 (hears (some bare))).rxSync .h
        let r := d.radio .h
        r.cur = some bare ∧ ownStf .h bare 0 d.clk.now = true ∧ ownStf .h bare 0 (symsHn .h 0 64) = false ∧
          bare.pwr + d.captureMargin .h ≤ r.measured 200 ∧ r.measured 0 < bare.pwr + d.captureMargin .h ∧
          payloadEnded .h bare d.clk.now = false ∧ bare.hdrOk = false ∧ r.cand = none ∧
          bare.sync = none ∧ d.clk.now < syncLimit .h bare ∧ (7 : Time) ≤ syncLimit .h bare) ∧
      ( let d := (met (syncLimit .h bare) (hears (some bare))).rxSync .h
        (d.radio .h).cur = some bare ∧ syncLimit .h bare ≤ d.clk.now) ∧
      (aDet 0 0 0).sync.isSome = true ∧
      ( let soft (w : Word) : List (Int × Int) := (List.range 32).reverse.map fun i => if bitOf w i then (-1, 1) else (1, -1)
        let word (w : Word) := hdrWord (soft w) 0
        hdrOk (word 0x180400D3) = true ∧ hdrOk (word 0x180400D2) = false ∧
          hdrInvalid .l (rateClassL 6) (word 0x180400D3) = false ∧ hdrInvalid .l 0 (word 0x180400D3) = true) := by decide +kernel

theorem witness_Codewords :
    (((up.seen 0).rxSync .h).radio .h).cur = none ∧
      ( let at_ (c : RxDet) (n : Nat) := (met 7 fun d => (hears (some c) d).onRad .h fun r => { r with flight := (List.range n).map fun i => ⟨i, []⟩ }).rxSync .h
        ((at_ (aDet 2 0 0) 0).radio .h).cur = some (aDet 2 0 0) ∧ (aDet 2 0 0).cwTotal ≤ (aDet 2 0 0).cwReady ∧
          ((at_ (aDet 1 0 0) 47).radio .h).cur = some (aDet 1 0 0) ∧ (aDet 1 0 0).cwReady < (aDet 1 0 0).cwTotal ∧
          ((at_ (aDet 1 0 0) 47).radio .h).flight.length < flightLimit .h ∧ flightLimit .h ≤ ((at_ (aDet 1 0 0) 48).radio .h).flight.length ∧
          ((at_ (aDet 1 0 0) 1).radio .h).flight = [⟨0, []⟩]) := by decide +kernel

/-- Before its first layer the decoder holds what was received: a single wrong bit leaves a parity open (R66). -/
theorem test_syndrome : (decodeCw (cwPlan .h 1 0) 0 0 0 0 [-9]).2.1 = false := by decide +kernel

theorem witness_ReceivedFrames :
    (((up.seen 0).rxSync .h).radio .h).cur = none ∧
      ( let at_ (c : RxDet) := ((met 7 (hears (some c))).rxSync .h).radio .h
        (at_ (aDet 2 1 0)).cur = some (aDet 2 1 0) ∧ (aDet 2 1 0).cwDone < (aDet 2 1 0).cwTotal ∧
          (at_ (aDet 2 2 0)).cur = some (aDet 2 2 0) ∧ (aDet 2 2 0).hdrOk = true ∧ (aDet 2 2 0).cwTotal ≤ (aDet 2 2 0).cwDone ∧
          (aDet 2 2 0).cwFail = 0 ∧ (at_ (aDet 2 2 1)).cur = some (aDet 2 2 1) ∧ (aDet 2 2 1).cwFail ≠ 0) ∧
      ( let d := (met 7 (hears (some (aDet 2 2 0)))).rxSync .h
        ((d.rxResult .h (aDet 2 2 0) 0).rxIdle .h).domSt 2 = 3) ∧
      ((up.seen 0).rxSync .m).listens154 = false ∧
      ( let at_ (n : Nat) := (met 7 fun d => ((lit d).setCfg Reg.RADM_F154_CTRL (0x80000000 + 11)).onRad .m fun r =>
          { r with st := .rx, chan := some 10, cls := 0, wins := [aWin 1000000000], ring154 := List.replicate n ⟨1, [0], true, 0, 0⟩ }).rxSync .m
        (at_ 63).rad.m.cur = none ∧ (at_ 63).rad.m.ring154.length < 64 ∧ 64 ≤ (at_ 64).rad.m.ring154.length ∧
          (at_ 63).rad.m.detAt = none ∧ (at_ 63).listens154 = true) := by decide +kernel

/-! ## Witnesses: the cipher and the Lantern -/

/-- A received frame. -/
def anRx : RxFrame := ⟨.l, [0], 0, 0, 0, 0, 0, 0, 0, 0, false, none, false⟩

/-- The device with these jobs at the cipher, and these waiting. -/
def jobs (now waits : List JobKind) (d : Device) : Device :=
  d.onCiph fun c => { c with jobs := now.map fun k => ⟨4, k, none, 0, 0, 0⟩, waiting := waits.map fun k => ⟨5, k, none, 0, 0, 0⟩ }

/-- A frame of Radio L sent now, whose seal is job 4. -/
def sealed (k : TxKind) : TxRun := { aRun 5 with frame := { aFrame with kind := k, sealJob := some 4 } }

/-- The instant at which a sent frame's payload begins. -/
def payloadAt : Time := 5 + qToHn (payloadQ .l 0)

theorem witness_CipherJobs :
    (up.seen 0).cipherOpen = true ∧ (State.reset.seen 0).cipherOpen = false ∧
      ( let d := met 0 (jobs [] [.derive 1 0 0 .command, .check anRx])
        d.ciph.jobs.length < 64 ∧ (nextJob d.ciph.waiting) = some ⟨5, .check anRx, none, 0, 0, 0⟩) ∧
      64 ≤ (met 0 (jobs (List.replicate 64 (.check anRx)) [])).ciph.jobs.length ∧
      ( let d := met 0 (jobs [] [.sealing .l aFrame])
        (nextJob d.ciph.waiting) = some ⟨5, .sealing .l aFrame, none, 0, 0, 0⟩ ∧ (d.radio .l).runOfJob 5 = none) ∧
      ((up.seen 0).ciph.jobs.find? fun j => j.id == 4) = none ∧
      ((met 0 (jobs [.check anRx] [])).ciph.jobs.find? fun j => j.id == 4) = some ⟨4, .check anRx, none, 0, 0, 0⟩ ∧
      ( let d := met 0 (jobs [.sealing .l aFrame] [])
        (d.ciph.jobs.find? fun j => j.id == 4) = some ⟨4, .sealing .l aFrame, none, 0, 0, 0⟩ ∧ (d.radio .l).runOfJob 4 = none) ∧
      ( let at_ (t : Time) (k : TxKind) := met t fun d => (jobs [.sealing .l aFrame] [] d).onRad .l fun r => { r with tx := some (sealed k) }
        ((at_ 0 .bell).radio .l).runOfJob 4 = some (sealed .bell) ∧ ((at_ 0 .pollReply).radio .l).runOfJob 4 = some (sealed .pollReply) ∧
          (at_ 0 .pollReply).clk.now < payloadAt ∧ payloadAt ≤ (at_ payloadAt (.reply 0)).clk.now) ∧
      bitOf (0x80000000 : Word) 31 = true ∧ ((up.seen 0).key 0 0).st = .empty ∧
      ((met 0 fun d => d.onCiph fun c => { c with keys := [(0, ⟨.current, 0, 0, 0, 0, false, true⟩)] }).key 0 0).st = .current ∧
      ((up.seen 0).ciph.jobs.find? fun j => j.kind.rank == 2) = none ∧
      ( let d := met 0 fun d => (jobs [.derive 1 0 0 .command] [] d).onClient 1 fun k => { k with assoc := true, serial := 9 }
        (d.ciph.jobs.find? fun j => j.kind.rank == 2) = some ⟨4, .derive 1 0 0 .command, none, 0, 0, 0⟩ ∧ (d.client 1).assoc = true ∧
          d.rootOf (d.client 1).serial = none ∧ (d.client 2).assoc = false) := by decide +kernel

/-- Client 0 associated, with a CURRENT key in slot 0 and its root. -/
def keyed (announced : Bool) (d : Device) : Device :=
  (d.onClient 0 fun k => { k with assoc := true, serial := 9, held := [⟨7, [0], 0, 0⟩] }).onCiph fun c =>
    { c with roots := [⟨9, 0, false, none⟩], keys := [(0, ⟨.current, 0, 0, 0, 0, false, announced⟩)] }

theorem witness_ReorderEpochAndRing :
    ((up.seen 0).client 0).held = [] ∧
      ( let d := met (8 * msec) (keyed true)
        (d.client 0).held = [⟨7, [0], 0, 0⟩] ∧ 0 + 8 * msec ≤ d.clk.now ∧ (met 7 (keyed true)).clk.now < 0 + 8 * msec ∧
          ((d.client 0).held.map fun y => (y.seq + 4096 - (d.client 0).rxNext) % 4096).min? = some 7) ∧
      ( let d := met 0 (keyed true)
        d.domDown 1 = false ∧ d.cipherOpen = true ∧ d.pwr.st = 0 ∧ d.slotIn 0 .current = some 0 ∧
          (d.key 0 0).announced = true ∧ (d.key 0 1).st = .empty ∧ (d.client 0).assoc = true ∧ d.deriving_ 0 = false) ∧
      ((met 0 (keyed false)).key 0 0).announced = false ∧ (up.seen 0).slotIn 0 .current = none ∧
      ( let d := met 0 fun d => d.onStart fun s => { s with waking := some 2 }
        d.domSt 7 = 3 ∧ d.ciph.ringChecked = false ∧ d.start.waking = some 2) ∧
      (up.seen 0).start.waking ≠ some 2 := by decide +kernel

/-- A checked ASSOC_REQ of the client of that serial. -/
def asked (serial : DWord) (d : Device) : Device :=
  d.onLant fun l => { l with assocReqs := [⟨.m, 0, 0, serial, 0, 0, 0, 0, false⟩] }

theorem witness_AssociationAnswers :
    (up.seen 0).lant.assocReqs = [] ∧ (up.seen 0).keeperUp = true ∧ (up.seen 0).cipherOpen = true ∧
      ( let d := met 0 (asked 9)
        d.lant.assocReqs = [⟨.m, 0, 0, 9, 0, 0, 0, 0, false⟩] ∧ d.rootOf 9 = none) ∧
      ( let d := met 0 fun d => asked 9 (keyed true d)
        d.rootOf 9 = some ⟨9, 0, false, none⟩ ∧ (d.lant.clients.find? fun x => x.2.assoc && x.2.serial == 9).isSome = true) ∧
      ( let d := met 0 fun d => asked 8 (d.onCiph fun c => { c with roots := [⟨8, 0, false, none⟩] })
        d.rootOf 8 = some ⟨8, 0, false, none⟩ ∧ (d.lant.clients.find? fun x => x.2.assoc && x.2.serial == 8) = none) := by decide +kernel

theorem witness_SuperframeBoundaries :
    ( let d := met 0 fun d => { d with clk := { d.clk with lampRun := true, lampFix := 2 * sfLen * lampScale } }
      d.clk.lampRun = true ∧ d.domDown 2 = false ∧ d.lampSf ≠ d.lant.sf) ∧ (up.seen 0).clk.lampRun = false := by decide +kernel

theorem witness_PlansAndProfiles :
    (up.seen 0).lampHn + 2 * msec ≤ ((up.seen 0).lampSf + max 1 1) * sfLen ∧
      ( let d := met 0 fun d => { d with clk := { d.clk with lampRun := true, lampFix := (2 * sfLen - msec) * lampScale } }
        (d.lampSf + max 1 1) * sfLen < d.lampHn + 2 * msec) ∧
      (up.seen 0).profileRefused 3 = true ∧
      ( let d := met 0 fun d => d.onLant fun l => { l with validMask := 0xFFFF }
        d.profileRefused 3 = false ∧ d.mirrors = false) ∧
      ( let d := met 0 fun d => ((d.onLant fun l => { l with validMask := 0xFFFF }).onTwin fun w => { w with role := 2 }).onRng fun r => { r with st := 2 }
        d.profileRefused 3 = false ∧ d.mirrors = true) ∧
      ( let d := met 0 fun d => d.onLant fun l => { l with switch_ := some ⟨1, 3, 4, 0⟩ }
        d.lant.switch_ = some ⟨1, 3, 4, 0⟩ ∧ d.lampHn < 4 * sfLen) ∧
      (met 0 fun d => d.onLant fun l => { l with switch_ := some ⟨2, 3, 4, 0⟩ }).lant.switch_ = some ⟨2, 3, 4, 0⟩ ∧
      (up.seen 0).lant.switch_ = none := by decide +kernel

/-- Code 0 of the Bell enabled at this word, in this power state. -/
def bellOn (ctrl : Word) (st : Nat) (d : Device) : Device :=
  ((d.setCfg Reg.MOOR_BELL_CTRL ctrl).setCfg (Reg.MOOR_BELL_CODE 0) 6).onPwr fun p => { p with st := st }

/-- A relay that follows its parent, having heard it on both bands or on none. -/
def relays (heard : Bool) (d : Device) : Device :=
  (d.setCfg Reg.LANT_RELAY_CTRL 0xC0000000).onRelay fun r => { r with st := 1, heard := heard, heardM := heard, heardH := heard }

theorem witness_BellAndParent :
    ( let d := met 0 (bellOn 0x01000000 0)
      d.start.powered = true ∧ bitOf (d.rad.l.pinsAt d.clk.now) 0 = false ∧ d.bellHit 6 = some 0 ∧ d.bellHit 0 = none ∧
        d.cb Reg.MOOR_BELL_CTRL 16 = false) ∧
      ( let d := met 0 (bellOn 0x01010000 3)
        d.bellHit 6 = some 0 ∧ d.cb Reg.MOOR_BELL_CTRL 16 = true ∧ d.pwr.st ≠ 0) ∧
      ( let d := met 0 fun d => d.onRad .l fun r => { r with pins := 1 }
        d.domDown 3 = false ∧ bitOf (d.rad.l.pinsAt d.clk.now) 0 = true) ∧
      ( let d := met 0 (relays true)
        d.cb Reg.LANT_RELAY_CTRL 31 = true ∧ d.domSt 2 = 3 ∧ d.lant.relay.st = 1 ∧ d.lant.eclipseFlag = false ∧ d.lant.relay.heardM = true ∧
          d.lant.relay.heardH = true ∧ d.lant.relay.heard = true) ∧
      ( let d := met 0 (relays false)
        d.lant.relay.heard = false ∧ d.parentBand .m = true ∧ d.parentBand .h = true) ∧
      (met 0 fun d => (relays true d).onLant fun l => { l with eclipseFlag := true }).lant.eclipseFlag = true ∧
      (up.seen 0).cb Reg.LANT_RELAY_CTRL 31 = false := by decide +kernel

theorem witness_ACodeMatchesOnceInASecond :
    ( let d := met 0 fun d => d.onRad .l fun r => { r with pins := 1 }
      d.domDown 3 = false ∧ bitOf (d.rad.l.pinsAt d.clk.now) 0 = true) ∧
      ( let d := met 0 (bellOn 0x01000000 0); d.start.powered = true ∧ d.bellHit 6 = some 0) ∧
      ( let at_ (t : Time) := met t fun d => (bellOn 0x01000000 0 d).onPwr fun p => { p with bellAt := [(0, 5)] }
        (at_ 7).pwr.bellAt.find? (fun x => x.1 == 0) = some (0, 5) ∧ (at_ (4 + sec)).clk.now < 5 + sec ∧ (at_ (5 + sec)).bellHit 6 = some 0) := by
  decide +kernel

/-! ## Witnesses: the packet engine -/

/-- A packet at a port in a generation. -/
def aPkt (port gen : Nat) : Pkt := ⟨port, 1, gen, [0], none, none, 0, none, none, none, none, none, none⟩

/-- A queued packet of this many bytes, kept in DRAM or not. -/
def aQPkt (n : Nat) (dram : Bool) : QPkt :=
  { data := zeros n, at_ := 0, dram := dram, policy := 0, rep := none, tsTag := none, sent := [], done := 0, seq := none, copy := none }

theorem witness_PipelineMoves :
    (State.reset.seen 0).domDown 6 = true ∧ (up.seen 0).domSt 6 = 3 ∧ (up.seen 0).pkt.recirc = [] ∧ (up.seen 0).pkt.inPipe = [] ∧
      ((rrOrder (up.seen 0).pkt.rrPtr).find? fun p => !((up.seen 0).pkt.ingress.get [] p).isEmpty) = none ∧
      ( let d := met 0 fun d => d.onPkt fun p => { p with ingress := [(11, [aPkt 11 0])], rrPtr := 3 }
        ((rrOrder d.pkt.rrPtr).find? fun p => !(d.pkt.ingress.get [] p).isEmpty) = some 11 ∧ d.pkt.ingress.get [] 11 = [aPkt 11 0]) ∧
      (met 0 fun d => d.onPkt fun p => { p with recirc := [aPkt 0 0] }).pkt.recirc = [aPkt 0 0] ∧
      (met 0 fun d => d.onPkt fun p => { p with inPipe := [aPkt 0 0] }).pkt.inPipe = [aPkt 0 0] := by decide +kernel

theorem witness_PopReads :
    (up.seen 0).pkt.learn = [] ∧ (up.seen 0).lanes.ts = [] ∧
      (met 0 fun d => d.onPkt fun p => { p with learn := [⟨0, false, 0, 1, some 2⟩] }).pkt.learn = [⟨0, false, 0, 1, some 2⟩] ∧
      (met 0 fun d => d.onLanes fun l => { l with ts := [⟨true, 0, 0, 0, 7⟩] }).lanes.ts.length = 1 := by decide +kernel

theorem witness_TableCommands :
    (up.seen 0).pkt.tblBusy = false ∧ (0 : BitVec 15).toNat < tblSize 0 ∧ tblSize 3 ≤ (0x7FFF : BitVec 15).toNat ∧
      0 < tblSize 0 ∧ 0 < tblSize 3 ∧ (up.seen 0).cycle.hits.contains (tblKey 0 0) = false ∧
      ((met 0 fun d => d.onCycle fun c => { c with hits := [tblKey 0 0] }).cycle.hits.contains (tblKey 0 0)) = true ∧
      (met 0 fun d => d.onPkt fun p => { p with tblBusy := true }).pkt.tblBusy = true := by decide +kernel

theorem witness_GenerationCommits :
    (up.seen 0).pkt.commitWait = none ∧ (up.seen 0).pkt.refs (up.seen 0).pkt.genPrev = false ∧
      ( let at_ (t : Time) (g : Nat) := met t fun d => d.onPkt fun p => { p with commitWait := some 5, inPipe := [aPkt 0 g] }
        (at_ 6 65535).pkt.commitWait = some 5 ∧ (at_ 6 65535).clk.now < 5 + msec ∧ 5 + msec ≤ (at_ (5 + msec) 0).clk.now ∧
          (at_ 6 65535).pkt.refs (at_ 6 65535).pkt.genPrev = true ∧ (at_ 6 0).pkt.refs (at_ 6 0).pkt.genPrev = false ∧
          (((at_ 6 65535).pkt.inPipe ++ (at_ 6 65535).pkt.recirc).filter fun x => x.gen == (at_ 6 65535).pkt.genPrev).length = 1) := by
  decide +kernel

/-- KPR, port 10, with a frame in its queue 7, or with one on the wire. -/
def kpr (wire : Bool) (d : Device) : Device :=
  if wire then d.onPkt fun p => { p with egress := [(10, ⟨some (7, aQPkt 64 false), 0⟩)] }
  else d.onQueue (pqKey 10 7) fun q => { q with pkts := [aQPkt 64 false] }

/-- An Ethernet port with a frame on the wire. -/
def ethBusy (d : Device) : Device := d.onPkt fun p => { p with egress := [(3, ⟨some (7, aQPkt 64 false), 0⟩)] }

theorem witness_PortScheduling :
    ( let now := (met 0 (kpr false)).sweepOversize 10
      (now.egressOf 10).busy = none ∧ now.portUp 10 = true ∧ [7, 6, 5, 4, 3, 2, 1, 0].find? (now.mayGo 10) = some 7 ∧
        (now.queue (pqKey 10 7)).pkts = [aQPkt 64 false]) ∧
      ((met 0 (kpr true)).egressOf 10).busy = some (7, aQPkt 64 false) ∧ ((up.seen 0).portUp 3) = false ∧ ((up.seen 0).egressOf 10).busy = none ∧
      (met 0 (kpr true)).clk.now < ((met 0 (kpr true)).egressOf 10).started + (met 0 (kpr true)).wireTime 10 64 ∧
      ( let t := (up.seen 0).wireTime 3 64
        ((met t ethBusy).egressOf 3).busy = some (7, aQPkt 64 false) ∧ ((met t ethBusy).egressOf 3).started + t ≤ (met t ethBusy).clk.now) := by
  decide +kernel

theorem witness_GatesAndMeters :
    ( let at_ (v : Word) := met 0 fun d => d.setCfg Reg.PKT_GATE_ADDR v
      fld ((at_ 0xC00).cfg Reg.PKT_GATE_ADDR) 11 9 = 6 ∧ fld ((at_ 0).cfg Reg.PKT_GATE_ADDR) 11 9 = 0 ∧
        ((at_ 0).gate 0).bankB = bitOf ((at_ 0).cfg Reg.PKT_GATE_ADDR) 8 ∧ (at_ 0).domSt 6 ≠ 2 ∧ (at_ 0).domSt 6 ≠ 4 ∧
        ((at_ 0x100).gate 0).bankB ≠ bitOf ((at_ 0x100).cfg Reg.PKT_GATE_ADDR) 8) ∧
      gateCycle ((up.seen 0).gateList 0 (!((up.seen 0).gate 0).bankB)) = 0 ∧ ((up.seen 0).gate 0).swapAt = none ∧
      ( let d := met 0 fun d => (d.setCfg (Reg.PKT_GATE_CTRL 0) 0xFFFF).onPkt fun p => { p with gateMem := [(256, 0xFF000010)] }
        gateCycle (d.gateList 0 (!(d.gate 0).bankB)) ≠ 0) ∧
      ((up.seen 0).cycle.meters.find? fun x => x.1 == (up.seen 0).mtrSel) = none ∧
      ((met 0 fun d => d.onCycle fun c => { c with meters := [(0, Meter.zero)] }).cycle.meters.find? fun x => x.1 == 0).isSome = true := by
  decide +kernel

/-- A cleared entry, a live one, and a command that clears. -/
theorem witness_ClearedEntriesAreLiveInNoGeneration :
    Entry.valid 0 = false ∧ probe (fun _ => setBit (setBit (0 : Entry) 479) 474) 0 0 0 [0] = some (0, setBit (setBit (0 : Entry) 479) 474) ∧
      (up.seen 0).pkt.tblBusy = false ∧ (0 : BitVec 15).toNat < tblSize 0 := by decide +kernel

/-- A link queue at the default spill_level and below it, and packets on chip and in DRAM. -/
theorem witness_PacketsOccupyCells :
    (met 0 fun d => d.onPkt fun p => { p with cells := 36864 }).spills 72 = true ∧
      (met 0 fun d => d.onPkt fun p => { p with cells := 36863 }).spills 72 = false ∧
      (met 0 fun d => d.onPkt fun p => { p with cells := 49152 }).spills 71 = false ∧ (aQPkt 1 false).dram = false ∧ (aQPkt 1 true).dram = true ∧
      ( let d := met 0 fun d => d.onPkt fun p => { p with cells := 36863 }
        d.pkt.spilling = false ∧ (d.qPush 0 (aQPkt 1 false)).pkt.spilling = true) ∧
      4194304 < (met 0 fun d => d.onPkt fun p => { p with dramCells := 4194304 }).pkt.dramCells + (1 + 255) / 256 := by decide +kernel

/-! ## Witnesses: lanes, the Range link, time and memory -/

/-- A frame of this many bytes with its FCS, of this EtherType. -/
def aFrameIn (n ty : Nat) : Bytes :=
  let body := zeros 12 ++ beBytes 2 ty ++ zeros (n - 18)
  body ++ fcsBytes body

/-- Ethernet port 0 with its link up. -/
def ethUp (d : Device) : Device := d.onLanes fun l => { l with eth := [(0, ⟨true, false, false, none⟩)] }

theorem witness_EthernetAndLaneTests :
    ((up.seen 0).ethPort 0).linkUp = false ∧ (up.seen 0).domSt 9 = 3 ∧ ((met 0 ethUp).ethPort 0).linkUp = true ∧
      ( let good (x : Bytes) : Bool := decide (4 ≤ x.length) && x.drop (x.length - 4) == fcsBytes (x.take (x.length - 4))
        good [0, 0, 0, 0, 1] = false ∧ good (aFrameIn 63 0) = true ∧ (aFrameIn 63 0).length < 64 ∧ good (aFrameIn 64 0x8808) = true ∧
          64 ≤ (aFrameIn 64 0x8808).length ∧ (aFrameIn 64 0x8808).length ≤ (up.seen 0).maxFrame 0 ∧
          fieldAt ((aFrameIn 64 0x8808).take 60) 12 2 = 0x8808 ∧ fieldAt ((aFrameIn 64 0).take 60) 12 2 ≠ 0x8808) ∧
      (up.seen 0).maxFrame 0 < 18 + 9005 ∧ (up.seen 0).domSt 6 ≠ 4 ∧ (met 0 fun d => d.onDom 6 fun x => { x with st := 4 }).domSt 6 = 4 ∧
      ( let stored (f : Device → Device) (n : Nat) (v : Word) : Device := (met 0 f).setCfg (Reg.LANE_TEST n) (v &&& 0xFC000000)
        (stored id 0 0x04000000).laneTest 0 = true ∧ (stored id 0 0).laneTest 0 = false ∧
          ( let range (d : Device) : Device := (d.setCfg Reg.LANE_RNG_CTRL 0x80000000).onRng fun r => { r with st := 3 }
            (stored range 6 0x04000000).laneTest 6 = true ∧ (stored range 6 0x04000000).rngTest = true ∧
              (stored range 6 0x04000000).lanes.rng.st ≠ 0)) ∧
      (up.seen 0).laneChk 0 = 0 ∧ (met 0 fun d => d.setCfg (Reg.LANE_TEST 0) 0x04000000).laneChk 0 ≠ 0 := by decide +kernel

/-- The Range link in this state, at a training step, with this check done or going on. -/
def ranging (st step : Nat) (checkedAt checkFrom : Option Time) (d : Device) : Device :=
  d.onRng fun r => { r with st := st, step := step, checkedAt := checkedAt, checkFrom := checkFrom, lane6 := true, clean := true }

theorem witness_RangeBringUp :
    (up.seen 0).lanes.rng.st = 0 ∧
      ( let late := met (100 * msec) (ranging 1 1 none none)
        late.lanes.rng.checkFrom = none ∧ late.lanes.rng.since + 100 * msec ≤ late.clk.now) ∧
      ( let at_ (t : Time) := met t (ranging 3 1 none none)
        (at_ 0).lanes.rng.st = 3 ∧ (at_ 0).clk.now < (at_ 0).lanes.rng.since + 100 * msec ∧
          (at_ (100 * msec)).lanes.rng.since + 100 * msec ≤ (at_ (100 * msec)).clk.now) ∧
      ( let seen := ((met 0 (ranging 2 1 none none)).laneSees 6 false false).laneSees 7 true false
        seen.lanes.rng.lane6 = true ∧ seen.laneLost 6 = true ∧ seen.lanes.rng.st = 2) ∧
      ( let seen := ((met 0 fun d => (ranging 2 1 none none d).onLane 6 fun l => { l with rate := 1 }).laneSees 6 true false).laneSees 7 true false
        seen.laneLost 6 = false ∧ seen.lanes.rng.lane7 = false) ∧
      ( let at_ (t : Time) (step : Nat) := met t (ranging 1 step none (some 5))
        let due := 5 + checkTime 1
        (at_ 6 1).lanes.rng.checkDue = some due ∧ (at_ 6 1).clk.now < due ∧ due ≤ (at_ due 1).clk.now ∧ (at_ due 1).lanes.rng.checkedAt = none ∧
          ((at_ 6 2).lanes.rng.checkDue).isSome = true ∧ (up.seen 0).lanes.rng.checkDue = none) ∧
      ( let at_ (t : Time) (res : Option Bool) := met t fun d => (ranging 1 2 (some 5) none d).onRng fun r => { r with peer := some ⟨true, true, true, res, (0, 0, 0), (0, 0, 0)⟩ }
        (at_ 6 none).lanes.rng.checkedAt = some 5 ∧ (at_ 6 none).clk.now < 5 + 100 * usec ∧
          5 + 100 * usec ≤ (at_ (5 + 100 * usec) (some true)).clk.now ∧ (at_ 6 (some true)).lanes.rng.peer.bind Train.result = some true ∧
          (at_ 6 (some true)).lanes.rng.clean = true ∧ (at_ 6 none).lanes.rng.peer.bind Train.result ≠ some true) := by decide +kernel

/-- A Range frame without payload, of this type and channel. -/
def rngFrame (ty ch : Nat) : Bytes :=
  let x := beBytes 1 ty ++ beBytes 1 ch ++ zeros 10
  x ++ beBytes 4 (crc32c x)

theorem witness_RangeFrames :
    ( let bad (x : Bytes) : Bool := decide (x.length < 16) || fieldAt x 2 2 != x.length - 16 || decide (9216 < x.length - 16)
        || fieldAt x (x.length - 4) 4 != crc32c (x.take (x.length - 4))
      bad [] = true ∧ (∀ ty, ty < 6 → bad (rngFrame ty 0) = false) ∧ bad (rngFrame rtData 8) = false ∧ fieldAt (rngFrame rtData 8) 1 1 = 8) ∧
      (∀ st, st < 4 → (met 0 (ranging st 1 none none)).lanes.rng.st = st) ∧ (up.seen 0).domSt 9 = 3 ∧ (State.reset.seen 0).domSt 9 ≠ 3 ∧
      (met 0 fun d => (ranging 2 0 none none d).onRng fun r => { r with closing := true }).lanes.rng.closing = true ∧
      (met 0 (ranging 2 0 none none)).lanes.rng.closing = false ∧
      ( let d := met (10 * usec) fun d => (ranging 2 0 none none d).setCfg Reg.LANE_RNG_CTRL 10
        d.lanes.rng.st = 2 ∧ d.idleGap ≠ 0 ∧ d.lanes.rng.lastTx + d.idleGap * usec ≤ d.clk.now ∧ (d.egressOf portRng).busy = none ∧
          d.rngWaits = false) ∧
      ( let paired (t : Time) := met t fun d => (ranging 2 0 none none d).onCiph fun c => { c with beaconKey := some (0, 7) }
        (paired 0).clk.now < (paired 0).lanes.rng.lastKeep + msec ∧ (paired msec).lanes.rng.lastKeep + msec ≤ (paired msec).clk.now ∧
          ((paired msec).pairKey).isSome = true ∧ (paired msec).lanes.rng.lastTime = none ∧ (paired msec).domDown 2 = false) ∧
      ( let d := met (200 * usec) fun d => (((ranging 2 0 none none d).onCiph fun c => { c with beaconKey := some (0, 7) }).onRng fun r =>
          { r with peerKnown := true }).onMirror 3 fun c => { c with unacked := [⟨0, []⟩] }
        d.mirrorOpen = true ∧ (d.mirror 3).unacked ≠ [] ∧ (d.mirror 3).sentAt + 200 * usec ≤ d.clk.now) ∧
      (up.seen 0).mirrorOpen = false ∧
      ( let at_ (t : Time) := met t fun d => (ranging 2 0 none none d).onRng fun r => { r with lastTime := some 5 }
        (at_ 6).lanes.rng.lastTime = some 5 ∧ (at_ 6).clk.now < 5 + 62500 * usec ∧ 5 + 62500 * usec ≤ (at_ (5 + 62500 * usec)).clk.now) := by
  decide +kernel

/-- Domains A and B from these sources (1 a GNSS receiver). -/
def sources (a b : Word) (d : Device) : Device :=
  (d.setCfg (Reg.LANT_DOM_CFG 0) (a <<< 29)).setCfg (Reg.LANT_DOM_CFG 1) (b <<< 29)

/-- The domain listens to rising PPS edges. -/
def listens (d : Device) (x : RefDom) : Bool := d.refSrc x == 1 && !d.cb (Reg.LANT_DOM_CFG (domIdx x)) 28

/-- A sentence of this body with its checksum. -/
def sentence (body : Bytes) : Bytes :=
  let sum := (body.foldl (fun (x : Byte) c => x ^^^ c) 0).toNat
  let digit (n : Nat) : Byte := BitVec.ofNat 8 (if n < 10 then 0x30 + n else 0x37 + n)
  0x24 :: body ++ [0x2A, digit (sum / 16), digit (sum % 16), 0x0D, 0x0A]

/-- The ZDA sentence of 2030-03-01T00:00:00, with or without its date. -/
def zda (dated : Bool) : Bytes :=
  [0x47, 0x50, 0x5A, 0x44, 0x41, 0x2C, 0x30, 0x30, 0x30, 0x30, 0x30, 0x30, 0x2C] ++
    if dated then [0x30, 0x31, 0x2C, 0x30, 0x33, 0x2C, 0x32, 0x30, 0x33, 0x30] else []

theorem witness_TimeReferences :
    (State.reset.seen 0).domDown 2 = true ∧ (up.seen 0).domDown 2 = false ∧
      ( let caught (d : Device) : Device := d.onRef .a fun r => { r with edge := some (d.lampHn, d.clk.now) }
        let d (a b : Word) := met 0 (sources a b)
        listens (d 0 0) .a = false ∧ listens (d 0 0) .b = false ∧ listens (d 1 0) .a = true ∧ listens (caught (d 1 0)) .b = false ∧
          listens (d 0 1) .a = false ∧ listens (d 0 1) .b = true ∧ listens (d 1 1) .a = true ∧ listens (caught (d 1 1)) .b = true) ∧
      (up.seen 0).keeperUp = true ∧ nmeaFields [] = none ∧
      ( let type (x : Bytes) := (nmeaFields (sentence x)).map nmeaType
        type [0x47, 0x50, 0x52, 0x4D, 0x43] = some [0x52, 0x4D, 0x43] ∧ type (zda true) = some [0x5A, 0x44, 0x41] ∧
          type (zda false) = some [0x5A, 0x44, 0x41] ∧ type [0x47, 0x50, 0x47, 0x53, 0x56] = some [0x47, 0x53, 0x56] ∧
          (nmeaFields (sentence (zda true))).bind zdaSeconds = some 951868800 ∧ (nmeaFields (sentence (zda false))).bind zdaSeconds = none) ∧
      (met 0 (sources 1 2)).refSrc .a = 1 ∧ (met 0 (sources 1 2)).refSrc .b = 2 ∧ (met 0 (sources 3 5)).refSrc .a = 3 ∧
      (met 0 (sources 3 5)).refSrc .b = 0 ∧
      ( let at_ (t : Time) := met t fun d => (sources 1 0 d).onRef .a fun r => { r with lastSeen := some 5 }
        (at_ 6).lossAfter .a = some (3 * sec) ∧ ((at_ 6).refDom .a).lastSeen = some 5 ∧ (at_ 6).clk.now < 5 + 3 * sec ∧
          5 + 3 * sec ≤ (at_ (5 + 3 * sec)).clk.now ∧ (at_ 6).lossAfter .b = none) ∧
      ( let at_ (t : Time) (ctrl : Word) := met t fun d => (d.setCfg Reg.LANT_TIME_CTRL ctrl).onTime fun x => { x with prefSince := some 5, readyAt := some 5 }
        (at_ 6 0x40000000).time.prefSince = some 5 ∧ (at_ 6 0x40000000).clk.now < 5 + 60 * sec ∧ (at_ 6 0x40000000).cb Reg.LANT_TIME_CTRL 30 = true ∧
          5 + 60 * sec ≤ (at_ (5 + 60 * sec) 0x40000000).clk.now ∧ (at_ 6 0).cb Reg.LANT_TIME_CTRL 30 = false ∧
          (at_ 6 0).time.readyAt = some 5 ∧ (at_ 6 0).time.gateOpen = false ∧ ((at_ 6 0).refDom .a).st ≠ .tracking ∧
          ((at_ 6 0).refDom .a).st ≠ .locked ∧ 5 + (at_ 6 0).cf Reg.LANT_TIME_CTRL 22 15 * sec ≤ (at_ 6 0).clk.now) ∧
      (up.seen 0).time.prefSince = none ∧ (up.seen 0).time.readyAt = none ∧
      ( let d := met 0 fun d => { d with clk := { d.clk with lampRun := true } }
        d.clk.lampRun = true ∧ d.lampHn % sec < 2) := by decide +kernel

/-- DRAM channel 0 with these requests, in this state. -/
def channel (st : Nat) (reqs : List DReq) (d : Device) : Device := d.onMem fun m => m.onChan 0 fun c => { c with st := st, reqs := reqs }

/-- A read of the first block of DRAM. -/
def aRead : DReq := ⟨0, 0, 0x200000000, false, none, 0⟩

theorem witness_MemoryCommands :
    ((up.seen 0).mem.chan 0).st = 0 ∧ dramChan 0x200000000 = 0 ∧
      ( let d := met 0 (channel 2 [])
        (d.mem.chan 0).st ≠ 0 ∧ (d.mem.chan 0).reqs.length < 128 ∧ (d.mem.chan 0).startsOrder aRead = false ∧ (d.mem.chan 0).pick d.clk.now = none) ∧
      ((met 0 (channel 2 [{ aRead with data := some [] }])).mem.chan 0).startsOrder aRead = true ∧
      128 ≤ ((met 0 (channel 2 (List.replicate 128 aRead))).mem.chan 0).reqs.length ∧
      ( let at_ (t : Time) := met t fun d => d.onMem fun m => m.onChan 0 fun c => { c with st := 2, banks := [(0, { Bank.closed with row := some 0 })] }
        (((at_ sec).mem.chan 0).banks.get Bank.closed 0).row.isSome = true ∧
          (at_ sec).cf (Reg.MEM_CH_CTRL 0) 7 0 * 8000 ≤ ((at_ sec).clk.now - (((at_ sec).mem.chan 0).banks.get Bank.closed 0).lastUse) * 2133 ∧
          ((at_ sec).mem.chan 0).lastReq + (at_ sec).srIdle ≤ (at_ sec).clk.now ∧ (at_ 0).clk.now < ((at_ 0).mem.chan 0).lastReq + (at_ 0).srIdle) ∧
      ( let d := met 0 (channel 2 [aRead])
        (d.mem.chan 0).pick d.clk.now = some aRead ∧ (d.mem.chan 0).held = []) ∧
      ((met 0 fun d => (channel 2 [aRead] d).onMem fun m => m.onChan 0 fun c => { c with held := [aRead] }).mem.chan 0).held = [aRead] ∧
      (up.seen 0).domSt (blockDom 0 .l) ≠ 0 ∧ ((allIn 0).seen 0).domSt (blockDom 0 .l) = 0 ∧
      (up.seen 0).refusal 7 (Reg.CV_CMD 3) 4 = none ∧ (up.seen 0).refusal 7 (Reg.CV_DATA 3) 4 = none ∧
      (up.seen 0).refusal 7 (Reg.CV_STATE_HI 3) 4 = none ∧ ((met 9 id).cvUnit 3).since ≠ (met 9 id).clk.now := by decide +kernel

/-! ## Witnesses: reloads, start, reset and supply -/

/-- Domain `n` in this state since reset, the Light List in this stage with this reload, the start in this stage. -/
def loading (n st stage : Nat) (mask : BitVec 10) (start : Nat) (d : Device) : Device :=
  ((d.onDom n fun x => { x with st := st }).onLL fun l => { l with stage := stage, reloadMask := mask, reloadAt := none }).onStart fun s => { s with stage := start }

theorem witness_ReloadsAndStarts :
    (up.seen 0).domSt 3 = 3 ∧ (met 0 (loading 3 4 3 8 stageDone)).domSt 3 = 4 ∧ (met 0 (loading 3 2 0 0 5)).domSt 3 = 2 ∧
      ( let d := met 0 (loading 2 2 0 0 stageDone)
        d.domSt 2 = 2 ∧ (d.domGo 2).start.stage = stageDone ∧ (d.domGo 2).pwr.st = 0) ∧
      ((met 0 (loading 2 2 0 0 5)).domGo 2).start.stage ≠ stageDone ∧
      ( let d := met 0 (loading 3 3 2 0 stageDone)
        d.reloadOk 0 = true ∧ d.reloadOk 4 = true ∧ (4 : BitVec 10) &&& 0x3C ≠ 0 ∧ d.reloadOk 0x40 = true ∧ (0x40 : BitVec 10) &&& 0x3C = 0 ∧
          (up.seen 0).reloadOk 4 = false) ∧
      ( let d := met 0 (loading 3 3 3 8 stageDone); d.ll.stage = 3 ∧ d.ll.reloadAt = none ∧ d.named.all (fun n => d.domSt n == 3) = true) ∧
      ( let d (stage : Nat) := met (reloadLimit 3) (loading 3 4 stage 8 stageDone)
        bitOf (d 3).ll.reloadMask 3 = true ∧ ((d 3).dom 3).since + reloadLimit 3 ≤ (d 3).clk.now ∧ (d 3).ll.stage = 3 ∧ (d 4).ll.stage = 4) ∧
      ( let d := met (startLimit 3) (loading 3 2 0 0 5)
        d.start.stage ≠ stageDone ∧ 5 ≤ d.start.stage ∧ (d.dom 3).since + startLimit 3 ≤ d.clk.now) ∧
      (up.seen 0).start.bringUp = false ∧
      ( let d (n : Nat) := met 0 fun d => d.onStart fun s => { s with bringUp := true, sfdpTries := n }
        (d 19).start.bringUp = true ∧ 19 ≤ (d 19).start.sfdpTries ∧ (d 18).start.sfdpTries < 19) := by decide +kernel

/-- The rail sequence at this step, RESET_N high. -/
def railAt (k : Nat) (d : Device) : Device := d.onStart fun s => { s with rail := k, t0 := 0 }

theorem witness_SupplyAndRails :
    vStart - 1 < vStart ∧ (State.reset.seen 0).start.powered = false ∧ (up.seen 0).start.powered = true ∧
      ( let d := met 0 fun d => d.onStart fun s => { s with rail := 0, pwrGood := false }
        d.start.rail = 0 ∧ d.start.pwrGood = false ∧ d.pwr.st = 0 ∧ d.pwr.tripped = false ∧ d.start.resetLow = none) ∧
      ( let d (t : Time) := met t (railAt 3)
        let due := railDelay (d 0).railProfile 3
        (d 0).start.rail = 3 ∧ (d 0).start.resetLow = none ∧ 0 < due ∧ 0 + due ≤ (d due).clk.now ∧ (d due).clk.now < due + msec ∧
          due + msec ≤ (d (due + msec)).clk.now) ∧
      ( let d := met sec (railAt 8)
        d.start.rail = 8 ∧ d.start.t0 + railDelay d.railProfile 8 ≤ d.clk.now) ∧
      ( let d (n : Nat) (t : Time) := met t fun d => d.onStart fun s => { s with railFault := true, attempts := n, t0 := 0 }
        (d 2 (100 * msec)).start.t0 + 100 * msec ≤ (d 2 (100 * msec)).clk.now ∧ (d 2 0).start.attempts < 3 ∧ ¬ (d 3 0).start.attempts < 3 ∧
          (d 2 0).start.resetLow = none ∧ 0 + 10 * sec ≤ (d 3 (10 * sec)).clk.now) ∧
      ( let d (v : Nat) (good tripped : Bool) := met 0 fun d => (d.onPwr fun p => { p with vin := v, tripped := tripped }).onStart fun s => { s with pwrGood := good }
        7200 ≤ (d 7200 true false).pwr.vin ∧ (d 7199 false false).pwr.vin < 7200 ∧ (d 7199 false false).start.pwrGood = false ∧
          (d 7200 true true).pwr.tripped = true ∧ (d 7200 true false).pwr.tripped = false ∧ (d 7200 true true).start.resetLow = none) := by
  decide +kernel

/-- RESET_N low since this instant, the power good or not. -/
def resetSince (u : Time) (good : Bool) (d : Device) : Device := d.onStart fun s => { s with resetLow := some u, pwrGood := good }

/-- D1 starting, its bring-up due. -/
def starting (f : Device → Device) : State :=
  upWith fun d => f ((d.onDom 1 fun x => { x with st := 2 }).onStart fun s => { s with stage := 1 })

theorem witness_ResetAndBringUp :
    (State.reset.seen 0).start.powered = false ∧ (up.seen 0).start.powered = true ∧ (up.seen 0).start.resetLow = none ∧
      ( let d (t : Time) := met t (resetSince 5 true)
        (d 6).start.resetLow = some 5 ∧ (d 6).clk.now < 5 + 2 * sec ∧ (d 6).start.pwrGood = true ∧ (d 6).pwr.st ≠ 4 ∧
          5 + 2 * sec ≤ (d (5 + 2 * sec)).clk.now) ∧
      (met 6 (resetSince 5 false)).start.pwrGood = false ∧ (up.seen 0).domSt 1 ≠ 2 ∧
      ( let lanes (good : Bool) : List TrainRun := [List.replicate 8 ⟨good, 64, 64⟩]
        let done (d : Device) (runs : List TrainRun) : Device :=
          (((d.onStart fun s => { s with stage := 2 }).onDom 8 fun x => { x with st := 2, since := d.clk.now })).bringTrain runs
        let d (found : Bool) := (starting fun d => d.onLL fun l => { l with flash := { l.flash with sfdp := found } }).seen 0
        (d true).domSt 1 = 2 ∧ (d true).start.stage = 1 ∧ (done (d true) (lanes false)).mem.ok = false ∧ (done (d true) (lanes true)).mem.ok = true ∧
          (done (d true) (lanes true)).ll.flash.sfdp = true ∧ (done (d false) (lanes true)).ll.flash.sfdp = false ∧
          (done (d false) (lanes true)).start.waking ≠ some 2) := by decide +kernel

/-! ## Witnesses: Twin, power and pins -/

/-- A Twin in this role, its peer last heard at instant 5, and the KEEPALIVE at this instant. -/
def twin (role peer : Nat) (senior lost : Bool) (keep : Option Time) (d : Device) : Device :=
  (d.setCfg Reg.MOOR_TWIN_CTRL 0x80000505).onTwin fun w =>
    { w with role := role, peerRole := peer, senior := senior, lost := lost, lastHb := 5, keepAt := keep }

theorem witness_TwinHeartbeats :
    ( let near (p : HbPattern) : Bool := (hbHalf p).any fun us => hbClass (us * usec) (us * usec) (us * usec) == some p
      hbClass 0 0 0 = none ∧ near .lit = true ∧ near .standby = true ∧ near .starting = true ∧ near .yield = true) ∧
      ( let beat (keep : Option Time) : Device := (met 6 (twin 3 2 true false keep)).onTwin fun w => { w with pinsOk := true, lastHb := 6 }
        (beat none).keepOk = false ∧ (beat (some 6)).keepOk = true) ∧
      (met 0 (twin 3 3 true false none)).twin.peerRole = 3 ∧ (met 0 (twin 3 4 true false none)).twin.peerRole = 4 ∧ (up.seen 0).twinEn = false ∧
      ( let d (t : Time) (lost : Bool) := met t (twin 2 3 true lost none)
        (d 6 false).twinEn = true ∧ (d 6 false).twin.lost = false ∧ (d 6 false).clk.now < (d 6 false).twin.lastHb + (d 6 false).hbLoss ∧
          (d sec false).twin.lastHb + (d sec false).hbLoss ≤ (d sec false).clk.now ∧ (d 6 true).twin.lost = true ∧ (d 6 true).twin.role = 2) ∧
      (met 6 (twin 4 2 false true none)).twin.role = 4 ∧ (met 6 (twin 2 2 false true none)).twin.peerRole = 2 ∧
      (met 6 (twin 2 2 false true none)).twin.senior = false := by decide +kernel

/-- A Twin whose mirror has been in step, with this change due at instant 5. -/
def due (role code dom : Nat) (d : Device) : Device :=
  ((twin role 0 true false none d).onDom 2 fun x => { x with st := dom }).onTwin fun w =>
    { w with syncedOnce := true, takeAt := some (5, code) }

theorem witness_TwinChanges :
    ( let d (t : Time) := met t (twin 1 0 true false none)
      (d 6).twin.role = 1 ∧ (d 6).twin.senior = true ∧ (d 6).twin.peerRole ≠ 2 ∧ (d 6).twin.mirrorStale = false ∧
        (d (10 * sec)).twin.startedAt + (d (10 * sec)).startWait ≤ (d (10 * sec)).clk.now) ∧
      ( let d := met 0 fun d => (twin 2 3 true false none d).onRng fun r => { r with st := 2 }
        d.twin.role = 2 ∧ d.twin.handover = none ∧ d.twinPresent = true ∧ d.lanes.rng.st = 2 ∧ d.twin.yielding = false) ∧
      (met 0 (twin 2 3 true false none)).lanes.rng.st ≠ 2 ∧
      ( let d := met 0 fun d => (twin 3 2 true false none d).onRng fun r => { r with st := 2 }
        d.twin.role = 3 ∧ d.lanes.rng.st = 2) ∧
      (up.seen 0).twin.role = 0 ∧ (up.seen 0).twin.takeAt = none ∧ (up.seen 0).twin.handover = none ∧
      ( let agreed (d : Device) : Device := d.setCfg Reg.KEEP_LL_AGREE 0x80000000
        let d (t : Time) (role code dom : Nat) := met t fun d => agreed (due role code dom d)
        (d 6 3 5 3).twin.takeAt = some (5, 5) ∧ (d 6 3 5 3).mayTake = true ∧ (d 6 3 5 3).servingAll (fun x => x == 3) = true ∧
          (d 6 3 5 4).servingAll (fun x => x == 3) = false ∧ (d 6 3 5 4).servingAll (fun x => x == 3 || x == 4) = true ∧
          (d 6 3 5 1).servingAll (fun x => x == 3 || x == 4) = false ∧ (d 4 3 5 3).clk.now < 5 ∧ (5 : Time) ≤ (d 6 3 5 3).clk.now ∧
          (d 6 2 5 3).twin.role = 2 ∧ (d 6 1 5 3).twin.role = 1 ∧ (d 6 4 4 3).twin.airHeard = false) ∧
      (met 6 (due 3 5 3)).mayTake = false ∧
      (met 6 fun d => (due 4 4 3 d).onTwin fun w => { w with airHeard := true }).twin.airHeard = true ∧
      (met 6 fun d => (due 4 4 3 d).onTwin fun w => { w with wasLit := true }).twin.wasLit = true ∧
      ( let d (h : Nat) := met 0 fun d => (twin 2 3 true false none d).onTwin fun w => { w with handover := some h }
        (d 0).twin.handover = some 0 ∧ 0 * sfLen ≤ (d 0).lampHn + msec ∧ (d 1).lampHn + msec < 1 * sfLen) := by decide +kernel

/-- The device in this power state, a wake source latched and enabled, or none. -/
def inPower (st : Nat) (latch : BitVec 7) (d : Device) : Device := (d.setCfg Reg.MOOR_WAKE_EN 0x10).onPwr fun p => { p with st := st, latch := latch }

theorem witness_PowerStates :
    (met 0 (twin 2 3 true false none)).twinEn = true ∧ (up.seen 0).twinEn = false ∧ (up.seen 0).pwr.st = 0 ∧ (up.seen 0).pwr.held = false ∧
      (up.seen 0).keep.fwd = (up.seen 0).keep.wr ∧ (up.seen 0).lant.ring = [] ∧ (up.seen 0).pwrWaits = false ∧
      (met 0 fun d => d.onKeep fun k => { k with wr := 1 }).keep.fwd < (met 0 fun d => d.onKeep fun k => { k with wr := 1 }).keep.wr ∧
      (met 0 fun d => d.onLL fun l => { l with stage := 3 }).pwrWaits = true ∧ (met 0 fun d => d.onPwr fun p => { p with held := true }).pwr.held = true ∧
      ( let d := met 0 fun d => (d.onPwr fun p => { p with st := 1 }).onLant fun l => { l with eclipseFlag := true }
        d.pwr.st = 1 ∧ d.lant.eclipseFlag = true ∧ d.ciph.jobs = []) ∧
      ( let d (st : Nat) (latch : BitVec 7) := met 0 (inPower st latch)
        (d 2 0).pwr.st = 2 ∧ (d 3 0).pwr.st = 3 ∧ (d 4 0).pwr.st = 4 ∧ (d 3 0).wakeSource = none ∧ (d 3 0).eclipseFault = false ∧
          ((d 2 0x10).wakeSource).isSome = true ∧ ((d 3 0x10).wakeSource).isSome = true ∧ ((d 4 0x10).wakeSource).isSome = true ∧
          (d 3 0).tickDue = true) ∧
      (met 0 fun d => (inPower 2 0 d).onDom 2 fun x => { x with st := 5 }).eclipseFault = true ∧
      (met 0 fun d => (inPower 3 0 d).onPwr fun p => { p with tickAt := some 5 }).tickDue = false ∧
      ( let at_ (sec_ : Nat) := met 0 fun d => { d.setCfg Reg.MOOR_RTC_ALARM 7 with clk := { d.clk with rtcFix := sec_ * 32768 * 2000000000 } }
        ((at_ 7).cfg Reg.MOOR_RTC_ALARM).toNat ≠ 0 ∧ (at_ 7).rtcSec % 4294967296 = 7 ∧ (at_ 6).rtcSec % 4294967296 ≠ 7) := by decide +kernel

/-- GPIO pin 0, frozen since instant 0 or free, active since instant 0. -/
def pin0 (frozen : Bool) (d : Device) : Device := d.onGpio 0 fun g => { g with frozen := frozen, frozenAt := 0, activeAt := some 0 }

theorem witness_Pins :
    (up.seen 0).start.powered = true ∧ (State.reset.seen 0).start.powered = false ∧
      ((met 0 (pin0 true)).gpio 0).frozen = true ∧ ((met 0 (pin0 false)).gpio 0).frozen = false ∧
      0 + (met sec (pin0 false)).debounce 0 ≤ (met sec (pin0 false)).clk.now ∧ (met 0 id).clk.now < 1 + (met 0 id).debounce 0 ∧
      (up.seen 0).chatterMax < 65536 ∧ ((met 0 (pin0 true)).gpio 0).frozenAt + 11 * sec ≤ (met (11 * sec) (pin0 true)).clk.now ∧
      (met 0 (pin0 true)).clk.now < ((met 0 (pin0 true)).gpio 0).frozenAt + 11 * sec ∧ ((up.seen 0).gpio 0).activeAt = none ∧
      ( let d := met (100000 * sec) fun d => (pin0 false d).setCfg Reg.MOOR_GPIO_CTRL 0xFFFFFFFF
        (d.gpio 0).activeAt = some 0 ∧ 0 + d.stuckTime ≤ d.clk.now ∧ (d.gpio 0).stuck = false ∧ d.stuckTime ≠ 0) := by decide +kernel

/-! ## Witnesses: services, events, watches and debug -/

/-- PTP on port 0 as an ordinary slave, feeding domain A. -/
def ptpOn (d : Device) : Device :=
  ((d.setCfg Reg.KEEP_PTP_CTRL 0x80000000).setCfg (Reg.KEEP_PTP_PORT 0) 0x80000000).setCfg (Reg.LANT_DOM_CFG 0) (2 <<< 29)

/-- The collector's acknowledgement of record 0. -/
def anAck (d : Device) : Bytes :=
  let m := beBytes 2 0x4E53 ++ [1, 2] ++ beBytes 8 d.otp.serial.toNat ++ zeros 4 ++ beBytes 8 1 ++ zeros 8
  m ++ tag8 d.spoolKey m

/-- The spool forwarding, with record 0 sent and unacknowledged since instant 0. -/
def forwarding (timeouts : Nat) (stalled : Bool) (d : Device) : Device :=
  (d.setCfg Reg.KEEP_SPOOL_CTRL 0x8000).onKeep fun k =>
    { k with wr := 1, sendNext := 1, sentHigh := 1, unacked := [(0, 1)], timeouts := timeouts, stalled := stalled }

theorem witness_SpoolGeofencePtp :
    (State.reset.seen 0).domDown 1 = true ∧ (up.seen 0).domDown 1 = false ∧ (up.seen 0).keep.splIn = [] ∧
      (met 0 fun d => d.onKeep fun k => { k with splIn := [aQPkt 1 false] }).keep.splIn = [aQPkt 1 false] ∧ (aQPkt 1 false).rep = none ∧
      ({ aQPkt 1 false with rep := some ⟨0, 0, .l, 0, 0, false, false, 0, 0⟩ } : QPkt).rep.isSome = true ∧
      ( let d := met 0 (forwarding 0 false)
        d.spoolAckOk (anAck d) = true ∧ d.spoolAckOk [] = false) ∧
      (up.seen 0).forwards = false ∧
      ( let d (n : Nat) (st : Bool) := met (100 * sec) (forwarding n st)
        (d 7 false).forwards = true ∧ (d 7 false).keep.unacked ≠ [] ∧
          (d 7 false).keep.fwdMoved + ((d 7 false).keep.timeouts + 1) * (d 7 false).fwdTimeout ≤ (d 7 false).clk.now ∧ (d 6 false).keep.timeouts + 1 < 8 ∧
          8 ≤ (d 7 false).keep.timeouts + 1 ∧ (d 7 true).keep.stalled = true) ∧
      ( let d (t : Time) := met t fun d => d.setCfg Reg.KEEP_GEO_CTRL 0x80000000
        (d 0).keeperUp = true ∧ (d 0).geoOn = true ∧ (d (3 * sec)).keep.lastFix + 3 * sec ≤ (d (3 * sec)).clk.now ∧
          (d 0).clk.now < (d 0).keep.lastFix + 3 * sec) ∧
      (up.seen 0).geoOn = false ∧ (up.seen 0).ptpRuns 0 = false ∧
      ( let d := met 0 ptpOn
        let slave := d.ptpSlave 0
        let x : RefDom := if slave.cb Reg.KEEP_PTP_CTRL 30 then .b else .a
        d.keeperUp = true ∧ d.ptpRuns 0 = true ∧ d.ptpMode 0 ≠ 1 ∧ slave.cf Reg.KEEP_PTP_CTRL 29 27 = 0 ∧ slave.refSrc x = 2 ∧
          slave.refusal 0 (Reg.LANT_DOM_FEED_HI (domIdx x)) 4 = none ∧ (d.ptpSlave 1).cf Reg.KEEP_PTP_CTRL 29 27 ≠ 1) := by decide +kernel

/-- A management request of this operation, with this body. -/
def aReq (op : Nat) (body : Bytes) : MgmtReq := ⟨op, false, 1, body, 0, 0, 0⟩

/-- A management datagram of this operation and boot nonce. -/
def aDatagram (op nonce : Nat) (good : Bool) (d : Device) : Datagram :=
  let m := beBytes 2 0x4E4D ++ [1, 0, BitVec.ofNat 8 op, 0] ++ zeros 2 ++ beBytes 8 d.otp.serial.toNat ++ beBytes 8 nonce ++ beBytes 4 1 ++ zeros 4
  ⟨0, 0, d.mgmtPort, 0, 3, m ++ if good then tag8 (d.mgmtKey (mgmtReq ⟨0, 0, 0, 0, 0, m ++ zeros 8⟩).keyRead) m else zeros 8⟩

/-- Management on queue 0. -/
def managed (d : Device) : Device := d.setCfg Reg.KEEP_MGMT_CTRL ((d.cfg Reg.KEEP_MGMT_CTRL &&& 0xFFFF7FF8) ||| 0x8000)

theorem witness_ManagementRequests :
    ( let d := met 0 managed
      let m (op nonce : Nat) (good : Bool) := aDatagram op nonce good d
      d.mgmtOn (m 1 0 true) = true ∧ d.mgmtForUs (m 1 0 true).data = true ∧ (up.seen 0).mgmtForUs [] = false ∧
        d.mgmtTagOk (m 1 0 false).data (mgmtReq (m 1 0 false)).keyRead = false ∧
        d.mgmtTagOk (m 1 0 true).data (mgmtReq (m 1 0 true)).keyRead = true ∧ (mgmtReq (m 1 0 true)).op = 1 ∧ (mgmtReq (m 2 0 true)).op = 2 ∧
        d.mgmtTagOk (m 2 0 true).data (mgmtReq (m 2 0 true)).keyRead = true ∧
        fieldAt (m 2 d.keep.bootNonce.toNat true).data 16 8 = d.keep.bootNonce.toNat ∧
        fieldAt (m 2 (d.keep.bootNonce.toNat + 1) true).data 16 8 ≠ d.keep.bootNonce.toNat) ∧
      (up.seen 0).keep.hellos = [] ∧ (up.seen 0).keep.queue = [] ∧ (up.seen 0).keeperUp = true ∧ (State.reset.seen 0).keeperUp = false ∧
      (met 0 fun d => d.onKeep fun k => { k with hellos := [aReq 1 []] }).keep.hellos = [aReq 1 []] ∧ (aReq 1 []).body = [] ∧ (aReq 1 [0]).body ≠ [] ∧
      (met 0 fun d => d.onKeep fun k => { k with queue := [aReq 2 []] }).keep.queue = [aReq 2 []] ∧ (aReq 2 []).op = 2 ∧ (aReq 2 []).op ≠ 3 ∧
      (met 0 fun d => d.onStart fun s => { s with degraded := true }).start.degraded = true ∧ readOp 3 = false ∧ readOp 2 = true := by decide +kernel

theorem witness_EventsAndLog :
    (up.seen 0).log.busy = false ∧ (met 0 fun d => d.onLog fun l => { l with cur := some ⟨[], true⟩ }).log.busy = true ∧ (up.seen 0).log.cur = none ∧
      (met 0 fun d => d.onLog fun l => { l with cur := some ⟨[], true⟩ }).log.cur = some ⟨[], true⟩ ∧
      (met 0 fun d => d.onLog fun l => { l with reqs := 31 }).log.reqs = 31 ∧ 31 < (met 0 fun d => d.onLog fun l => { l with reqs := 32 }).log.reqs := by
  decide +kernel

/-- Watch 0 kicked at instant 5, with its period enabled. -/
def watched (d : Device) : Device := (d.setCfg (Reg.MOOR_WATCH_CFG 0) 0x80000001).onWatch 0 fun x => { x with kicked := 5 }

/-- A ladder of domain 3 at its first step, running or not. -/
def laddered (running : Bool) (d : Device) : Device :=
  d.onTender fun k => { k with ladders := [⟨3, none, 1, 5, running, 0, true, none⟩] }

theorem witness_WatchesAndLadders :
    up.pending.any (Instr.kicks 0 0) = false ∧ { up with pending := [.watchKick 7 1] }.pending.any (Instr.kicks 7 0) = true ∧
      ( let d (t : Time) := met t watched
        (d 6).start.powered = true ∧ (d 6).watchOn 0 = true ∧ (d 6).watchPaused 0 = false ∧ ((d 6).watch 0).expired = false ∧
          ¬ (d 6).watchPeriod 0 ≤ (d 6).clk.now - ((d 6).watch 0).kicked - ((d 6).watch 0).paused ∧
          (d (1000 * sec)).watchPeriod 0 ≤ (d (1000 * sec)).clk.now - ((d (1000 * sec)).watch 0).kicked - ((d (1000 * sec)).watch 0).paused) ∧
      (up.seen 0).ladderOf 3 = none ∧
      ( let d (t : Time) (running : Bool) := met t (laddered running)
        let l (running : Bool) : Ladder := ⟨3, none, 1, 5, running, 0, true, none⟩
        (d 0 false).ladderOf 3 = some (l false) ∧ (d 0 false).start.resetLow = none ∧ (d 0 false).pwr.tripped = false ∧
          (d 0 false).stepWaits (l false) = false ∧ (d 0 true).ladderOf 3 = some (l true) ∧
          0 + (d (100 * sec) true).stepLimit (l true) ≤ (d (100 * sec) true).clk.now) ∧
      ((up.seen 0).ladderAsk 5 3 1).isSome = true ∧ ((up.seen 0).ladderAsk 5 0 1).isSome = false ∧ (up.seen 0).tender.halted = false ∧
      (met 0 fun d => d.onTender fun k => { k with halted := true }).tender.halted = true := by decide +kernel

/-- The debug unit unlocked, or blocked until instant 5 after a challenge. -/
def unlocked (d : Device) : Device := d.onDbg fun k => { k with unlocked := true }
def challenged (blocked : Option Time) (d : Device) : Device := d.onDbg fun k => { k with blocked := blocked, challenge := some (9, 0) }

theorem witness_TapAndDebugLock :
    (met 0 unlocked).dbg.unlocked = true ∧ (up.seen 0).dbg.unlocked = false ∧ (up.seen 0).start.resetLow.isSome = false ∧
      (met 0 (resetSince 0 true)).start.resetLow.isSome = true ∧ (met 4 (challenged (some 5))).dbgBlocked = true ∧
      (met 5 (challenged (some 5))).dbgBlocked = false ∧
      ( let d := (met 4 (challenged none)).onDbg fun k => { k with ir := 0x11, drive := 0 }
        d.dbgBlocked = false ∧ d.dbgMatch 0 = false ∧ d.dbgMatch (cmac d.debugKey (blockBytes 9 ++ beBytes 8 d.otp.serial.toNat)) = true) := by
  decide +kernel

theorem witness_DebugAccess :
    (up.seen 0).dbg.unlocked = false ∧ (met 0 unlocked).dbg.unlocked = true ∧ (upWith unlocked).dev.dbgHole 0 0 = false ∧
      (upWith unlocked).dev.dbgHole 1 0x10000000 = false ∧ (upWith unlocked).dev.dbgHole 2 0 = false ∧ 2 ≤ (2 : BitVec 6).toNat ∧
      (met 0 unlocked).coresRun = true ∧ ((met 0 unlocked).core 0).halted = false ∧ (State.reset.seen 0).coresRun = false ∧
      ((met 0 fun d => d.onCore 0 fun c => { c with halted := true }).core 0).halted = true ∧
      ( let c := (met 0 fun d => d.onCore 0 fun c => { c with bp := [(0, 0x101)], wpAddr := [(0, 0x40)], wpCtl := [(0, 0xE000001F)] }).core 0
        bitOf (c.bp.get 0 0) 0 = true ∧ bitOf (c.bp.get 0 1) 0 = false ∧ c.watches 0 0x40 true = true ∧ c.watches 1 0x40 true = false) := by
  decide +kernel

/-! ## Witnesses: rules as the specification states them -/

/-- An event entry. -/
def anEntry : EvEntry := ⟨1, 2, 0, 1, 3⟩

theorem witness_EventQueueHead :
    (up.seen 0).ev.queue = [] ∧ (up.seen 0).cycle.lost = [] ∧ (up.seen 0).cycle.formed = false ∧
      (met 0 fun d => d.onEv fun e => { e with queue := [anEntry] }).ev.queue = [anEntry] ∧
      (met 0 fun d => d.onEv fun e => { e with queue := [anEntry, anEntry] }).ev.queue = [anEntry, anEntry] := by decide +kernel

theorem witness_NoCounterPassesTwice : RWin.fresh.passes 0 = true := by decide

end Sys2Proof.Tests
end

section
/-! PROOFS. The Bell (R134, R135): what a received code does to the device, case by case, and that a code that has matched
rests for 1 s. -/

namespace Sys2Proof.Machine

theorem Tab.find?_put_self {α : Type} (k : Nat) (v : α) :
    ∀ t : Tab α, (Tab.put t k v).find? (fun x => x.1 == k) = some (k, v)
  | [] => by simp [Tab.put]
  | (j, w) :: r => by
    unfold Tab.put
    split
    case isTrue => simp
    case isFalse =>
      split
      case isTrue => simp
      case isFalse hjk => simp [hjk, Tab.find?_put_self k v r]

/-- The Bell ignores its input: the power is down, or Radio L, neither OFF nor in RESET, asserts its PA_EN (R135). -/
def Device.BellDeaf (d : Device) : Prop :=
  d.start.powered = false ∨ (d.domDown 3 = false ∧ bitOf (d.rad.l.pinsAt d.clk.now) 0 = true)

/-- The device once the Bell has taken `code` for its code `i`, before the wake latch: the match is stored, counted and told
(R134). -/
def Device.bellTold (d : Device) (code : Word) (i : Nat) : Device :=
  ((d.onPwr fun p => { p with
    bellAt := p.bellAt.put i d.clk.now
    bellLast := w32 (i * 0x20000000 + codeErrors code (d.cfg (Reg.MOOR_BELL_CODE i)) * 0x08000000
      + d.rtcTicks % 0x08000000) }).inc Reg.MOOR_BELL_MATCH_CNT).raise 8 0

section
variable {d : Device} {code : Word} {i : Nat}

theorem addCnt_onPwr_regs (f : Power → Power) (a n max : Nat) : ((d.onPwr f).addCnt a n max).regs = (d.addCnt a n max).regs := rfl

@[simp] theorem bellTold_bellAt : (d.bellTold code i).pwr.bellAt = d.pwr.bellAt.put i d.clk.now := by
  simp [Device.bellTold]

@[simp] theorem bellTold_regs : (d.bellTold code i).regs = (d.inc Reg.MOOR_BELL_MATCH_CNT).regs :=
  raise_regs.trans (addCnt_onPwr_regs _ _ _ _)

@[simp] theorem latchSet_bellAt (n : Nat) : (d.latchSet n).pwr.bellAt = d.pwr.bellAt := by
  unfold Device.latchSet; split <;> rfl

@[simp] theorem latchSet_regs (n : Nat) : (d.latchSet n).regs = d.regs := by
  unfold Device.latchSet; split <;> rfl

theorem cnt_congr {d e : Device} (h : d.regs = e.regs) (a : Nat) : d.cnt a = e.cnt a := by
  unfold Device.cnt; rw [h]

/-! ### BELL_MATCH, a case each -/

theorem bellMatch_of_deaf (h : d.BellDeaf) : bellMatch code d = d :=
  if_pos (by simpa [Device.BellDeaf] using h)

theorem bellMatch_of_miss (h : d.bellHit code = none) : bellMatch code d = d := by
  simp only [bellMatch, h, ite_self]

theorem bellMatch_of_hit (hd : ¬ d.BellDeaf) (h : d.bellHit code = some i) :
    bellMatch code d =
      if (d.bellTold code i).cb Reg.MOOR_BELL_CTRL (16 + i) then (d.bellTold code i).latchSet 3 else d.bellTold code i := by
  unfold bellMatch
  rw [if_neg (by simpa [Device.BellDeaf] using hd), h]
  rfl

/-- A match is kept with its instant. -/
theorem bellMatch_bellAt (hd : ¬ d.BellDeaf) (h : d.bellHit code = some i) :
    (bellMatch code d).pwr.bellAt = d.pwr.bellAt.put i d.clk.now := by
  rw [bellMatch_of_hit hd h]
  split <;> simp

/-- Of the registers and counters a match changes the count of matches alone. -/
theorem bellMatch_regs (hd : ¬ d.BellDeaf) (h : d.bellHit code = some i) :
    (bellMatch code d).regs = (d.inc Reg.MOOR_BELL_MATCH_CNT).regs := by
  rw [bellMatch_of_hit hd h]
  split <;> simp

/-! ### The rest of 1 s -/

/-- The code that matches, where its last match is kept, matched at least 1 s ago (R135). -/
theorem bellHit_rested {u : Time} (h : d.bellHit code = some i) (hu : d.pwr.bellAt.find? (fun x => x.1 == i) = some (i, u)) :
    u + sec ≤ d.clk.now := by
  have hp := List.find?_some h
  simp only [hu, Bool.and_eq_true, decide_eq_true_eq] at hp
  exact hp.2

end

theorem exec_bellMatch (t : Time) (code : Word) (s : State) :
    exec (.bellMatch t code) s = .next (s.put (bellMatch code (s.seen t))) := rfl

/-- Settles O58: the three cases of BELL_MATCH, and the rest that `bellHit` demands of a code that has matched. -/
theorem aCodeMatchesOnceInASecond : Obligations.ACodeMatchesOnceInASecond := by
  intro s t code d deaf
  refine ⟨fun h => ?noEffect, fun i hd hi => ?kept, fun i u hu hlt hi => ?rests⟩
  case noEffect =>
    rw [exec_bellMatch]
    rcases h with hdeaf | hmiss
    · rw [bellMatch_of_deaf hdeaf]
    · rw [bellMatch_of_miss hmiss]
  case kept =>
    refine ⟨bellMatch code d, exec_bellMatch t code s, ?_, cnt_congr (bellMatch_regs hd hi) _⟩
    rw [bellMatch_bellAt hd hi, Tab.find?_put_self]
  case rests =>
    exact absurd (bellHit_rested hi hu) (Nat.not_le.mpr hlt)

end Sys2Proof.Machine
end

section
/-! PROOFS. Cleared table entries (R188): an entry without its valid bit is live in no generation and no probe finds it, and
TBL_CLEAR leaves its entry so, where the stored map is canonical. At a map that lists a key twice, a state that the statement
does not shut out, clearing the first entry uncovers the second, a valid one. -/

namespace Sys2Proof.Machine

/-! ### Entries and lookups -/

@[simp] theorem valid_cleared (e : Entry) : e.cleared.valid = false := by
  simp [Entry.cleared, Entry.valid, bitOf, clrBit]

/-- R188's first sentence. -/
theorem live_of_not_valid {e : Entry} (h : e.valid = false) (g : Nat) : e.live g = false := by
  simp [Entry.live, h]

/-- What a probe finds stands at one of the places and is live for the generation of the lookup (R174, R175). -/
theorem probe_eq_some {entry : Nat → Entry} {gen ty key i : Nat} {e : Entry} :
    ∀ {places : List Nat}, probe entry gen ty key places = some (i, e) → i ∈ places ∧ e = entry i ∧ e.live gen = true
  | [], h => nomatch h
  | j :: rest, h => by
    unfold probe at h
    dsimp only at h
    split at h
    case isTrue hj =>
      obtain ⟨rfl, rfl⟩ : j = i ∧ entry j = e := by simpa using h
      exact ⟨List.mem_cons_self, rfl, (Bool.and_eq_true_iff.mp hj).1⟩
    case isFalse =>
      obtain ⟨hi, he⟩ := probe_eq_some h
      exact ⟨List.mem_cons_of_mem j hi, he⟩

/-- No lookup of any generation finds an entry without its valid bit (R188). -/
theorem valid_of_probe {entry : Nat → Entry} {gen ty key i : Nat} {e : Entry} {places : List Nat}
    (h : probe entry gen ty key places = some (i, e)) : e.valid = true := by
  obtain ⟨-, -, hlive⟩ := probe_eq_some h
  by_contra hv
  simp [live_of_not_valid (Bool.eq_false_iff.mpr hv)] at hlive

/-! ### TBL_CLEAR -/

/-- The device once TBL_CLEAR has cleared the entry `i` of table `t`: lookups of the same cycle still see the entry as it was. -/
def Device.tblCleared (d : Device) (t i : Nat) : Device :=
  (d.onCycle fun c => { c with tables := c.tables.put (tblKey t i) (d.entrySeen t i) }).onPkt fun p =>
    p.setEntry t i (d.pkt.entry t i).cleared

@[simp] theorem tblCleared_pkt (d : Device) (t i : Nat) :
    (d.tblCleared t i).pkt = d.pkt.setEntry t i (d.pkt.entry t i).cleared := rfl

@[simp] theorem tblCleared_clk (d : Device) (t i : Nat) : (d.tblCleared t i).clk = d.clk := rfl

theorem tblClear_admitted {d : Device} {n : Fin 4} {i : BitVec 15} (hadm : d.Admits Reg.PKT_TBL_CMD)
    (hidle : d.pkt.tblBusy = false) (hi : i.toNat < tblSize n.val) : tblClear n i d = d.tblCleared n.val i.toNat := by
  unfold tblClear Device.tblCmd
  rw [keeperAccess_admitted hadm, if_neg (by simp [hidle, hi])]
  rfl

theorem exec_tblClear_admitted {s : State} {t : Time} {n : Fin 4} {i : BitVec 15} (hadm : (s.seen t).Admits Reg.PKT_TBL_CMD)
    (hidle : (s.seen t).pkt.tblBusy = false) (hi : i.toNat < tblSize n.val) :
    exec (.tblClear t n i) s = .next (s.put ((s.seen t).tblCleared n.val i.toNat)) :=
  congrArg (fun d => Host.Outcome.next (s.put d)) (tblClear_admitted hadm hidle hi)

/-- From the next cycle on a lookup sees the entry that is stored (R178, R190). -/
theorem entrySeen_later {s : State} {d : Device} {later : Time} (h : d.clk.now < later) (t i : Nat) :
    ((s.put d).seen later).entrySeen t i = d.pkt.entry t i := by
  have hcycle : ((s.put d).seen later).cycle = Cycle.empty := if_pos h
  unfold Device.entrySeen
  rw [hcycle]
  rfl

theorem entry_setEntry_self {p : Packet} (h : Tab.wf 0 p.tables = true) (t i : Nat) (e : Entry) :
    (p.setEntry t i e).entry t i = e :=
  Tab.get_set_self h

/-- An entry of 0 is not listed. -/
theorem entry_setEntry_zero (p : Packet) (t i : Nat) : (p.setEntry t i 0).entry t i = (p.tables.del (tblKey t i)).get 0 (tblKey t i) := by
  simp [Packet.entry, Packet.setEntry, Tab.set]

/-- TBL_CLEAR over canonical tables: from the next cycle on every lookup sees the entry without its valid bit (R188). -/
theorem entrySeen_tblCleared {s : State} {d : Device} {later : Time} (h : Tab.wf 0 d.pkt.tables = true)
    (hlater : d.clk.now < later) (t i : Nat) :
    ((s.put (d.tblCleared t i)).seen later).entrySeen t i = (d.pkt.entry t i).cleared := by
  rw [entrySeen_later (by simpa using hlater), tblCleared_pkt, entry_setEntry_self h]

/-- The tables are canonical at reset. -/
theorem reset_tables_wf : Tab.wf 0 State.reset.dev.pkt.tables = true := rfl

/-- What O56 says of TBL_CLEAR, under the premise that its statement leaves out: the tables are canonical. -/
theorem exec_tblClear_of_tables_wf {s : State} {t : Time} {n : Fin 4} {i : BitVec 15}
    (hwf : Tab.wf 0 (s.seen t).pkt.tables = true) (hadm : (s.seen t).Admits Reg.PKT_TBL_CMD)
    (hidle : (s.seen t).pkt.tblBusy = false) (hi : i.toNat < tblSize n.val) :
    ∃ d', exec (.tblClear t n i) s = .next (s.put d') ∧
      ∀ later, (s.seen t).clk.now < later → (((s.put d').seen later).entrySeen n.val i.toNat).valid = false := by
  refine ⟨_, exec_tblClear_admitted hadm hidle hi, fun later hlater => ?_⟩
  rw [entrySeen_tblCleared hwf hlater, valid_cleared]

/-! ### Tables that list a key twice -/

/-- An entry that holds its valid bit and nothing else. -/
def bareValid : Entry := BitVec.twoPow 512 479

/-- D6 is READY, and the entry 0 of table 0 is listed twice, which no canonical map does. -/
def listedTwice : State :=
  { State.reset with dev := ({ State.reset.dev with doms := [(6, { Domain.reset with st := 3 })] } : Device).onPkt fun p =>
      { p with tables := [(0, bareValid), (0, bareValid)] } }

theorem valid_bareValid : bareValid.valid = true := by
  simp [bareValid, Entry.valid, bitOf]

theorem cleared_bareValid : bareValid.cleared = 0 :=
  BitVec.and_not_self _

/-- The clear removes the first listing alone, since what it would store is the default; the second is then found. -/
theorem entry_tblCleared_listedTwice : ((listedTwice.seen 0).tblCleared 0 0).pkt.entry 0 0 = bareValid := by
  have hentry : (listedTwice.seen 0).pkt.entry 0 0 = bareValid := rfl
  have htables : (listedTwice.seen 0).pkt.tables = [(0, bareValid), (0, bareValid)] := rfl
  rw [tblCleared_pkt, hentry, cleared_bareValid, entry_setEntry_zero, htables]
  simp [tblKey, Tab.del, Tab.get]

/-- Refutes O56: its last clause fails at `listedTwice`, where the entry that is seen after the clear is valid. The clauses on
liveness and lookups hold (`live_of_not_valid`, `probe_eq_some`, `valid_of_probe`), and over canonical tables a clear does put
the valid bit to 0 (`exec_tblClear_of_tables_wf`). -/
theorem not_clearedEntriesAreLiveInNoGeneration : ¬ Obligations.ClearedEntriesAreLiveInNoGeneration := by
  rintro ⟨-, -, hclear⟩
  have hadm : (listedTwice.seen 0).Admits Reg.PKT_TBL_CMD := by
    unfold Device.Admits
    decide
  have hsize : (0 : BitVec 15).toNat < tblSize (0 : Fin 4).val := by decide
  obtain ⟨e, before, hinvalid, -, hexec, hseen⟩ := hclear listedTwice 0 0 0 hadm rfl hsize
  have hstate := Host.Outcome.next.inj (hexec.symm.trans (exec_tblClear_admitted hadm rfl hsize))
  have he : bareValid = e := by
    have hclk : (listedTwice.seen 0).clk.now < 1 := by decide
    rw [← hseen 1 hclk, hstate, entrySeen_later (by simpa using hclk)]
    exact entry_tblCleared_listedTwice.symm
  rw [← he, valid_bareValid] at hinvalid
  exact absurd hinvalid (by decide)

end Sys2Proof.Machine
end

section
/-! PROOFS. Packets and cells (R193): what placing a packet and freeing its cells do to the two occupancies, when spilling
starts, and that a packet without a free cell where it is placed is refused. -/

namespace Sys2Proof.Machine

/-! ### The cells of a packet, and where its descriptor stands -/

theorem cells_eq_ceil (x : QPkt) : x.cells = (x.data.length + 255) / 256 := by
  rw [QPkt.cells, ceilDiv, Nat.add_succ_sub_one]

theorem length_hotDescs (q : Queue) : q.hotDescs.length = min 4 q.pkts.length :=
  List.length_take

theorem dramDescs_eq_nil_iff (q : Queue) : q.dramDescs = [] ↔ q.pkts.length ≤ 4 :=
  List.drop_eq_nil_iff

theorem hotDescs_append_dramDescs (q : Queue) : q.hotDescs ++ q.dramDescs = q.pkts :=
  List.take_append_drop 4 q.pkts

theorem length_hotDescs_le (q : Queue) : q.hotDescs.length ≤ 4 :=
  List.length_take_le 4 q.pkts

/-- A descriptor stands in DRAM only where the hot context holds its four. -/
theorem length_hotDescs_of_dramDescs {q : Queue} (h : q.dramDescs ≠ []) : q.hotDescs.length = 4 := by
  rw [ne_eq, dramDescs_eq_nil_iff] at h
  rw [length_hotDescs]
  omega

/-! ### Spilling -/

theorem spills_eq_true_iff (d : Device) (k : Nat) : d.spills k = true ↔ 72 ≤ k ∧ d.cf Reg.PKT_BUF_CTRL 15 0 ≤ d.pkt.cells :=
  decide_eq_true_iff

theorem resetValue_PKT_BUF_CTRL : resetValue Reg.PKT_BUF_CTRL = 36864 := by decide

theorem reset_spillLevel : State.reset.dev.cf Reg.PKT_BUF_CTRL 15 0 = 36864 :=
  congrArg (fld · 15 0) resetValue_PKT_BUF_CTRL

/-- The device with its spilling state set to this. -/
def Device.withSpilling (d : Device) (now : Bool) : Device := d.onPkt fun p => { p with spilling := now }

/-- The spilling state follows the occupancy; the rest of the packet engine stays. -/
@[simp] theorem spillUpdate_pkt (d : Device) :
    d.spillUpdate.pkt = { d.pkt with spilling := decide (d.cf Reg.PKT_BUF_CTRL 15 0 ≤ d.pkt.cells) } := by
  unfold Device.spillUpdate
  dsimp only
  split <;> simp

section
variable {d : Device} {k : Nat} {x : QPkt}

/-- Where spilling starts, EV151 is raised. -/
theorem spillUpdate_of_starts (hwas : d.pkt.spilling = false) (hnow : d.spillUpdate.pkt.spilling = true) :
    d.spillUpdate = (d.withSpilling true).raise 151 0 := by
  have hlevel : d.cf Reg.PKT_BUF_CTRL 15 0 ≤ d.pkt.cells := by simpa using hnow
  simp [Device.spillUpdate, Device.withSpilling, hwas, hlevel]

/-! ### Placing a packet, and giving its cells back -/

/-- The device once the packet stands at the tail of the queue and its cells are taken, before the spilling state follows. -/
def Device.placed (d : Device) (k : Nat) (x : QPkt) : Device :=
  (d.onQueue k fun q => { q with pkts := q.pkts ++ [{ x with dram := d.spills k, at_ := d.clk.now }] }).onPkt fun p =>
    if d.spills k then { p with dramCells := p.dramCells + x.cells } else { p with cells := p.cells + x.cells }

theorem qPush_eq_spillUpdate (d : Device) (k : Nat) (x : QPkt) : d.qPush k x = (d.placed k x).spillUpdate := rfl

@[simp] theorem placed_spilling (d : Device) (k : Nat) (x : QPkt) : (d.placed k x).pkt.spilling = d.pkt.spilling := by
  unfold Device.placed
  rw [onPkt_pkt]
  split <;> rfl

theorem qPush_occupancy_of_spills (h : d.spills k = true) :
    (d.qPush k x).pkt.dramCells = d.pkt.dramCells + x.cells ∧ (d.qPush k x).pkt.cells = d.pkt.cells := by
  simp [qPush_eq_spillUpdate, Device.placed, Device.onQueue, h]

theorem qPush_occupancy_of_not_spills (h : d.spills k = false) :
    (d.qPush k x).pkt.cells = d.pkt.cells + x.cells ∧ (d.qPush k x).pkt.dramCells = d.pkt.dramCells := by
  simp [qPush_eq_spillUpdate, Device.placed, Device.onQueue, h]

theorem freeCells_occupancy_of_onChip (h : x.dram = false) :
    (d.freeCells x).pkt.cells = d.pkt.cells - x.cells ∧ (d.freeCells x).pkt.dramCells = d.pkt.dramCells := by
  simp [Device.freeCells, h]

theorem freeCells_occupancy_of_dram (h : x.dram = true) :
    (d.freeCells x).pkt.dramCells = d.pkt.dramCells - x.cells ∧ (d.freeCells x).pkt.cells = d.pkt.cells := by
  simp [Device.freeCells, h]

/-- Where a packet's arrival starts spilling, EV151 is raised once the packet is placed. -/
theorem qPush_of_spilling_starts (hwas : d.pkt.spilling = false) (hnow : (d.qPush k x).pkt.spilling = true) :
    d.qPush k x = ((d.placed k x).withSpilling true).raise 151 0 :=
  spillUpdate_of_starts ((placed_spilling d k x).trans hwas) hnow

/-! ### No free cell -/

/-- A link queue refuses a packet that the overflow region has no room for: for the queue's limit or the meter's colour, and
else for BUF_FULL (R194). -/
theorem qRefusal_of_overflow_full (hs : d.spills k = true) (h : overflowCells < d.pkt.dramCells + x.cells) (col : Colour)
    (dp : Nat) : d.qRefusal k x col dp ≠ none := by
  simp only [Device.qRefusal, if_pos hs, if_pos (Or.inr h)]
  split_ifs <;> exact Option.some_ne_none _

/-- Likewise a packet that goes on chip, where the buffer has no room for it. -/
theorem qRefusal_of_onChip_full (hs : d.spills k = false) (h : onChipCells < d.pkt.cells + x.cells) (col : Colour) (dp : Nat) :
    d.qRefusal k x col dp ≠ none := by
  simp only [Device.qRefusal, if_neg (Bool.eq_false_iff.mp hs), if_pos h]
  split_ifs <;> exact Option.some_ne_none _

end

/-- Settles O57: the cells of a packet are by definition the quotient, and each clause is the lemma above it that says what the
model's operation does. -/
theorem packetsOccupyCells : Obligations.PacketsOccupyCells := by
  intro d k x col dp c
  refine ⟨cells_eq_ceil x, spills_eq_true_iff d k, reset_spillLevel, qPush_occupancy_of_spills, qPush_occupancy_of_not_spills,
    freeCells_occupancy_of_onChip, freeCells_occupancy_of_dram, fun hs hfull => qRefusal_of_onChip_full hs hfull col dp,
    fun hs hfull => qRefusal_of_overflow_full hs hfull col dp,
    fun q => ⟨length_hotDescs_le q, length_hotDescs_of_dramDescs, hotDescs_append_dramDescs q⟩,
    fun hwas hnow => ⟨_, qPush_of_spilling_starts hwas hnow⟩⟩

end Sys2Proof.Machine
end

section
/-! PROOFS. The event queue (R356, R357): the registers that show its head entry, and what a pop leaves behind. -/

namespace Sys2Proof.Machine

/-! ### The head registers -/

theorem regAt_KEEP_EV_HEAD : ∀ i < 4, regAt (Reg.KEEP_EV_HEAD i) = some (⟨0x20080, 4, 4, 0, 0, 0, 0, 0, 0, 0⟩, i) := by
  decide

section
variable {d : Device} {i : Nat} {x y : EvEntry} {rest : List EvEntry}

/-- A head register holds no bits of its own: it shows its status word. -/
theorem peek_KEEP_EV_HEAD (hi : i < 4) : d.peek (Reg.KEEP_EV_HEAD i) = w32 (d.keepWord 0x20080 i) := by
  have hrow := regAt_KEEP_EV_HEAD i hi
  have hdom : (Reg.KEEP_EV_HEAD i - 0x10000000) / 0x01000000 = 1 := by
    unfold Reg.KEEP_EV_HEAD
    omega
  have hmtr : Reg.KEEP_EV_HEAD i ≠ Reg.PKT_MTR_CBS := by
    unfold Reg.KEEP_EV_HEAD Reg.PKT_MTR_CBS
    omega
  simp [Device.peek, Device.regNow, hrow, hdom, hmtr, Device.statusWord, w32]

theorem keepWord_evHead_of_nil (h : d.ev.queue = []) : d.keepWord 0x20080 i = 0 := by
  simp [Device.keepWord, h]

theorem keepWord_evHead_of_cons (h : d.ev.queue = x :: rest) : d.keepWord 0x20080 i = fieldAt x.bytes (4 * i) 4 := by
  simp [Device.keepWord, h]

/-! ### The device with its queue replaced -/

/-- The device with this event queue. -/
def Device.withEvQueue (d : Device) (q : List EvEntry) : Device := d.onEv fun e => { e with queue := q }

theorem withEvQueue_eq_self {q : List EvEntry} (h : d.ev.queue = q) : d.withEvQueue q = d := by
  subst h
  rfl

theorem onCycle_eq_self {f : Cycle → Cycle} (h : f d.cycle = d.cycle) : d.onCycle f = d := by
  rw [Device.onCycle, h]

/-! ### EV_POP -/

/-- Where no OVERFLOW entry stands for entries lost in this cycle, the head of a queue of two or more leaves it, and nothing
else changes. -/
theorem evDrop_of_two (hlost : (d.cycle.formed && !d.cycle.lost.isEmpty) = false) (hq : d.ev.queue = x :: y :: rest) :
    d.evDrop = d.withEvQueue (y :: rest) := by
  simp [Device.evDrop, Device.withEvQueue, hlost, hq]

/-- Where the pop leaves the queue empty and the cycle lost no entry, nothing follows. -/
theorem evDrop_of_tail_nil (hlost : d.cycle.lost = []) (hq : d.ev.queue.tail = []) : d.evDrop = d.withEvQueue [] := by
  have hcycle : (d.onCycle fun c => { c with lost := [] }) = d := onCycle_eq_self (by rw [← hlost])
  simp [Device.evDrop, Device.withEvQueue, hlost, hq, hcycle]

/-- Where the cycle lost no entry, a pop leaves the queue's tail, and nothing else changes. -/
theorem evDrop_of_lost_nil (hlost : d.cycle.lost = []) : d.evDrop = d.withEvQueue d.ev.queue.tail := by
  match hq : d.ev.queue with
  | [] | [_] => exact evDrop_of_tail_nil hlost (by rw [hq]; rfl)
  | _ :: _ :: _ => exact evDrop_of_two (by simp [hlost]) hq

theorem exec_evPop_admitted {s : State} {t : Time} (h : (s.seen t).Admits Reg.KEEP_EV_POP) :
    exec (.evPop t) s = .next (s.put (s.seen t).evDrop) :=
  congrArg (fun d => Host.Outcome.next (s.put d)) (keeperAccess_admitted h)

end

/-- Settles O55: the head registers by their status word, empty or not, and EV_POP by the two lemmas on what a pop leaves. -/
theorem eventQueueHead : Obligations.EventQueueHead := by
  intro s t d
  refine ⟨fun i hi hq => ?_, fun i x rest hi hq => ?_, fun hadm => ?pop⟩
  · rw [peek_KEEP_EV_HEAD hi, keepWord_evHead_of_nil hq]
    rfl
  · rw [peek_KEEP_EV_HEAD hi, keepWord_evHead_of_cons hq]
  case pop =>
    have hpop : exec (.evPop t) s = .next (s.put d.evDrop) := exec_evPop_admitted hadm
    refine ⟨hpop, fun hlost hq => ?empty, fun x rest hlost hq => ?head, fun x y rest hformed hq => ?two⟩
    case empty => rw [hpop, evDrop_of_lost_nil hlost, hq, List.tail_nil, withEvQueue_eq_self hq]
    case head =>
      rw [hpop, evDrop_of_lost_nil hlost, hq]
      rfl
    case two =>
      rw [hpop, evDrop_of_two (by simp [hformed]) hq]
      rfl

end Sys2Proof.Machine
end

section
/-! PROOFS. What every step keeps: soundness of the stored data, the OTP contents, the order of instants, the queue, and the
memory where a command may not store; and which commands can stop the machine. -/

namespace Sys2Proof.Machine

section
variable {S : Prop} {Q : List Host.Cell → Prop} {i : Instr} {s s' : State}

/-- What every command keeps, where `Q` bears the stores of those that may store. -/
theorem exec_kept (hq : Instr.mayStore i = true → MemClosed Q) (e : exec i s = .next s') (hQ : Q s.dev.mem.bytes)
    (hS : S → s.dev.ev.Bound) : State.Kept S Q s s' :=
  match i with
  | .registerWrite .. => execRegisterWrite_kept (hq rfl) e hQ hS
  | .rcRead .. => execRcRead_kept e hQ hS
  | .lowWordRead .. => execLowWordRead_kept e hQ hS
  | .snapCapture .. => execSnapCapture_kept e hQ hS
  | .snapEnd .. => execSnapEnd_kept e hQ hS
  | .txCommand .. => execTxCommand_kept e hQ hS
  | .rxCommand .. => execRxCommand_kept (hq rfl) e hQ hS
  | .keeperImmediateTx .. => execKeeperImmediateTx_kept e hQ hS
  | .radioTransitionEnd .. => execRadioTransitionEnd_kept (hq rfl) e hQ hS
  | .sequenceStep .. => execSequenceStep_kept e hQ hS
  | .txFrameEnd .. => execTxFrameEnd_kept (hq rfl) e hQ hS
  | .rxWindowClose .. => execRxWindowClose_kept (hq rfl) e hQ hS
  | .tempSample .. => execTempSample_kept e hQ hS
  | .calGapStart .. => execCalGapStart_kept e hQ hS
  | .synthCalEnd .. => execSynthCalEnd_kept e hQ hS
  | .calDeferExpiry .. => execCalDeferExpiry_kept e hQ hS
  | .calCmdPending .. => execCalCmdPending_kept e hQ hS
  | .calCmdForce .. => execCalCmdForce_kept e hQ hS
  | .forcedCalStart .. => execForcedCalStart_kept e hQ hS
  | .lockLoss .. => execLockLoss_kept (hq rfl) e hQ hS
  | .bgcalStart .. => execBgcalStart_kept e hQ hS
  | .bgcalEnd .. => execBgcalEnd_kept e hQ hS
  | .preambleDetect .. => execPreambleDetect_kept (hq rfl) e hQ hS
  | .syncSearchTimeout .. => execSyncSearchTimeout_kept (hq rfl) e hQ hS
  | .headerReceived .. => execHeaderReceived_kept (hq rfl) e hQ hS
  | .codewordReady .. => execCodewordReady_kept (hq rfl) e hQ hS
  | .codewordDecoded .. => execCodewordDecoded_kept (hq rfl) e hQ hS
  | .rxFrameEnd .. => execRxFrameEnd_kept (hq rfl) e hQ hS
  | .frame154Rx .. => execFrame154Rx_kept (hq rfl) e hQ hS
  | .frame154TxRequest .. => execFrame154TxRequest_kept e hQ hS
  | .jobAdmit .. => execJobAdmit_kept e hQ hS
  | .checkJobEnd .. => execCheckJobEnd_kept (hq rfl) e hQ hS
  | .reorderSkip .. => execReorderSkip_kept e hQ hS
  | .keyServiceEpoch .. => execKeyServiceEpoch_kept e hQ hS
  | .kdfCmd .. => execKdfCmd_kept e hQ hS
  | .kdfJobEnd .. => execKdfJobEnd_kept e hQ hS
  | .ringVerify .. => execRingVerify_kept e hQ hS
  | .assocAnswer .. => execAssocAnswer_kept (hq rfl) e hQ hS
  | .superframeBoundary .. => execSuperframeBoundary_kept (hq rfl) e hQ hS
  | .openMapWrite .. => execOpenMapWrite_kept e hQ hS
  | .planCommit .. => execPlanCommit_kept e hQ hS
  | .dutyBucketRoll .. => execDutyBucketRoll_kept e hQ hS
  | .profileSwitchGo .. => execProfileSwitchGo_kept e hQ hS
  | .profileSwitchCancel .. => execProfileSwitchCancel_kept e hQ hS
  | .bellMatch .. => execBellMatch_kept e hQ hS
  | .parentWindowClose .. => execParentWindowClose_kept e hQ hS
  | .packetEntry .. => execPacketEntry_kept e hQ hS
  | .recircEntry .. => execRecircEntry_kept e hQ hS
  | .passResolve .. => execPassResolve_kept e hQ hS
  | .learnPop .. => execLearnPop_kept e hQ hS
  | .tblRead .. => execTblRead_kept e hQ hS
  | .tblWrite .. => execTblWrite_kept e hQ hS
  | .tblClear .. => execTblClear_kept e hQ hS
  | .tblHash .. => execTblHash_kept e hQ hS
  | .genCommit .. => execGenCommit_kept e hQ hS
  | .genCommitProceed .. => execGenCommitProceed_kept e hQ hS
  | .genDrainTimeout .. => execGenDrainTimeout_kept e hQ hS
  | .portSelect .. => execPortSelect_kept e hQ hS
  | .portFrameEnd .. => execPortFrameEnd_kept e hQ hS
  | .gateEntryChange .. => execGateEntryChange_kept e hQ hS
  | .gateDataWrite .. => execGateDataWrite_kept e hQ hS
  | .gateSwap .. => execGateSwap_kept e hQ hS
  | .meterWrite .. => execMeterWrite_kept e hQ hS
  | .meterRead .. => execMeterRead_kept e hQ hS
  | .ethFrameRx .. => execEthFrameRx_kept e hQ hS
  | .linkUpChange .. => execLinkUpChange_kept e hQ hS
  | .rngBringupStart .. => execRngBringupStart_kept e hQ hS
  | .rngTrainTimeout .. => execRngTrainTimeout_kept e hQ hS
  | .rngCheckEnd .. => execRngCheckEnd_kept e hQ hS
  | .rngStepResult .. => execRngStepResult_kept e hQ hS
  | .rngRetryExpiry .. => execRngRetryExpiry_kept e hQ hS
  | .rngLinkDown .. => execRngLinkDown_kept e hQ hS
  | .rngRetrainCmd .. => execRngRetrainCmd_kept e hQ hS
  | .rngFrameRx .. => execRngFrameRx_kept (hq rfl) e hQ hS
  | .rngIdleEntry .. => execRngIdleEntry_kept e hQ hS
  | .keepaliveTimer .. => execKeepaliveTimer_kept e hQ hS
  | .mirrorRetxTimeout .. => execMirrorRetxTimeout_kept e hQ hS
  | .laneTestWrite .. => execLaneTestWrite_kept e hQ hS
  | .tsPop .. => execTsPop_kept e hQ hS
  | .ppsEdge .. => execPpsEdge_kept e hQ hS
  | .nmeaSentence .. => execNmeaSentence_kept e hQ hS
  | .domFeed .. => execDomFeed_kept e hQ hS
  | .domainLossTimeout .. => execDomainLossTimeout_kept e hQ hS
  | .revertTimer .. => execRevertTimer_kept e hQ hS
  | .timeGateTimeout .. => execTimeGateTimeout_kept e hQ hS
  | .rtcSecondWrite .. => execRtcSecondWrite_kept e hQ hS
  | .dramRequest .. => execDramRequest_kept e hQ hS
  | .rowCloseTimeout .. => execRowCloseTimeout_kept e hQ hS
  | .refreshDue .. => execRefreshDue_kept e hQ hS
  | .selfRefreshEntry .. => execSelfRefreshEntry_kept e hQ hS
  | .sramScrub .. => execSramScrub_kept e hQ hS
  | .cvStart .. => execCvStart_kept e hQ hS
  | .cvData .. => execCvData_kept e hQ hS
  | .cvStateWrite .. => execCvStateWrite_kept e hQ hS
  | .domainReady .. => execDomainReady_kept (hq rfl) e hQ hS
  | .reloadCmd .. => execReloadCmd_kept (hq rfl) e hQ hS
  | .reloadComplete .. => execReloadComplete_kept e hQ hS
  | .reloadFail .. => execReloadFail_kept (hq rfl) e hQ hS
  | .vinRise .. => execVinRise_kept (hq rfl) e hQ hS
  | .railStep .. => execRailStep_kept e hQ hS
  | .railFaultRetry .. => execRailFaultRetry_kept e hQ hS
  | .resetAssert .. => execResetAssert_kept (hq rfl) e hQ hS
  | .resetRelease .. => execResetRelease_kept (hq rfl) e hQ hS
  | .bringUp .. => execBringUp_kept (hq rfl) e hQ hS
  | .startLimitExpiry .. => execStartLimitExpiry_kept (hq rfl) e hQ hS
  | .startWaitExpiry .. => execStartWaitExpiry_kept e hQ hS
  | .hbPatternClassify .. => execHbPatternClassify_kept e hQ hS
  | .heartbeatLoss .. => execHeartbeatLoss_kept e hQ hS
  | .heartbeatReturn .. => execHeartbeatReturn_kept e hQ hS
  | .handoverCmd .. => execHandoverCmd_kept e hQ hS
  | .forceCmd .. => execForceCmd_kept e hQ hS
  | .lampChange .. => execLampChange_kept (hq rfl) e hQ hS
  | .pwrRequestEclipse .. => execPwrRequestEclipse_kept e hQ hS
  | .pwrRequestDeepEclipse .. => execPwrRequestDeepEclipse_kept e hQ hS
  | .pwrRequestMoored .. => execPwrRequestMoored_kept e hQ hS
  | .pwrRequestAccept .. => execPwrRequestAccept_kept e hQ hS
  | .entryComplete .. => execEntryComplete_kept (hq rfl) e hQ hS
  | .sequencerTick .. => execSequencerTick_kept e hQ hS
  | .rtcAlarm .. => execRtcAlarm_kept e hQ hS
  | .wakeExit .. => execWakeExit_kept (hq rfl) e hQ hS
  | .padRelease .. => execPadRelease_kept e hQ hS
  | .gpioDebounce .. => execGpioDebounce_kept e hQ hS
  | .gpioChatterCheck .. => execGpioChatterCheck_kept e hQ hS
  | .gpioReassess .. => execGpioReassess_kept e hQ hS
  | .gpioStuck .. => execGpioStuck_kept e hQ hS
  | .spoolWrite .. => execSpoolWrite_kept (hq rfl) e hQ hS
  | .spoolAckRx .. => execSpoolAckRx_kept e hQ hS
  | .spoolFwdTimeout .. => execSpoolFwdTimeout_kept e hQ hS
  | .geoFixTimeout .. => execGeoFixTimeout_kept e hQ hS
  | .ptpSyncComplete .. => execPtpSyncComplete_kept e hQ hS
  | .mgmtRx .. => execMgmtRx_kept e hQ hS
  | .hello .. => execHello_kept e hQ hS
  | .read .. => execRead_kept e hQ hS
  | .writeGuarded .. => execWriteGuarded_kept (hq rfl) e hQ hS
  | .stageBegin .. => execStageBegin_kept e hQ hS
  | .stageData .. => execStageData_kept e hQ hS
  | .stageEnd .. => execStageEnd_kept e hQ hS
  | .reload .. => execReload_kept (hq rfl) e hQ hS
  | .ladder .. => execLadder_kept e hQ hS
  | .logRead .. => execLogRead_kept e hQ hS
  | .charRead .. => execCharRead_kept e hQ hS
  | .restart .. => execRestart_kept e hQ hS
  | .evPendClear .. => execEvPendClear_kept e hQ hS
  | .evOccRead .. => execEvOccRead_kept e hQ hS
  | .evPop .. => execEvPop_kept e hQ hS
  | .logCommit .. => execLogCommit_kept e hQ hS
  | .logCommitDone .. => execLogCommitDone_kept e hQ hS
  | .logSecondEnd .. => execLogSecondEnd_kept e hQ hS
  | .brownout .. => execBrownout_kept (hq rfl) e hQ hS
  | .mooringPowerLoss .. => execMooringPowerLoss_kept (hq rfl) e hQ hS
  | .watchKick .. => execWatchKick_kept e hQ hS
  | .watchExpiry .. => execWatchExpiry_kept e hQ hS
  | .ladderStep .. => execLadderStep_kept (hq rfl) e hQ hS
  | .ladderDeadline .. => execLadderDeadline_kept e hQ hS
  | .ladderRequest .. => execLadderRequest_kept e hQ hS
  | .ladderHaltClear .. => execLadderHaltClear_kept e hQ hS
  | .extest .. => execExtest_kept e hQ hS
  | .samplePreload .. => execSamplePreload_kept e hQ hS
  | .idcode .. => execIdcode_kept e hQ hS
  | .clamp .. => execClamp_kept e hQ hS
  | .highz .. => execHighz_kept e hQ hS
  | .bypass .. => execBypass_kept e hQ hS
  | .dbgChal .. => execDbgChal_kept e hQ hS
  | .dbgResp .. => execDbgResp_kept e hQ hS
  | .dbgBlockExpiry .. => execDbgBlockExpiry_kept e hQ hS
  | .dbgRelock .. => execDbgRelock_kept e hQ hS
  | .dbgAccessRead .. => execDbgAccessRead_kept e hQ hS
  | .dbgAccessWrite .. => execDbgAccessWrite_kept (hq rfl) e hQ hS
  | .dbgHalt .. => execDbgHalt_kept e hQ hS
  | .dbgResume .. => execDbgResume_kept e hQ hS
  | .dbgStep .. => execDbgStep_kept e hQ hS
  | .dbgBreakpoint .. => execDbgBreakpoint_kept e hQ hS
  | .dbgWatchpoint .. => execDbgWatchpoint_kept e hQ hS
  | .thermalTrip .. => execThermalTrip_kept (hq rfl) e hQ hS
  | .thermalRelease .. => execThermalRelease_kept (hq rfl) e hQ hS
  | .sfdpRetry .. => execSfdpRetry_kept (hq rfl) e hQ hS
  | .sealJobEnd .. => execSealJobEnd_kept e hQ hS
  | .dramRequestComplete .. => execDramRequestComplete_kept (hq rfl) e hQ hS
  | .prbsCheckerSync .. => execPrbsCheckerSync_kept e hQ hS
  | .timeExchangeTimer .. => execTimeExchangeTimer_kept e hQ hS
  | .handoverBoundary .. => execHandoverBoundary_kept e hQ hS

/-- What every command keeps of a state of which nothing is known. -/
theorem exec_kept_of_any (e : exec i s = .next s') : State.Kept False (fun _ => True) s s' :=
  exec_kept (fun _ => ⟨trivial, fun _ _ _ _ => trivial, fun _ _ _ => trivial⟩) e trivial False.elim

theorem exec_keeps_pending (e : exec i s = .next s') : s'.pending = s.pending :=
  (exec_kept_of_any e).1

theorem exec_keeps_otp (e : exec i s = .next s') : s'.dev.otp = s.dev.otp :=
  have ⟨_, _, _, _, hotp, _, _⟩ := exec_kept_of_any e
  hotp

theorem exec_now_le (e : exec i s = .next s') : s.dev.clk.now ≤ s'.dev.clk.now :=
  have ⟨_, _, hle, hnow, _, _, _⟩ := exec_kept_of_any e
  hnow ▸ hle

theorem exec_keeps_sound (e : exec i s = .next s') (h : s.Sound) : s'.Sound :=
  have ⟨hwf, hbound⟩ := h
  have ⟨_, _, _, _, _, hwf', hbound'⟩ := exec_kept (fun _ => memClosed_wf) e hwf fun _ : True => hbound
  ⟨hwf', hbound' trivial⟩

/-- A command that may not store leaves the memory list as it is. -/
theorem exec_keeps_bytes (hi : Instr.mayStore i = false) (e : exec i s = .next s') : s'.dev.mem.bytes = s.dev.mem.bytes :=
  have ⟨_, _, _, _, _, hbytes, _⟩ := exec_kept (S := False) (Q := (· = s.dev.mem.bytes)) (by simp [hi]) e rfl False.elim
  hbytes

end

/-! ### A step is the command at the front of the queue, or nothing -/

theorem step_of_pending_nil {s : State} (h : s.pending = []) : step s = .next s := by
  simp [step, h]

theorem step_of_pending_cons {s : State} {i : Instr} {rest : List Instr} (h : s.pending = i :: rest) :
    step s = exec i { s with pending := rest } := by
  simp [step, h]

/-- What a step keeps of the device, where idling and every command keep it. -/
theorem step_keeps {P : Device → Device → Prop} (hidle : ∀ d, P d d)
    (hexec : ∀ i s s', exec i s = .next s' → P s.dev s'.dev) {s s' : State} (e : step s = .next s') : P s.dev s'.dev := by
  match h : s.pending with
  | [] =>
    obtain rfl : s = s' := by simpa [step_of_pending_nil h] using e
    exact hidle s.dev
  | i :: rest =>
    rw [step_of_pending_cons h] at e
    exact hexec i { s with pending := rest } s' e

/-- Settles O1: by definition. -/
theorem stepRunsTheFrontCommand : Obligations.StepRunsTheFrontCommand :=
  fun _ _ _ => step_of_pending_cons rfl

/-- Settles O2: by definition. -/
theorem stepIdlesOnAnEmptyQueue : Obligations.StepIdlesOnAnEmptyQueue :=
  fun _ => step_of_pending_nil

/-- Settles O3: at reset the memory and the event queue are empty. -/
theorem resetIsSound : Obligations.ResetIsSound :=
  ⟨rfl, Nat.zero_le _, fun _ => Nat.zero_le _⟩

/-- Settles O5: every command keeps the state sound, and so does idling. -/
theorem everyStepKeepsSoundness : Obligations.EveryStepKeepsSoundness :=
  fun _ _ h e => step_keeps (P := fun d d' => d.Sound → d'.Sound) (fun _ => id) (fun _ _ _ => exec_keeps_sound) e h

/-- Settles O6. -/
theorem otpNeverChanges : Obligations.OtpNeverChanges :=
  fun _ _ => step_keeps (P := fun d d' => d'.otp = d.otp) (fun _ => rfl) fun _ _ _ => exec_keeps_otp

/-- Settles O7. -/
theorem theInstantNeverRunsBack : Obligations.TheInstantNeverRunsBack :=
  fun _ _ => step_keeps (P := fun d d' => d.clk.now ≤ d'.clk.now) (fun _ => Nat.le_refl _) fun _ _ _ => exec_now_le

/-- Settles O8. -/
theorem commandsLeaveTheQueue : Obligations.CommandsLeaveTheQueue :=
  fun _ _ _ => exec_keeps_pending

/-- Settles O10: the memory list itself stays. -/
theorem otherCommandsStoreNothing : Obligations.OtherCommandsStoreNothing :=
  fun _ _ _ hi e a => congrArg (readByte · a) (exec_keeps_bytes hi e)

/-! ### Commands that stop (R12) -/

/-- A command that can meet an address without contents (Table 1.2). -/
def Instr.meetsBus : Instr → Bool
  | .registerWrite .. => true
  | .dbgAccessRead .. => true
  | .dbgAccessWrite .. => true
  | _ => false

/-- Each of the other commands acts on the device and goes on. -/
theorem exec_completes {i : Instr} (h : Instr.meetsBus i = false) (s : State) : ∃ s', exec i s = .next s' := by
  cases i
  case registerWrite | dbgAccessRead | dbgAccessWrite => nomatch h
  all_goals exact ⟨_, rfl⟩

/-- A bus write stops where its address has no contents, and goes on elsewhere. -/
theorem exec_registerWrite_hole {t : Time} {req addr width : Nat} {v : Word} {s : State} (h : busWindow addr = none) :
    exec (.registerWrite t req addr width v) s = .fault (.busHole addr) := by
  show execRegisterWrite t req addr width v s = _
  simp [execRegisterWrite, h]

theorem exec_registerWrite_window {t : Time} {req addr width n : Nat} {v : Word} {s : State} (h : busWindow addr = some n) :
    exec (.registerWrite t req addr width v) s = .next (s.put (registerWrite req addr width v (s.seen t))) := by
  show execRegisterWrite t req addr width v s = _
  simp only [execRegisterWrite, h]
  rfl

section
variable {s : State} {t : Time} {target : BitVec 6} {addr data : Word}

theorem exec_dbgAccessRead_hole (h : s.dev.dbgHole target addr = true) :
    exec (.dbgAccessRead t target addr) s = .fault (.busHole addr.toNat) :=
  if_pos h

theorem exec_dbgAccessWrite_hole (h : s.dev.dbgHole target addr = true) :
    exec (.dbgAccessWrite t target addr data) s = .fault (.busHole addr.toNat) :=
  if_pos h

theorem exec_dbgAccessRead (h : s.dev.dbgHole target addr = false) :
    exec (.dbgAccessRead t target addr) s = .next (s.put (dbgAccessRead target addr (s.seen t))) :=
  if_neg (Bool.eq_false_iff.mp h)

theorem exec_dbgAccessWrite (h : s.dev.dbgHole target addr = false) :
    exec (.dbgAccessWrite t target addr data) s = .next (s.put (dbgAccessWrite target addr data (s.seen t))) :=
  if_neg (Bool.eq_false_iff.mp h)

end

/-- A command goes on, or it is one of the three and its address has no contents. -/
theorem exec_completes_or_hole (i : Instr) (s : State) :
    (∃ s', exec i s = .next s') ∨
    (∃ t req addr width v, i = .registerWrite t req addr width v ∧ busWindow addr = none ∧ exec i s = .fault (.busHole addr)) ∨
    (∃ t target addr, i = .dbgAccessRead t target addr ∧ s.dev.dbgHole target addr = true ∧ exec i s = .fault (.busHole addr.toNat)) ∨
    (∃ t target addr data, i = .dbgAccessWrite t target addr data ∧ s.dev.dbgHole target addr = true ∧
      exec i s = .fault (.busHole addr.toNat)) := by
  cases hbus : Instr.meetsBus i
  case false => exact .inl (exec_completes hbus s)
  case true =>
    match i with
    | .registerWrite t req addr width v =>
      match h : busWindow addr with
      | none => exact .inr (.inl ⟨t, req, addr, width, v, rfl, h, exec_registerWrite_hole h⟩)
      | some _ => exact .inl ⟨_, exec_registerWrite_window h⟩
    | .dbgAccessRead t target addr =>
      match h : s.dev.dbgHole target addr with
      | true => exact .inr (.inr (.inl ⟨t, target, addr, rfl, h, exec_dbgAccessRead_hole h⟩))
      | false => exact .inl ⟨_, exec_dbgAccessRead h⟩
    | .dbgAccessWrite t target addr data =>
      match h : s.dev.dbgHole target addr with
      | true => exact .inr (.inr (.inr ⟨t, target, addr, data, rfl, h, exec_dbgAccessWrite_hole h⟩))
      | false => exact .inl ⟨_, exec_dbgAccessWrite h⟩

/-- Settles O9: the three commands that meet the bus, by whether their address has contents; every other one goes on. -/
theorem onlyABusHoleStopsACommand : Obligations.OnlyABusHoleStopsACommand := by
  refine ⟨exec_completes_or_hole, fun i s hwrite hread hdbg => ?_⟩
  obtain ⟨s', e⟩ | ⟨t, req, addr, width, v, hi, hole, -⟩ | ⟨t, target, addr, hi, hole, -⟩ | ⟨t, target, addr, data, hi, hole, -⟩ :=
    exec_completes_or_hole i s
  · exact ⟨s', e, exec_keeps_pending e⟩
  · exact absurd hole (hwrite t req addr width v hi)
  · exact absurd hole (by simp [hread t target addr hi])
  · exact absurd hole (by simp [hdbg t target addr data hi])

end Sys2Proof.Machine
end

section
/-! PROOFS. Two laws of link security: a replay window lets no counter pass twice (R154), and CTR is its own inverse (R149). -/

namespace Sys2Proof.Machine

/-! ### The replay window -/

section
variable {w : RWin} {c x : Nat}

/-- A counter does not pass where it is not ahead and is too old, or its bit is set. -/
theorem passes_eq_false_iff : w.passes c = false ↔ c ≤ w.high ∧ (c + 63 < w.high ∨ bitOf w.map (w.high - c) = true) := by
  simp only [RWin.passes, Bool.or_eq_false_iff, Bool.and_eq_false_iff, decide_eq_false_iff_not, Bool.not_eq_false']
  constructor
  · rintro ⟨hle, hold | hbit⟩
    · exact ⟨by omega, .inl (by omega)⟩
    · exact ⟨by omega, .inr hbit⟩
  · rintro ⟨hle, hold | hbit⟩
    · exact ⟨by omega, .inl (by omega)⟩
    · exact ⟨by omega, .inr hbit⟩

/-- Once taken, a counter does not pass. -/
theorem passes_take_self (h : w.passes c = true) : (w.take c).passes c = false := by
  rw [passes_eq_false_iff]
  unfold RWin.take
  split
  case isTrue => exact ⟨Nat.le_refl c, .inr (by simp [bitOf, setBit])⟩
  case isFalse hle =>
    have hnew : w.high ≤ c + 63 := by
      by_contra hold
      have hout := passes_eq_false_iff.mpr ⟨by omega, .inl (by omega : c + 63 < w.high)⟩
      exact absurd (h.symm.trans hout) (by decide)
    exact ⟨by simp; omega, .inr (by simp [bitOf, setBit]; omega)⟩

/-- What does not pass does not pass after another counter is taken: where the window moves, the bits move with it. -/
theorem passes_take_of_not_passes (h : w.passes c = false) : (w.take x).passes c = false := by
  rw [passes_eq_false_iff] at h ⊢
  obtain ⟨hle, hold⟩ := h
  unfold RWin.take
  split
  case isTrue hx =>
    refine ⟨by simp; omega, ?_⟩
    by_cases hfar : c + 63 < x
    · exact .inl hfar
    · obtain hold | hbit := hold
      · omega
      · refine .inr ?_
        have hmoved : x - c - (x - w.high) = w.high - c := by omega
        have hin : w.high - c < 64 := by omega
        simp [bitOf, setBit, hmoved] at hbit ⊢
        exact .inl ⟨by omega, hbit⟩
  case isFalse =>
    refine ⟨hle, hold.imp_right fun hbit => ?_⟩
    simp [bitOf, setBit] at hbit ⊢
    exact .inl hbit

theorem passes_foldl_of_not_passes (later : List Nat) (h : w.passes c = false) :
    ((later.foldl (fun w c => if w.passes c then w.take c else w) w).passes c) = false := by
  induction later generalizing w with
  | nil => exact h
  | cons x rest ih =>
    rw [List.foldl_cons]
    refine ih ?_
    split
    · exact passes_take_of_not_passes h
    · exact h

end

/-- Settles O59: once taken a counter does not pass, and no later counter lets it pass again. -/
theorem noCounterPassesTwice : Obligations.NoCounterPassesTwice :=
  fun _ _ later h => passes_foldl_of_not_passes later (passes_take_self h)

/-! ### CTR -/

@[simp] theorem blockBytes_length (x : Block) : (blockBytes x).length = 16 :=
  beBytes_length 16 _

theorem zipWith_xor_cancel {a k : Bytes} (h : a.length ≤ k.length) :
    List.zipWith (· ^^^ ·) (List.zipWith (· ^^^ ·) a k) k = a :=
  List.ext_getElem (by simp; omega) fun i _ _ => by simp

/-- A first block and what follows it, which is nothing where the block is not full. -/
theorem take_drop_append_block {a b : Bytes} (ha : a.length ≤ 16) (hb : a.length = 16 ∨ b = []) :
    (a ++ b).take 16 = a ∧ (a ++ b).drop 16 = b := by
  obtain hfull | rfl := hb
  · exact ⟨by simp [← hfull], by simp [← hfull]⟩
  · simp [List.take_of_length_le ha, ha]

section
variable (key : Block) (ctr : Bytes)

theorem ctrLoop_length : ∀ (n j : Nat) (m : Bytes), m.length ≤ 16 * n → (ctrLoop key ctr n j m).length = m.length
  | 0, _, m, h => by
    have hnil : m.length = 0 := by omega
    simp [ctrLoop, hnil]
  | n + 1, j, m, h => by
    have ih := ctrLoop_length n (j + 1) (m.drop 16) (by simp; omega)
    simp [ctrLoop, ih]
    omega

/-- The key stream of each block is the same both times. -/
theorem ctrLoop_ctrLoop : ∀ (n j : Nat) (m : Bytes), m.length ≤ 16 * n → ctrLoop key ctr n j (ctrLoop key ctr n j m) = m
  | 0, _, m, h => by
    have hnil : m.length = 0 := by omega
    simp [ctrLoop, List.eq_nil_of_length_eq_zero hnil]
  | n + 1, j, m, h => by
    have hrest : (m.drop 16).length ≤ 16 * n := by simp; omega
    have ih := ctrLoop_ctrLoop n (j + 1) (m.drop 16) hrest
    have hlen := ctrLoop_length key ctr n (j + 1) (m.drop 16) hrest
    simp only [ctrLoop]
    obtain ⟨ks, hks⟩ : ∃ ks, blockBytes (aes key (toBlock (ctr ++ beBytes 4 j))) = ks := ⟨_, rfl⟩
    have hks16 : ks.length = 16 := hks ▸ blockBytes_length _
    rw [hks]
    have hblock : (List.zipWith (· ^^^ ·) (m.take 16) ks).length = 16 ∨ ctrLoop key ctr n (j + 1) (m.drop 16) = [] := by
      by_cases hfull : 16 ≤ m.length
      · exact .inl (by simp; omega)
      · exact .inr (List.eq_nil_of_length_eq_zero (by rw [hlen]; simp; omega))
    obtain ⟨htake, hdrop⟩ := take_drop_append_block (by simp) hblock
    rw [htake, hdrop, ih, zipWith_xor_cancel (by simp; omega), List.take_append_drop]

end

/-- Settles O60. -/
theorem ctrDecryptsWhatItEncrypts : Obligations.CtrDecryptsWhatItEncrypts := by
  intro key ctr m
  have hlen : m.length ≤ 16 * ceilDiv m.length 16 := by unfold ceilDiv; omega
  unfold ctrCrypt
  rw [ctrLoop_length _ _ _ _ _ hlen, ctrLoop_ctrLoop _ _ _ _ _ hlen]

end Sys2Proof.Machine
end

section
/-! PROOFS. Registers and memory: what reset leaves, what a bus write, a counter read, a snapshot and a command that is an access
do. -/

namespace Sys2Proof.Machine

/-- A command that acts on the device puts what its effect makes of the device at the command's instant. -/
theorem act_eq_next {s : State} {t : Time} {f : Device → Device} {d e : Device} (hd : s.seen t = d) (h : f d = e) :
    s.act t f = .next (s.put e) := by
  subst hd h
  rfl

/-! ### Reset -/

/-- Settles O4: reset lists nothing, so every register reads its reset value; the four named fields are values of it. -/
theorem resetValues : Obligations.ResetValues := by
  have hopen : fld (resetValue (Reg.MEM_CH_CTRL 0)) 7 0 = 128 := by decide
  have hidle : State.reset.dev.srIdle = 64 * usec := by decide
  have hgap : State.reset.dev.idleGap = 10 := by decide
  have hgate : fld (resetValue Reg.LANT_TIME_CTRL) 22 15 = 10 := by decide
  exact ⟨fun _ => ⟨rfl, rfl⟩, ⟨hopen, hidle, hgap, hgate⟩, ⟨rfl, rfl, fun _ => rfl⟩, fun _ => rfl, fun _ _ => rfl, rfl⟩

/-! ### Commands that are an access to one register (R11, R14) -/

section
variable {s : State} {t : Time} {d : Device} {addr : Nat} {x : Word}

theorem keeperAccess_refused {f : Device → Device} (h : d.refusal 0 addr 4 = some x) : d.keeperAccess addr f = d.raise 26 x :=
  access_refused h

theorem tblCmd_refused {f : Device → Device} {n k : Nat} (h : d.refusal 0 Reg.PKT_TBL_CMD 4 = some x) :
    d.tblCmd n k f = d.raise 26 x :=
  keeperAccess_refused h

end

/-- Settles O11: each of the commands is an access, a Keeper core's but for those of a check-value unit. -/
theorem refusedAccessesRaiseEv026 : Obligations.RefusedAccessesRaiseEv026 := by
  intro i s t req addr x h hx
  cases i
  case cvStart | cvData | cvStateWrite => cases h; exact act_eq_next rfl (access_refused hx)
  case tblRead | tblWrite | tblClear | tblHash => cases h; exact act_eq_next rfl (tblCmd_refused hx)
  all_goals cases h <;> exact act_eq_next rfl (keeperAccess_refused hx)

/-! ### Bus writes (R4, R6, R12) -/

section
variable {d : Device} {req addr width : Nat} {v : Word}

theorem registerWrite_rom (h : busWindow addr = some 0) : registerWrite req addr width v d = d := by
  simp [registerWrite, h]

theorem registerWrite_memory (h : busWindow addr = some 1 ∨ busWindow addr = some 3) :
    registerWrite req addr width v d = d.memWrite addr v := by
  obtain h | h := h <;> simp [registerWrite, h]

theorem registerWrite_register (h : busWindow addr = some 2) :
    registerWrite req addr width v d = d.access req addr width fun d => d.regWrite req addr v := by
  simp [registerWrite, h, Device.busWrite]

theorem regWrite_of_no_register (h : regAt addr = none) : d.regWrite req addr v = d := by
  simp [Device.regWrite, h]

theorem regWrite_of_cvOp {r : RegRow} {i : Nat} {op : CvOp} (h : regAt addr = some (r, i))
    (hn : (addr - 0x10000000) / 0x01000000 = 1) (hop : cvOpAt r.off v = some op) : d.regWrite req addr v = d.cvPut req i op := by
  simp [Device.regWrite, h, hn, hop]

/-- The device with the RW bits of a write stored and its W1C bits cleared. -/
def Device.stored (d : Device) (addr : Nat) (r : RegRow) (i : Nat) (v : Word) : Device :=
  let d := if r.rw = 0 then d else d.regMerge addr (w32 r.rw) v
  if r.w1c = 0 then d else d.w1cWrite ((addr - 0x10000000) / 0x01000000) r.off i v

theorem regWrite_of_no_cvOp {r : RegRow} {i : Nat} (h : regAt addr = some (r, i))
    (hop : (addr - 0x10000000) / 0x01000000 ≠ 1 ∨ cvOpAt r.off v = none) :
    d.regWrite req addr v =
      if r.wo = 0 then d.stored addr r i v else (d.stored addr r i v).cmdWrite ((addr - 0x10000000) / 0x01000000) r.off i v := by
  have hno : ¬ ((addr - 0x10000000) / 0x01000000 = 1 ∧ (cvOpAt r.off v).isSome = true) := by
    rintro ⟨hn, hsome⟩
    simp [hn] at hop
    simp [hop] at hsome
  simp only [Device.regWrite, h, if_neg hno, Device.stored]

end

/-- Settles O12: the window of the address, Keeper's refusal, and whether a register stands there, decide in this order. -/
theorem registerWrites : Obligations.RegisterWrites := by
  intro s t req addr width v d
  refine ⟨exec_registerWrite_hole, fun hwin => ?_⟩
  rw [exec_registerWrite_window hwin, registerWrite_register hwin]
  refine ⟨fun x hx => ?_, fun hadm hreg => ?_, fun r i hadm hreg => ⟨fun op hn hop => ?_, fun hop => ?_⟩⟩
  · rw [access_refused hx]
  · rw [access_admitted hadm, regWrite_of_no_register hreg]
  · rw [access_admitted hadm, regWrite_of_cvOp hreg hn hop]
  · rw [access_admitted hadm, regWrite_of_no_cvOp hreg hop]
    rfl

/-- The bytes of a word, most significant first. -/
theorem beBytes_getElem {n i : Nat} (v : Nat) (h : i < (beBytes n v).length) :
    (beBytes n v)[i] = BitVec.ofNat 8 (v >>> (8 * (n - 1 - i))) := by
  induction n generalizing i with
  | zero => simp [beBytes] at h
  | succ n ih =>
    cases i with
    | zero => simp [beBytes]
    | succ i =>
      have hexp : n - 1 - i = n - (i + 1) := by omega
      simp [beBytes, ih, hexp]

/-- Settles O13: a store puts its four bytes and keeps the others. -/
theorem memoryWrites : Obligations.MemoryWrites := by
  intro s t req addr width v hwf
  refine ⟨fun hrom => ?_, fun hmem => ⟨writeBytes s.dev.mem.bytes addr (beBytes 4 v.toNat), ?_, fun i hi => ?_, fun a ha => ?_, ?_⟩⟩
  · rw [exec_registerWrite_window hrom, registerWrite_rom hrom]
  · obtain ⟨n, hn⟩ : ∃ n, busWindow addr = some n := hmem.elim (⟨1, ·⟩) (⟨3, ·⟩)
    rw [exec_registerWrite_window hn, registerWrite_memory hmem]
    rfl
  · have hlen : i < (beBytes 4 v.toNat).length := by rwa [beBytes_length]
    rw [readByte_writeBytes_in hwf hlen, beBytes_getElem]
  · exact readByte_writeBytes_out (by rwa [beBytes_length])
  · exact writeBytes_wf _ _ _ hwf

/-! ### Counters and 64-bit values (R9, R10) -/

section
variable {d : Device} {req addr : Nat} {r : RegRow} {i : Nat}

theorem readOut_admitted {width : Nat} (h : d.refusal req addr width = none) :
    d.readOut req addr width = (d.regRead addr).2.emit (.data (d.regRead addr).1) := by
  simp [Device.readOut, Device.busRead, h]

theorem regRead_counter (h : regAt addr = some (r, i)) (hk : r.kind = 0) (hmax : 0 < r.rcMax) :
    d.regRead addr = d.rcTake (d.cntAt addr) := by
  simp [Device.regRead, h, hk, hmax]

theorem regRead_low (h : regAt addr = some (r, i)) (hk : r.kind = 1) (hmax : r.rcMax = 0) :
    d.regRead addr = d.lowTake addr ((addr - 0x10000000) / 0x01000000) r.off i := by
  simp [Device.regRead, h, hk, hmax]

end

/-- Settles O14: the read of a counter, by whether a snapshot of its domain is in progress, and of a low word. -/
theorem countersAndLowWords : Obligations.CountersAndLowWords := by
  intro s t req addr r i d a c x hadm hreg
  refine ⟨fun hk hmax hsnap => act_eq_next rfl ?_, fun hk hmax hsnap => act_eq_next rfl ?_, fun hk hmax => act_eq_next rfl ?_⟩
  · rw [rcRead, readOut_admitted hadm, regRead_counter hreg hk hmax]
    simp only [Device.rcTake, show bitOf d.regs.snap (cntDom (d.cntAt addr)) = false from hsnap]
    rfl
  · rw [rcRead, readOut_admitted hadm, regRead_counter hreg hk hmax]
    simp only [Device.rcTake, show bitOf d.regs.snap (cntDom (d.cntAt addr)) = true from hsnap]
    rfl
  · rw [lowWordRead, readOut_admitted hadm, regRead_low hreg hk hmax]
    rfl

/-! ### Snapshots (R10) -/

/-- A map filled key by key from the empty map holds what was put. -/
theorem Tab.get_foldl_set (f : Nat → Nat) (n j : Nat) :
    ((List.range n).foldl (fun t i => Tab.set t 0 i (f i)) []).get 0 j = if j < n then f j else 0 := by
  have hwf : ∀ n, Tab.wf 0 ((List.range n).foldl (fun t i => Tab.set t 0 i (f i)) []) = true := by
    intro n
    induction n with
    | zero => rfl
    | succ n ih => simpa [List.range_succ] using Tab.wf_set 0 _ n (f n) ih
  induction n with
  | zero => rfl
  | succ n ih =>
    simp only [List.range_succ, List.foldl_append, List.foldl_cons, List.foldl_nil]
    by_cases hj : j = n
    · subst hj
      simp [Tab.get_set_self (hwf j)]
    · rw [Tab.get_set_other hj, ih]
      simp [Nat.lt_iff_le_and_ne, hj]

section
variable {d : Device} {n : Nat}

theorem snapWrite_capture : d.snapWrite n 1 = d.snapTake n := by
  simp [Device.snapWrite, show bitOf 1#32 1 = false by decide, show bitOf 1#32 0 = true by decide]

theorem snapWrite_end (h : bitOf d.regs.snap n = true) : d.snapWrite n 2 = d.snapDrop n := by
  simp [Device.snapWrite, h, show bitOf 2#32 1 = true by decide, show bitOf 2#32 0 = false by decide]

theorem snapWrite_end_of_none (h : bitOf d.regs.snap n = false) : d.snapWrite n 2 = d := by
  simp [Device.snapWrite, h, show bitOf 2#32 0 = false by decide]

end

/-- Settles O15: the capture, and the end with a snapshot in progress or with none. -/
theorem snapshots : Obligations.Snapshots := by
  intro s t n d taken back rest hadm
  refine ⟨⟨if n.val = 9 then (List.range 8).foldl (fun t i => Tab.set t 0 i (d.lane i).bits) [] else d.regs.snapBits,
    fun hn => if_neg hn, fun hn i hi => ?bits, act_eq_next rfl ?capture⟩, fun hsnap => act_eq_next rfl ?ends, fun hsnap => act_eq_next rfl ?idle⟩
  case bits => rw [if_pos hn, Tab.get_foldl_set, if_pos hi]
  case capture =>
    rw [snapCapture, keeperAccess_admitted hadm, snapWrite_capture]
    simp only [Device.snapTake, decide_eq_true_eq, ← decide_not]
    rfl
  case ends =>
    rw [snapEnd, keeperAccess_admitted hadm, snapWrite_end hsnap]
    simp only [Device.snapDrop, decide_eq_true_eq, ← decide_not]
    rfl
  case idle => rw [snapEnd, keeperAccess_admitted hadm, snapWrite_end_of_none hsnap]

end Sys2Proof.Machine
end

section
/-! PROOFS. Pop registers, the table commands, pending bits and the Log unit's commits: what each command does, by the state of what
it acts on. -/

namespace Sys2Proof.Machine

/-! ### Pop registers (R20, R177, R225, R354) -/

/-- Settles O32: each register is admitted; a FIFO is empty or has a head. -/
theorem popReads : Obligations.PopReads := by
  intro s t d
  have hd : s.seen t = d := rfl
  clear_value d
  refine ⟨fun hadm => ?learn, fun hadm => ?stamp, fun hadm => act_eq_next hd ?occurrence⟩
  case learn =>
    refine ⟨fun hq => act_eq_next hd ?_, fun x r hq => act_eq_next hd ?_⟩
    all_goals
      rw [learnPop, keeperAccess_admitted hadm]
      simp only [hq] <;> rfl
  case stamp =>
    refine ⟨fun hq => act_eq_next hd ?_, fun x r hq => act_eq_next hd ?_⟩
    all_goals
      rw [tsPop, keeperAccess_admitted hadm]
      simp only [hq]
  case occurrence =>
    rw [evOccRead, keeperAccess_admitted hadm]
    rfl

/-! ### Table commands (R174, R178, R188) -/

section
variable {d : Device} {n i : Nat} {f : Device → Device}

/-- A table command at an index of the table, with none in hand. -/
theorem tblCmd_of_idle (hadm : d.Admits Reg.PKT_TBL_CMD) (hidle : d.pkt.tblBusy = false) (hi : i < tblSize n) :
    d.tblCmd n i f = f d := by
  simp [Device.tblCmd, keeperAccess_admitted hadm, hidle, hi]

/-- One that sets the error bit alone. -/
theorem tblCmd_of_error (hadm : d.Admits Reg.PKT_TBL_CMD) (h : d.pkt.tblBusy = true ∨ tblSize n ≤ i) :
    d.tblCmd n i f = (d.onPkt fun p => { p with tblError := true }).hwSet Reg.PKT_TBL_STATUS 30 := by
  rw [Device.tblCmd, keeperAccess_admitted hadm, if_pos (by simpa using h)]

end

/-- Settles O33: with the index in the table and no command in hand each command has its effect, and else it sets the error bit. -/
theorem tableCommands : Obligations.TableCommands := by
  intro s t n i d
  have hd : s.seen t = d := rfl
  clear_value d
  intro k remembered refused hadm
  refine ⟨fun hidle hi => ⟨act_eq_next hd ?read, fun hhit => act_eq_next hd ?write, fun hhit => act_eq_next hd ?writeHit, act_eq_next hd ?clear⟩,
    fun herr => ⟨act_eq_next hd ?_, act_eq_next hd ?_, act_eq_next hd ?_⟩, fun hidle hsize => act_eq_next hd ?hash, fun hbusy => act_eq_next hd ?_⟩
  case read => exact tblCmd_of_idle hadm hidle hi
  case write =>
    rw [tblWrite, tblCmd_of_idle hadm hidle hi]
    simp only [Device.tblStore, show d.cycle.hits.contains (tblKey n.val i.toNat) = _ from hhit]
    rfl
  case writeHit =>
    rw [tblWrite, tblCmd_of_idle hadm hidle hi]
    simp only [Device.tblStore, show d.cycle.hits.contains (tblKey n.val i.toNat) = _ from hhit]
    rfl
  case clear => exact tblCmd_of_idle hadm hidle hi
  case hash => exact tblCmd_of_idle hadm hidle hsize
  · exact tblCmd_of_error hadm herr
  · exact tblCmd_of_error hadm herr
  · exact tblCmd_of_error hadm herr
  · exact tblCmd_of_error hadm (.inl hbusy)

/-! ### Pending bits (R20, R355) -/

theorem bitOf_clrBit (w : Word) (i k : Nat) : bitOf (clrBit w i) k = (bitOf w k && !decide (k = i)) := by
  by_cases hk : k < 32
  · simp [bitOf, clrBit, hk]
  · simp [bitOf, BitVec.getLsbD_of_ge _ k (Nat.not_lt.mp hk)]

/-- Clearing, of a list of bits, those that a test names. -/
theorem bitOf_foldl_clrBit (p : Nat → Bool) (l : List Nat) (w : Word) (k : Nat) :
    bitOf (l.foldl (fun w i => if p i then clrBit w i else w) w) k = (bitOf w k && !(l.contains k && p k)) := by
  induction l generalizing w with
  | nil => simp
  | cons i rest ih =>
    rw [List.foldl_cons, ih, List.contains_cons]
    by_cases hik : k = i
    · subst hik
      by_cases hp : p k <;> simp [hp, bitOf_clrBit]
    · have hne : (k == i) = false := by simpa using hik
      by_cases hp : p i <;> simp [hp, bitOf_clrBit, hik, hne]

/-- Of the bits written 1, those clear that hardware has not set in the same cycle. -/
theorem bitOf_w1c (d : Device) (a : Nat) (v : Word) (k : Nat) :
    bitOf (d.w1c a v) k = (bitOf v k && !(d.cycle.sets.contains (32 * a + k))) := by
  rw [Device.w1c, bitOf_foldl_clrBit]
  by_cases hk : k < 32
  · cases hv : bitOf v k <;> simp [bitsOf, hk, hv]
  · simp [bitOf, BitVec.getLsbD_of_ge _ k (Nat.not_lt.mp hk)]

/-! ### The Log unit -/

/-- Settles O51. -/
theorem eventsAndLog : Obligations.EventsAndLog := by
  intro s t d
  have hd : s.seen t = d := rfl
  clear_value d
  refine ⟨fun i v hadm => ⟨d.w1c (Reg.KEEP_EV_PEND i) v, bitOf_w1c d _ v, act_eq_next hd (keeperAccess_admitted hadm)⟩,
    fun hadm => ⟨fun hbusy => act_eq_next hd ?_, fun hidle => act_eq_next hd ?_⟩, fun hnone => act_eq_next hd ?_, fun r hcur => act_eq_next hd ?_,
    fun hfew => act_eq_next hd ?_, fun hmany => act_eq_next hd ?_⟩
  · rw [logCommit, keeperAccess_admitted hadm, if_pos hbusy]
  · rw [logCommit, keeperAccess_admitted hadm, if_neg (Bool.eq_false_iff.mp hidle)]
  · simp only [logCommitDone, hnone]
  · simp only [logCommitDone, hcur]
  · exact if_neg (by omega)
  · exact if_pos (by omega)

end Sys2Proof.Machine
end

section
/-! PROOFS. Reset, bring-up, reloads, the supply and the rails (chapters 12, 13, 17 and 18): each command by the cases of its
meaning. -/

namespace Sys2Proof.Machine

/-- Settles O44: RESET_N by whether the device is powered and the pin low, its release by how long it was low, and bring-up by
what the training leaves. -/
theorem resetAndBringUp : Obligations.ResetAndBringUp := by
  intro s t d
  have hd : s.seen t = d := rfl
  clear_value d
  refine ⟨fun h => act_eq_next hd ?_, fun hpow hhigh => act_eq_next hd ?_, fun hhigh => act_eq_next hd ?_,
    fun u hlow => ⟨fun hlong => act_eq_next hd ?_, fun hshort hgood hst => act_eq_next hd ?_, fun hshort h => act_eq_next hd ?_⟩,
    fun runs h => act_eq_next hd ?_, fun runs hdom hstage => ?bringUp⟩
  · exact if_pos (by simpa using h)
  · simp only [resetAssert, hpow, hhigh]
    rfl
  · simp only [resetRelease, hhigh]
  · simp only [resetRelease, hlow]
    exact if_pos hlong
  · simp only [resetRelease, hlow]
    exact (if_neg (Nat.not_le.mpr hshort)).trans (if_pos (by simpa using ⟨hgood, hst⟩))
  · simp only [resetRelease, hlow]
    exact (if_neg (Nat.not_le.mpr hshort)).trans (if_neg (by simpa [imp_iff_not_or] using h))
  · exact if_pos h
  case bringUp =>
    have hruns : ¬ (d.domSt 1 ≠ 2 ∨ d.start.stage ≠ 1) := by simp [hdom, hstage]
    intro begun done
    have hdone : bringUp runs d = if (!done.mem.ok) = true then done.degrade
        else if (done.ll.flash.sfdp || done.start.waking == some 2) = true then done.startLoad
        else done.onStart fun s => { s with bringUp := true, sfdpTries := 0 } := if_neg hruns
    refine ⟨fun hok => act_eq_next hd ?_, fun hok h => act_eq_next hd ?_, fun hok hsfdp hwake => act_eq_next hd ?_⟩
    · rw [hdone, if_pos (by simp [hok])]
    · rw [hdone, if_neg (by simp [hok]), if_pos (by simpa using h)]
    · rw [hdone, if_neg (by simp [hok]), if_neg (by simp [hsfdp, hwake])]

/-! ### Reloads and starts (R272, R279 to R281, R290, R390) -/

section
variable {d : Device} {n : Fin 10}

theorem domainReady_of_rollback (h : d.domSt n.val = 4) :
    domainReady n d = ((if n.val = 8 then d.restoreMem else d).domGo n.val).rollbackEnd := by
  simp [domainReady, h]

theorem domainReady_of_start (h : d.domSt n.val = 2) (hn : n.val ≠ 2) :
    domainReady n d = ((if n.val = 8 then d.restoreMem else d).domGo n.val).startGo := by
  simp [domainReady, h, hn]

theorem domainReady_of_start_lantern (h : d.domSt n.val = 2) (hn : n.val = 2) :
    domainReady n d = (if (d.domGo 2).start.stage = stageDone ∧ (d.domGo 2).pwr.st = 0 then (d.domGo 2).radiosLate else d.domGo 2).startGo := by
  rw [hn] at h
  simp [domainReady, h, hn]

end

/-- Settles O42. -/
theorem reloadsAndStarts : Obligations.ReloadsAndStarts := by
  intro s t n d
  have hd : s.seen t = d := rfl
  clear_value d
  intro st restored
  refine ⟨fun h2 h4 => act_eq_next hd ?_, fun h4 => act_eq_next hd ?_, fun h2 hn => act_eq_next hd ?_, fun h2 hn => ?lantern,
    fun mask hadm => ?reload, ⟨fun h => act_eq_next hd ?_, fun h => act_eq_next hd ?_⟩,
    ⟨fun hlate h3 => act_eq_next hd ?_, fun hlate h4 => act_eq_next hd ?_, fun h => act_eq_next hd ?_⟩,
    ⟨fun h => act_eq_next hd ?_, fun h => act_eq_next hd ?_⟩,
    fun found => ⟨fun h => act_eq_next hd ?_, fun hup h => act_eq_next hd ?_, fun hup hfound htries => act_eq_next hd ?_⟩⟩
  · exact if_pos ⟨h2, h4⟩
  · exact domainReady_of_rollback h4
  · exact domainReady_of_start h2 hn
  case lantern =>
    intro ready
    refine ⟨fun hdone hrun => act_eq_next hd ?_, fun h => act_eq_next hd ?_⟩
    · rw [domainReady_of_start_lantern h2 hn, if_pos ⟨hdone, hrun⟩]
    · rw [domainReady_of_start_lantern h2 hn, if_neg (by simpa [imp_iff_not_or] using h)]
  case reload =>
    intro named marked
    have hgo (hok : d.reloadOk mask = true) : reloadCmd mask d = if mask = 0 then marked.activate
        else if (mask &&& 0x3C) ≠ 0 then marked.onLL fun l => { l with reloadAt := some marked.boundary2ms }
        else marked.reloadBegin := by
      rw [reloadCmd, keeperAccess_admitted hadm, Device.reloadGo, if_neg (by simp [hok])]
    refine ⟨fun hno => act_eq_next hd ?_, fun hok h0 => act_eq_next hd ?_, fun hok hsf => act_eq_next hd ?_,
      fun hok h0 hsf => act_eq_next hd ?_⟩
    · rw [reloadCmd, keeperAccess_admitted hadm, Device.reloadGo, if_pos (by simp [hno])]
    · rw [hgo hok, if_pos h0]
    · have h0 : mask ≠ 0 := by
        rintro rfl
        exact hsf (by decide)
      rw [hgo hok, if_neg h0, if_pos hsf]
    · rw [hgo hok, if_neg h0, if_neg (not_not.mpr hsf)]
  · exact if_pos h
  · exact if_neg h
  · obtain ⟨hnamed, hst, hlimit⟩ := hlate
    exact (if_pos (by simp [hnamed, show d.domSt n.val = 4 from hst, hlimit])).trans (if_pos h3)
  · obtain ⟨hnamed, hst, hlimit⟩ := hlate
    exact (if_pos (by simp [hnamed, show d.domSt n.val = 4 from hst, hlimit])).trans
      ((if_neg (by simp [h4])).trans (if_pos h4))
  · unfold reloadFail
    split
    case isFalse => rfl
    case isTrue hlate =>
      obtain h | ⟨h3, h4⟩ := h
      · exact absurd (by simpa [and_assoc] using hlate) h
      · rw [if_neg h3, if_neg h4]
  · exact if_pos h
  · exact if_neg h
  · exact if_pos (by simp [h])
  · exact (if_neg (by simp [hup])).trans (if_pos (by simpa using h))
  · exact (if_neg (by simp [hup])).trans (if_neg (by simpa [hfound] using htries))

/-! ### The supply and the rails (R286, R288, R363, R381, R393) -/

/-- Settles O43. -/
theorem supplyAndRails : Obligations.SupplyAndRails := by
  refine ⟨fun s t => ?rails, fun s t => ?losses⟩
  case rails =>
    intro d
    have hd : s.seen t = d := rfl
    clear_value d
    refine ⟨fun mv hlow => act_eq_next hd ?_, fun mv hmv hoff => act_eq_next hd ?_, fun mv hmv hon => ?noted, fun ok => ?step,
      ⟨fun h => act_eq_next hd ?_, fun h => act_eq_next hd ?_⟩⟩
    · exact if_pos hlow
    · exact (if_neg (Nat.not_lt.mpr hmv)).trans (if_pos (by simp [hoff]))
    case noted =>
      have hgo := (if_neg (Nat.not_lt.mpr hmv) : vinRise mv d = _).trans (if_neg (by simp [hon]))
      refine ⟨fun ⟨hrail, hgood, hst, htrip, hreset⟩ => act_eq_next hd ?_, fun h => act_eq_next hd ?_⟩
      · exact hgo.trans (if_pos ⟨⟨hrail, hgood, hst⟩, htrip, hreset⟩)
      · exact hgo.trans (if_neg fun ⟨⟨hrail, hgood, hst⟩, htrip, hreset⟩ => h ⟨hrail, hgood, hst, htrip, hreset⟩)
    case step =>
      intro k due
      refine ⟨fun h => act_eq_next hd (if_pos h), fun hk hhigh hdue => ?_⟩
      have hgo : ¬ (k = 0 ∨ d.start.resetLow.isSome = true ∨ d.clk.now < due) := by simp [hk, hhigh, hdue]
      refine ⟨fun h8 => act_eq_next hd ?_, fun h8 hok => act_eq_next hd ?_, fun h8 hok hlate => act_eq_next hd ?_,
        fun h8 hok hearly => act_eq_next hd ?_⟩
      · exact (if_neg hgo).trans (if_pos h8)
      · exact (if_neg hgo).trans ((if_neg h8).trans (if_pos hok))
      · exact (if_neg hgo).trans ((if_neg h8).trans ((if_neg (by simp [hok])).trans (if_pos hlate)))
      · exact (if_neg hgo).trans ((if_neg h8).trans ((if_neg (by simp [hok])).trans (if_neg (Nat.not_le.mpr hearly))))
    · exact if_pos (by simpa [and_assoc] using h)
    · exact if_neg (by simpa [and_assoc] using h)
  case losses =>
    intro d
    have hd : s.seen t = d := rfl
    clear_value d
    intro owed
    refine ⟨fun mv => ⟨fun h => act_eq_next hd ?_, fun hon hmv hvin => act_eq_next hd ?_⟩, fun hon hvin hgood => act_eq_next hd ?_,
      fun h => act_eq_next hd ?_, fun hon htrip => act_eq_next hd ?_, fun h => act_eq_next hd ?_, fun htrip => act_eq_next hd ?_,
      fun htrip => ⟨fun hvin hreset => act_eq_next hd ?_, fun h => act_eq_next hd ?_⟩⟩
    · exact if_pos (by simpa [or_assoc] using h)
    · exact if_neg (by simp [hon, hmv, hvin])
    · exact if_pos (by simp [hon, hvin, hgood])
    · exact if_neg (by simpa [or_iff_not_imp_left] using h)
    · exact if_neg (by simp [hon, htrip])
    · exact if_pos (by simpa using h)
    · exact if_pos (by simp [htrip])
    · exact (if_neg (by simp [htrip])).trans (if_pos ⟨hvin, hreset⟩)
    · exact (if_neg (by simp [htrip])).trans (if_neg fun ⟨hvin, hreset⟩ => h.elim (Nat.not_lt.mpr hvin) (· hreset))

end Sys2Proof.Machine
end

section
/-! PROOFS. Watches and ladders, the TAP, the debug lock and debug access (chapter 17): each command by the cases of its meaning. -/

namespace Sys2Proof.Machine

/-! ### Watches and ladders (R365 to R369) -/

/-- A watch that is kicked in this cycle, does not count or has time left has not expired. -/
theorem watchExpiry_of_idle {d : Device} {w : Fin 16} {kicked : Bool}
    (h : kicked = true ∨ d.start.powered = false ∨ d.watchOn w.val = false ∨ d.watchPaused w.val = true ∨
      (d.watch w.val).expired = true ∨ d.watchAge w.val < d.watchPeriod w.val) : watchExpiry w kicked d = d :=
  if_pos (by simpa [or_assoc] using h)

/-- Settles O52. -/
theorem watchesAndLadders : Obligations.WatchesAndLadders := by
  intro s t d
  have hd : s.seen t = d := rfl
  clear_value d
  refine ⟨fun mask hadm => act_eq_next hd (keeperAccess_admitted hadm), fun w => ?expiry, fun n => ⟨fun hnone => ?noLadder, fun l hl => ?ladder⟩,
    fun hadm => ?command⟩
  case expiry =>
    intro kicked late counts
    have hlate : late ↔ d.watchPeriod w.val ≤ d.watchAge w.val := Iff.rfl
    refine ⟨fun h => act_eq_next hd ?_, fun hk hcounts h => act_eq_next hd ?_⟩
    · exact watchExpiry_of_idle (kicked := kicked) (by simpa [counts, hlate, or_assoc, imp_iff_not_or] using h)
    · obtain ⟨hpow, hon, hruns, hexp⟩ := hcounts
      exact if_neg (by simpa [show s.pending.any (Instr.kicks t w) = false from hk, hpow, hon, hruns, hexp] using hlate.mp h)
  case noLadder =>
    refine ⟨act_eq_next hd ?_, act_eq_next hd ?_⟩
    · simp only [ladderStep, hnone]
    · simp only [ladderDeadline, hnone]
  case ladder =>
    intro held isOver
    refine ⟨fun h => act_eq_next hd ?_, fun h => act_eq_next hd ?_, fun h => act_eq_next hd ?_, fun h => act_eq_next hd ?_⟩
    · simp only [ladderStep, hl]
      exact if_pos (by simpa [held, or_assoc] using h)
    · simp only [ladderStep, hl]
      exact if_neg (by simpa [held, or_assoc] using h)
    · simp only [ladderDeadline, hl]
      exact if_pos (by simpa [isOver, imp_iff_not_or] using h)
    · simp only [ladderDeadline, hl]
      exact if_neg (by simpa [isOver] using h)
  case command =>
    refine ⟨fun n step => ⟨fun hno => act_eq_next hd ?_, fun d' hyes => act_eq_next hd ?_⟩, fun hrun => act_eq_next hd ?_,
      fun hhalted => act_eq_next hd ?_⟩
    · rw [ladderRequest, keeperAccess_admitted hadm, Device.ladderCmd, hno, Option.getD_none]
    · rw [ladderRequest, keeperAccess_admitted hadm, Device.ladderCmd, hyes, Option.getD_some]
    · rw [ladderHaltClear, keeperAccess_admitted hadm]
      exact if_neg (by simp [hrun])
    · rw [ladderHaltClear, keeperAccess_admitted hadm]
      exact if_pos hhalted

/-! ### The TAP and the debug lock (R371, R372) -/

/-- Settles O53. -/
theorem tapAndDebugLock : Obligations.TapAndDebugLock := by
  intro s t d
  have hd : s.seen t = d := rfl
  clear_value d
  intro may bypassed
  have hmay : d.tapDrives = true ↔ may := by simp [Device.tapDrives, may]
  have hdrives (h : may) : (!d.tapDrives) ≠ true := by simp [hmay.mpr h]
  have hstays (h : ¬ may) : (!d.tapDrives) = true := by simpa using fun hdr => h (hmay.mp hdr)
  refine ⟨fun bits => ⟨fun h => ⟨d.freeVal, act_eq_next hd ?_⟩, fun h => act_eq_next hd ?_, ⟨d.freeVal, act_eq_next hd rfl⟩⟩,
    act_eq_next hd rfl, fun h => ⟨act_eq_next hd ?_, act_eq_next hd ?_⟩, fun h => ⟨act_eq_next hd ?_, act_eq_next hd ?_⟩,
    fun code => act_eq_next hd rfl, fun random => ⟨fun h => act_eq_next hd ?_, fun hlocked hfree => act_eq_next hd ?_⟩,
    fun response => ?response, fun h => act_eq_next hd (if_pos h), fun h => act_eq_next hd (if_neg (by simp [h])),
    fun h => act_eq_next hd (if_pos h), fun h => act_eq_next hd (if_neg (by simp [h]))⟩
  · exact if_neg (hdrives h)
  · exact if_pos (hstays h)
  · exact if_neg (hdrives h)
  · exact if_neg (hdrives h)
  · exact if_pos (hstays h)
  · exact if_pos (hstays h)
  · exact if_pos (Bool.or_eq_true_iff.mpr h)
  · exact if_neg (Bool.eq_false_iff.mp (Bool.or_eq_false_iff.mpr ⟨hlocked, hfree⟩))
  case response =>
    intro sel f ends
    refine ⟨fun hopen => act_eq_next hd (if_pos hopen), fun hlocked hblocked => act_eq_next hd ?_,
      fun hlocked hfree hmatch => act_eq_next hd ?_, fun hlocked hfree hmatch => act_eq_next hd ?_⟩
    · exact (if_neg (by simp [hlocked])).trans (if_pos hblocked)
    · exact (if_neg (by simp [hlocked])).trans ((if_neg (Bool.eq_false_iff.mp hfree)).trans (if_pos hmatch))
    · exact (if_neg (by simp [hlocked])).trans ((if_neg (Bool.eq_false_iff.mp hfree)).trans (if_neg (Bool.eq_false_iff.mp hmatch)))

/-! ### Debug access (R373) -/

section
variable {d : Device} {target : BitVec 6} {addr data : Word}

theorem dbgAccessRead_locked (h : d.dbg.unlocked = false) : dbgAccessRead target addr d = d.tapBypass :=
  if_pos (by simp [h])

theorem dbgAccessWrite_locked (h : d.dbg.unlocked = false) : dbgAccessWrite target addr data d = d.tapBypass :=
  if_pos (by simp [h])

theorem dbgAccess_other (h : d.dbg.unlocked = true) (ht : 2 ≤ target.toNat) :
    dbgAccessRead target addr d = d.accCapture.accDone 2 0 ∧ dbgAccessWrite target addr data d = d.accCapture.accDone 2 0 := by
  obtain ⟨k, hk⟩ : ∃ k, target.toNat = k + 2 := ⟨target.toNat - 2, by omega⟩
  simp [dbgAccessRead, dbgAccessWrite, h, hk]

/-- A core that runs is one in service and not halted. -/
theorem haltReq_of_runs {n : Nat} (hrun : d.coresRun = true) (hhalted : (d.core n).halted = false) :
    d.haltReq n = (d.coreHalt n 1 (w32 d.freeVal)).freeNext :=
  if_neg (by simp [hrun, hhalted])

theorem haltReq_of_not_runs {n : Nat} (h : ¬ (d.coresRun = true ∧ (d.core n).halted = false)) : d.haltReq n = d :=
  if_pos (by cases hh : (d.core n).halted <;> simp_all)

end

/-- Settles O54. -/
theorem debugAccess : Obligations.DebugAccess := by
  intro s t d
  have hd : s.seen t = d := rfl
  clear_value d
  intro bypassed
  refine ⟨fun target addr data hole => ?access, fun n => ?core⟩
  case access =>
    rw [exec_dbgAccessRead hole, exec_dbgAccessWrite hole, hd]
    refine ⟨fun hlocked => ?_, fun hopen => ⟨fun h0 => ?_, fun h1 => ?_, fun h2 => ?_⟩⟩
    · rw [dbgAccessRead_locked hlocked, dbgAccessWrite_locked hlocked]
      exact ⟨rfl, rfl⟩
    · subst h0
      simp [dbgAccessRead, dbgAccessWrite, hopen]
    · subst h1
      simp [dbgAccessRead, dbgAccessWrite, hopen]
    · obtain ⟨hread, hwrite⟩ := dbgAccess_other (addr := addr) (data := data) hopen h2
      rw [hread, hwrite]
      exact ⟨rfl, rfl⟩
  case core =>
    intro c runs
    have hruns {p : Bool} : (p && !(d.core n.val).halted && d.coresRun) = true ↔ p = true ∧ runs := by
      simp [runs, c, and_assoc, and_comm]
    refine ⟨fun hlocked => ⟨?_, ?_, ?_⟩, fun hopen => ⟨?_, fun h => ⟨w32 d.freeVal, ?_⟩, fun h => ?_, fun hrun hhalted => ⟨w32 d.freeVal, ?_⟩,
      fun h => ?_⟩, fun i => ⟨fun hbp h => ?_, fun h => ?_⟩, fun addr write => ⟨fun hseen h => ⟨w32 d.freeVal, ?_⟩, fun h => ?_⟩⟩
    all_goals refine act_eq_next hd ?_
    · exact if_neg (by simp [hlocked])
    · exact if_neg (by simp [hlocked])
    · exact if_neg (by simp [hlocked])
    · exact if_pos hopen
    · exact (if_pos hopen).trans (haltReq_of_runs h.1 h.2)
    · exact (if_pos hopen).trans (haltReq_of_not_runs h)
    · exact (if_pos hopen).trans (if_pos (Bool.and_eq_true_iff.mpr ⟨hhalted, hrun⟩))
    · exact (if_pos hopen).trans (if_neg (by simpa [imp_iff_not_or, or_comm] using h))
    · exact if_pos (hruns.mpr ⟨hbp, h⟩)
    · exact if_neg fun hgo => h.elim (fun hbp => Bool.eq_false_iff.mp hbp (hruns.mp hgo).1) (· (hruns.mp hgo).2)
    · exact if_pos (hruns.mpr ⟨Bool.or_eq_true_iff.mpr hseen, h⟩)
    · exact if_neg fun hgo => h.elim (· (Bool.or_eq_true_iff.mp (hruns.mp hgo).1)) (· (hruns.mp hgo).2)

end Sys2Proof.Machine
end

section
/-! PROOFS. The Twin (chapter 14): each command by the cases of its meaning. -/

namespace Sys2Proof.Machine

/-! ### The peer of the Twin (R300, R302, R313) -/

/-- Settles O45. -/
theorem twinHeartbeats : Obligations.TwinHeartbeats := by
  intro s t d
  have hd : s.seen t = d := rfl
  clear_value d
  refine ⟨fun h1 h2 h3 => ?pattern, fun h => act_eq_next hd ?noLoss, fun hen hlost hrole hlate => ?loss, fun h => act_eq_next hd ?noReturn,
    fun hlost hheard => ?back⟩
  case pattern =>
    intro beat
    refine ⟨fun hp => act_eq_next hd ?_, fun hp => act_eq_next hd ?_, fun hp hk => act_eq_next hd ?_, fun hp hk => act_eq_next hd ?_,
      fun hp hk => act_eq_next hd ?_, fun hp hk hr => act_eq_next hd ?_, fun hp hk h3 h4 =>
        ⟨if d.freeVal % 2 = 0 then 3 else 4, by split <;> simp, act_eq_next hd ?_⟩⟩
    · simp only [hbPatternClassify, hp]
      rfl
    · simp only [hbPatternClassify, hp]
      rfl
    · simp only [hbPatternClassify, hp]
      exact if_neg (Bool.eq_false_iff.mp hk)
    · simp only [hbPatternClassify, hp]
      exact if_neg (Bool.eq_false_iff.mp hk)
    · obtain hp | hp | hp := hp <;> simp only [hbPatternClassify, hp]
      · exact if_pos hk
      · exact if_pos hk
      · exact if_pos (.inl hk)
    · simp only [hbPatternClassify, hp]
      exact if_pos (.inr hr)
    · simp only [hbPatternClassify, hp]
      exact if_neg (not_or.mpr ⟨Bool.eq_false_iff.mp hk, not_or.mpr ⟨h3, h4⟩⟩)
  case noLoss => exact if_pos (by simpa [or_assoc] using h)
  case noReturn => exact if_pos (by simpa using h)
  case loss =>
    intro take gone told
    have hgo := (if_neg (by simp [hen, hlost, hrole, hlate]) : heartbeatLoss d = _)
    refine ⟨fun hr hsenior => act_eq_next hd (hgo.trans ?_), fun hr hsenior => act_eq_next hd (hgo.trans ?_),
      fun hr hsenior => act_eq_next hd (hgo.trans ?_), fun h => act_eq_next hd (hgo.trans ?_)⟩
    · simp only [raise_twin, inc_twin, onTwin_twin, hr, hsenior]
      rfl
    · simp only [raise_twin, inc_twin, onTwin_twin, hr, hsenior]
      rfl
    · simp only [raise_twin, inc_twin, onTwin_twin, hr, hsenior]
      rfl
    · obtain ⟨hr, hsenior⟩ | hr | hr := h
      · simp only [raise_twin, inc_twin, onTwin_twin, hr, hsenior]
        rfl
      · simp only [raise_twin, inc_twin, onTwin_twin, hr]
        rfl
      · simp only [raise_twin, inc_twin, onTwin_twin, hr]
        rfl
  case back =>
    intro take back yields
    have hgo := (if_neg (by simp [hlost, hheard]) : heartbeatReturn d = _)
    refine ⟨fun h => act_eq_next hd (hgo.trans ?_), fun h => act_eq_next hd (hgo.trans ?_)⟩
    · exact if_pos (by simpa [yields] using h)
    · exact if_neg (by simpa [yields] using h)

/-! ### Taking over (R298, R307 to R309) -/

/-- Settles O46. -/
theorem twinChanges : Obligations.TwinChanges := by
  intro s t d
  have hd : s.seen t = d := rfl
  clear_value d
  refine ⟨⟨fun h => act_eq_next hd ?_, fun h => act_eq_next hd ?_⟩, fun hadm => ⟨fun k => ?handover, fun hrole htake hserve => ?_,
    fun hrole h => ?_, fun h3 h4 => ?_⟩, fun hnone => act_eq_next hd ?_, fun due code htake => ?change, fun hnone => act_eq_next hd ?_,
    fun h hnamed => ?boundary⟩
  · exact if_pos (by simpa using h)
  · exact if_neg (by simpa using h)
  case handover =>
    intro n h
    have hgo : handoverCmd k d = d.handoverGo k.toNat := keeperAccess_admitted hadm
    refine ⟨fun hrole hnone hpresent hup hyield => ?_, fun hrole hsome => ?_, fun hrole hnone h => ?_, fun hrole hup => ?_, fun hrole => ?_,
      fun h => ?_⟩
    all_goals refine act_eq_next hd (hgo.trans ?_)
    · exact (if_pos hrole).trans ((if_neg (by simp [hnone])).trans (if_neg (by simp [hpresent, hup, hyield])))
    · exact (if_pos hrole).trans (if_pos hsome)
    · exact (if_pos hrole).trans ((if_neg (by simp [hnone])).trans (if_pos (by simpa [or_assoc] using h)))
    · exact (if_neg (by simp [hrole])).trans (if_pos ⟨hrole, hup⟩)
    · exact (if_neg (by simp [hrole])).trans ((if_neg (by simp [hrole])).trans (if_pos hrole))
    · have h2 : d.twin.role ≠ 2 := by omega
      have h3 : ¬ (d.twin.role = 3 ∧ d.lanes.rng.st = 2) := by omega
      have h0 : d.twin.role ≠ 0 := by omega
      exact (if_neg h2).trans ((if_neg h3).trans (if_neg h0))
  · refine act_eq_next hd ((keeperAccess_admitted hadm).trans ((if_pos hrole).trans (if_pos ?_)))
    exact Bool.and_eq_true_iff.mpr ⟨htake, hserve⟩
  · refine act_eq_next hd ((keeperAccess_admitted hadm).trans ((if_pos hrole).trans (if_neg ?_)))
    exact Bool.eq_false_iff.mp (Bool.and_eq_false_iff.mpr h)
  · exact act_eq_next hd ((keeperAccess_admitted hadm).trans (if_neg (not_or.mpr ⟨h3, h4⟩)))
  · simp only [lampChange, hnone]
  case change =>
    intro dropped heard bare may
    have hmay : may ↔ ¬ (d.twin.role ≠ 3 ∧ d.twin.role ≠ 4 ∧ d.twin.role ≠ 1) := by
      show d.twin.role = 3 ∨ d.twin.role = 4 ∨ d.twin.role = 1 ↔ _
      omega
    have hgo : lampChange d = if d.clk.now < due then d
        else if d.twin.role ≠ 3 ∧ d.twin.role ≠ 4 ∧ d.twin.role ≠ 1 then dropped
        else if heard then dropped
        else if d.twin.role = 4 ∧ d.twin.wasLit ∧ code = 4 then d.takeOver code
        else if d.servingAll (fun s => s == 3) && d.mayTake then d.takeOver code
        else if d.servingAll (fun s => s == 3 || s == 4) && d.mayTake then d
        else d.refuseTake := by
      simp only [lampChange, htake]
      rfl
    refine ⟨fun hearly => act_eq_next hd (hgo.trans (if_pos hearly)), fun hdue h => ?_, fun hdue hm hno h => ?_, fun hdue hm hno hb hs hs' ht => ?_,
      fun hdue hm hno hb h h' => ?_⟩
    all_goals refine act_eq_next hd (hgo.trans ((if_neg (Nat.not_lt.mpr hdue)).trans ?_))
    · obtain hrole | hheard := h
      · exact if_pos (by simpa [hmay] using hrole)
      · exact (ite_congr rfl (fun _ => rfl) fun _ => if_pos hheard).trans (ite_self _)
    all_goals refine (if_neg (hmay.mp hm)).trans ((if_neg hno).trans ?_)
    · obtain hb | hs := h
      · exact if_pos hb
      · exact (ite_congr rfl (fun _ => rfl) fun _ => if_pos (by simpa using hs)).trans (ite_self _)
    · exact (if_neg hb).trans ((if_neg (by simp [hs])).trans (if_pos (by simp [hs', ht])))
    · exact (if_neg hb).trans ((if_neg (by simpa [imp_iff_not_or] using h')).trans (if_neg (by simpa [imp_iff_not_or, or_comm] using h)))
  · simp only [handoverBoundary, hnone]
  case boundary =>
    refine ⟨fun hrole hdue => act_eq_next hd ?_, fun h => act_eq_next hd ?_⟩
    · simp only [handoverBoundary, hnamed]
      exact if_pos ⟨hrole, hdue⟩
    · simp only [handoverBoundary, hnamed]
      exact if_neg fun ⟨hrole, hdue⟩ => h.elim (· hrole) (Nat.not_lt.mpr hdue)

end Sys2Proof.Machine
end

section
/-! PROOFS. The power states and the pins (chapter 15): each command by the cases of its meaning. -/

namespace Sys2Proof.Machine

/-! ### The power states (R318 to R329) -/

/-- Settles O47. -/
theorem powerStates : Obligations.PowerStates := by
  intro s t d
  have hd : s.seen t = d := rfl
  clear_value d
  refine ⟨fun hadm => ?request, fun hheld hgo => act_eq_next hd (if_pos (by simp [hheld, hgo])),
    fun h => act_eq_next hd (if_neg (by simpa [imp_iff_not_or] using h)), fun h => act_eq_next hd (if_pos h), fun hst hflag hjobs => ?entry, ?rest⟩
  case request =>
    intro asks
    have hasks : ∀ target (answer : Host.Outcome State Fault Refusal), target ≠ 0 → answer = .next (s.put (d.pwrGo target)) → asks answer target := by
      rintro target _ h0 rfl
      refine ⟨fun hen => ?_, fun hen h => ?_, fun hen h1 hheld h => ?_, fun hen hst hheld hl => ?_, fun hen hst hheld hl hw => ?_,
        fun hen hst hheld hl hw => ?_⟩
      all_goals refine congrArg (fun e => Host.Outcome.next (s.put e)) ((if_neg h0).trans ?_)
      · exact if_pos hen
      all_goals refine (if_neg (Bool.eq_false_iff.mp hen)).trans ?_
      · exact if_pos h
      · exact (if_neg (by simp [h1, hheld])).trans (if_pos h)
      all_goals refine (if_neg (by simp [hst, hheld])).trans ((if_neg (by simp [hst])).trans ?_)
      · exact if_pos hl
      · exact (if_neg hl).trans (if_pos hw)
      · exact (if_neg hl).trans (if_neg (Bool.eq_false_iff.mp hw))
    have hcmd : ∀ target, pwrRequest target d = d.pwrGo target := fun _ => keeperAccess_admitted hadm
    exact ⟨hasks 1 _ (by decide) (act_eq_next hd (hcmd 1)), hasks 2 _ (by decide) (act_eq_next hd (hcmd 2)),
      hasks 3 _ (by decide) (act_eq_next hd (hcmd 3))⟩
  case entry =>
    intro held quiet dark moored
    exact act_eq_next hd (if_neg (by simp [hst, hflag, hjobs]))
  case rest =>
    intro asleep
    have hasleep : asleep ↔ ¬ (d.pwr.st ≠ 2 ∧ d.pwr.st ≠ 3 ∧ d.pwr.st ≠ 4) := by
      show d.pwr.st = 2 ∨ d.pwr.st = 3 ∨ d.pwr.st = 4 ↔ _
      omega
    have hrange : asleep ↔ ¬ (d.pwr.st < 2 ∨ 4 < d.pwr.st) := by
      show d.pwr.st = 2 ∨ d.pwr.st = 3 ∨ d.pwr.st = 4 ↔ _
      omega
    refine ⟨fun mv temp h => act_eq_next hd (if_pos (h.imp_left (by simpa only [hasleep, not_not] using ·))), fun mv temp hst hdue => ?tick,
      ⟨fun h => act_eq_next hd (if_pos h), fun h => act_eq_next hd (if_neg h)⟩, fun runs h => act_eq_next hd (if_pos ?awake),
      fun runs hsrc => ?exit⟩
    case tick =>
      intro v w sampled byV byT told
      have hgo : sequencerTick mv temp d = if told.gpioFires then told.latchSet 0 else told :=
        if_neg (by simpa [hdue, imp_iff_not_or] using hasleep.mp hst)
      exact ⟨fun h => act_eq_next hd (hgo.trans (if_pos h)), fun h => act_eq_next hd (hgo.trans (if_neg (Bool.eq_false_iff.mp h)))⟩
    case awake =>
      rw [hrange, not_not] at h
      exact or_assoc.mp h
    case exit =>
      intro last out
      have hgo : asleep → wakeExit runs d = if d.pwr.st = 2 then bringUp runs out.exitEclipse
          else if d.pwr.st = 3 then bringUp runs out.exitDeep else out.coldStart 0 (some 4) := fun h => by
        refine if_neg ?_
        rw [← or_assoc, not_or]
        refine ⟨hrange.mp h, fun ⟨hnone, hfault⟩ => ?_⟩
        simp [hnone, hfault] at hsrc
      refine ⟨fun h => act_eq_next hd ((hgo (.inl h)).trans (if_pos h)), fun h => act_eq_next hd ((hgo (.inr (.inl h))).trans ?_),
        fun h => act_eq_next hd ((hgo (.inr (.inr h))).trans ?_)⟩
      · exact (if_neg (by simp [h])).trans (if_pos h)
      · exact (if_neg (by simp [h])).trans (if_neg (by simp [h]))

/-! ### The pins (R330, R332 to R334) -/

/-- Settles O48. -/
theorem pins : Obligations.Pins := by
  intro s t pin d i g
  have hd : s.seen t = d := rfl
  clear_value d
  refine ⟨fun groups hadm => act_eq_next hd (keeperAccess_admitted hadm), fun level since => ⟨fun hp => ?_, fun hp h => ?_, fun hp hf h => ?_⟩,
    fun n => ⟨fun hp hf h => act_eq_next hd (if_pos (by simp [hp, h, show (d.gpio pin.val).frozen = false from hf])),
      fun h => act_eq_next hd (if_neg (by simpa [imp_iff_not_or, or_assoc] using h))⟩,
    fun n => ⟨fun h => act_eq_next hd (if_pos (by simpa [or_assoc] using h)), fun hp hf h => ?reassess⟩, fun hnone => act_eq_next hd ?_, fun u hact => ?stuck⟩
  · exact act_eq_next hd (if_pos (by simp [hp]))
  · exact act_eq_next hd ((if_neg (by simp [hp])).trans (if_pos h))
  · exact act_eq_next hd ((if_neg (by simp [hp])).trans (if_neg (not_or.mpr ⟨Bool.eq_false_iff.mp hf, Nat.not_lt.mpr h⟩)))
  case reassess =>
    have hgo : gpioReassess pin n d = if d.chatterMax < n then d.onGpio i fun g => { g with frozenAt := d.clk.now }
        else ((d.onGpio i fun g => { g with frozen := false, frozenBefore := false, level := g.raw }).raise 20 0).gpioSync i :=
      if_neg (by simpa [hp, show (d.gpio pin.val).frozen = true from hf] using h)
    exact ⟨fun hm => act_eq_next hd (hgo.trans (if_pos hm)), fun hm => act_eq_next hd (hgo.trans (if_neg (Nat.not_lt.mpr hm)))⟩
  · have hnone : (d.gpio pin.val).activeAt = none := hnone
    simp [gpioStuck, hnone]
  case stuck =>
    have hact : (d.gpio pin.val).activeAt = some u := hact
    refine ⟨fun hp hdue hst hne => act_eq_next hd ?_, fun h => act_eq_next hd ?_⟩
    · have hst : (d.gpio pin.val).stuck = false := hst
      simp only [gpioStuck, hact]
      exact if_pos (by simp [hp, hdue, hst, hne])
    · simp only [gpioStuck, hact]
      exact if_neg (by simpa [imp_iff_not_or, or_assoc] using h)

end Sys2Proof.Machine
end

section
/-! PROOFS. The Keeper's services (chapter 16): each command by the cases of its meaning, and the request at the head of the
management queue once for every operation. -/

namespace Sys2Proof.Machine

/-! ### The spool, the geofence and PTP (R339, R342, R345, R346) -/

/-- Settles O49. -/
theorem spoolGeofencePtp : Obligations.SpoolGeofencePtp := by
  intro s t d
  have hd : s.seen t = d := rfl
  clear_value d
  refine ⟨fun h => act_eq_next hd ?_, fun x r hup hin => ?write, fun m => ?ack, fun h => act_eq_next hd (if_pos (by simpa [or_assoc] using h)),
    fun hfw hun hdue => ?again, fun hup hon hdue => act_eq_next hd (if_pos (by simp [hup, hon, hdue])),
    fun h => act_eq_next hd (if_neg (by simpa [imp_iff_not_or, or_assoc] using h)), fun e off => ?ptp⟩
  · obtain h | h := h
    · exact if_pos h
    · exact (ite_congr rfl (fun _ => rfl) fun _ => by simp only [h]).trans (ite_self _)
  case write =>
    refine ⟨fun hrep => act_eq_next hd ((if_neg (Bool.eq_false_iff.mp hup)).trans ?_),
      fun m hrep => act_eq_next hd ((if_neg (Bool.eq_false_iff.mp hup)).trans ?_)⟩
    · simp only [hin, hrep]
    · simp only [hin, hrep]
  case ack =>
    exact ⟨fun h => act_eq_next hd (if_pos (by simpa using h)), fun hup hok => act_eq_next hd (if_neg (by simp [hup, hok]))⟩
  case again =>
    intro again
    have hgo : spoolFwdTimeout d =
        let told := if 8 ≤ again.keep.timeouts ∧ !again.keep.stalled then (again.onKeep fun k => { k with stalled := true }).raise 245 0 else again
        told.spoolSend told.fwdWindow := if_neg (by simpa [hfw, hun] using hdue)
    refine ⟨fun h => act_eq_next hd (hgo.trans ?_), fun h8 hst => act_eq_next hd (hgo.trans ?_)⟩
    · have h : ¬ (8 ≤ again.keep.timeouts ∧ !again.keep.stalled) := by simpa only [not_and_or, not_le, Bool.not_eq_true', Bool.not_eq_false] using h
      simp only [if_neg h]
    · have h : 8 ≤ again.keep.timeouts ∧ !again.keep.stalled := ⟨h8, by simp [hst]⟩
      simp only [if_pos h]
  case ptp =>
    refine ⟨fun h => act_eq_next hd (if_pos (by simpa [or_assoc] using h)), fun hup hr hm => ?_⟩
    intro slave x
    have hgo : ptpSyncComplete e off d = if slave.cf Reg.KEEP_PTP_CTRL 29 27 = e.val ∧ slave.refSrc x = 2
        then ptpSyncComplete.domFeedPut x off slave else slave := if_neg (by simp [hup, hr, hm])
    exact ⟨fun h => act_eq_next hd (hgo.trans (if_neg (by simpa [imp_iff_not_or] using h))),
      fun he hsrc hadm => act_eq_next hd (hgo.trans ((if_pos ⟨he, hsrc⟩).trans (access_admitted hadm)))⟩

/-! ### Management requests (R349 to R351) -/

/-- An operation of which none waits, or that finds the Keeper down, has no effect. -/
theorem mgmtRun_of_idle {d : Device} {op : Nat} {f : MgmtReq → Device → MgResult} (h : d.keep.queue = [] ∨ d.keeperUp = false) :
    d.mgmtRun op f = d := by
  obtain h | h := h
  · simp only [Device.mgmtRun, h]
  · unfold Device.mgmtRun
    split
    · rfl
    · exact if_pos (by simp [h])

/-- The head of the queue, of another operation, stays. -/
theorem mgmtRun_of_other {d : Device} {op : Nat} {f : MgmtReq → Device → MgResult} {q : MgmtReq} {rest : List MgmtReq}
    (hq : d.keep.queue = q :: rest) (h : q.op ≠ op) : d.mgmtRun op f = d := by
  simp only [Device.mgmtRun, hq]
  exact if_pos (by simp [h])

/-- The answer of a request executed with the result `r`, its count and its Log record. -/
def mgmtDone (q : MgmtReq) (r : MgResult) : Device :=
  let told := r.dev.answer q r.status r.body
  (if r.status = mgOk then told.inc Reg.KEEP_MGMT_OK_CNT else told).logReq 7 (mgmtRecord q r.status) true

theorem mgmtRun_of_head {d : Device} {op : Nat} {f : MgmtReq → Device → MgResult} {q : MgmtReq} {rest : List MgmtReq}
    (hup : d.keeperUp = true) (hq : d.keep.queue = q :: rest) (h : q.op = op) :
    d.mgmtRun op f = mgmtDone q (if d.start.degraded && !(readOp op || op == 11) then
      (d.onKeep fun k => { k with queue := rest }).mgNo mgDegraded else f q (d.onKeep fun k => { k with queue := rest })) := by
  simp only [Device.mgmtRun, hq]
  exact if_neg (by simp [hup, h])

/-- Settles O50. -/
theorem managementRequests : Obligations.ManagementRequests := by
  intro s t d
  have hd : s.seen t = d := rfl
  clear_value d
  refine ⟨fun m => ?receive, fun h => act_eq_next hd ?_, fun q rest hq hup => ?hello, fun x hx => ?operation⟩
  case receive =>
    intro q ours
    have hgo : ours → mgmtRx m d = if !d.mgmtTagOk m.data q.keyRead then (d.inc Reg.KEEP_MGMT_AUTH_FAIL_CNT).raise 240 0
        else if q.op = 1 then d.onKeep fun k => { k with hellos := k.hellos ++ [q] }
        else if fieldAt m.data 16 8 ≠ d.keep.bootNonce.toNat then d.answer q mgStaleNonce (beBytes 8 d.keep.bootNonce.toNat)
        else d.mgmtAccept q := fun ⟨hon, hus⟩ => if_neg (by simp [hon, hus])
    refine ⟨fun h => act_eq_next hd (if_pos (by simpa [ours, imp_iff_not_or] using h)), fun h htag => act_eq_next hd ((hgo h).trans (if_pos (by simp [htag]))),
      fun h htag => ⟨fun h1 => ?_, fun h1 hn => ?_, fun h1 hn => ?_⟩⟩
    all_goals refine act_eq_next hd ((hgo h).trans ((if_neg (by simp [htag])).trans ?_))
    · exact if_pos h1
    · exact (if_neg h1).trans (if_pos hn)
    · exact (if_neg h1).trans (if_neg (not_not.mpr hn))
  · obtain h | h := h
    · simp only [mgHello, h]
    · unfold mgHello
      split
      · rfl
      · exact if_pos (by simp [h])
  case hello =>
    intro taken body
    have hgo : mgHello d = if !q.body.isEmpty then taken.answer q mgBadOp [] else (taken.answer q mgOk body).inc Reg.KEEP_MGMT_OK_CNT := by
      simp only [mgHello, hq]
      exact if_neg (by simp [hup])
    exact ⟨fun h => act_eq_next hd (hgo.trans (if_neg (by simp [h]))), fun h => act_eq_next hd (hgo.trans (if_pos (by simp [h])))⟩
  case operation =>
    have hrun : exec x.2.1 s = s.act t fun d => d.mgmtRun x.1 x.2.2 := by
      simp only [List.mem_cons, List.not_mem_nil, or_false] at hx
      obtain rfl | rfl | rfl | rfl | rfl | rfl | rfl | rfl | rfl | rfl := hx <;> rfl
    rw [hrun]
    refine ⟨fun h => act_eq_next hd (mgmtRun_of_idle h), fun q rest hq hup => ?_⟩
    intro taken barred done
    have hbar : barred ↔ (d.start.degraded && !(readOp x.1 || x.1 == 11)) = true := by simp [barred]
    refine ⟨fun h => act_eq_next hd (mgmtRun_of_other hq h), fun h hb => act_eq_next hd ((mgmtRun_of_head hup hq h).trans ?_),
      fun h hb => act_eq_next hd ((mgmtRun_of_head hup hq h).trans ?_)⟩
    · exact congrArg (mgmtDone q) (if_pos (hbar.mp hb))
    · exact congrArg (mgmtDone q) (if_neg (hbar.not.mp hb))

end Sys2Proof.Machine
end

section
/-! PROOFS. The time references (chapter 10): each command by the cases of its meaning. -/

namespace Sys2Proof.Machine

/-- Settles O40. -/
theorem timeReferences : Obligations.TimeReferences := by
  intro s t x d
  have hd : s.seen t = d := rfl
  clear_value d
  refine ⟨fun falling => ?pps, fun text => ?nmea, fun hi hadm => ?feed, fun w u hw hu => ?loss, fun h => act_eq_next hd ?noLoss,
    fun u hu hon hdue => act_eq_next hd ?revert, fun u hu h => act_eq_next hd ?noRevert, fun hnone => act_eq_next hd ?_, ?gate,
    fun hrun hup hnear => act_eq_next hd (if_pos (by simp [hrun, hup, hnear])),
    fun h => act_eq_next hd (if_neg (by simpa [imp_iff_not_or, or_assoc, Nat.succ_le_iff] using h))⟩
  case pps =>
    intro hears captured
    have hgo : d.domDown 2 = false → ppsEdge falling d =
        let one (d : Device) (x : RefDom) : Device :=
          if d.refSrc x = 1 ∧ d.cb (Reg.LANT_DOM_CFG (domIdx x)) 28 = falling then captured d x else d
        one (one d .a) .b := fun h => if_neg (Bool.eq_false_iff.mp h)
    refine ⟨fun h => act_eq_next hd (if_pos h), fun hup ha hb => ?_, fun hup ha hb => ?_, fun hup ha hb => ?_, fun hup ha hb => ?_⟩
    all_goals refine act_eq_next hd ((hgo hup).trans ?_)
    · exact (congrArg (fun e => if hears e .b then captured e .b else e) (if_neg ha)).trans (if_neg hb)
    · exact (congrArg (fun e => if hears e .b then captured e .b else e) (if_pos ha)).trans (if_neg hb)
    · exact (congrArg (fun e => if hears e .b then captured e .b else e) (if_neg ha)).trans (if_pos hb)
    · exact (congrArg (fun e => if hears e .b then captured e .b else e) (if_pos ha)).trans (if_pos hb)
  case nmea =>
    refine ⟨fun h => act_eq_next hd ?_, fun f hup hf => ?_⟩
    · obtain h | h := h
      · exact if_pos (by simp [h])
      · exact (ite_congr rfl (fun _ => rfl) fun _ => by simp only [h]).trans (ite_self _)
    have hgo : nmeaSentence text d = if nmeaType f = [0x52, 0x4D, 0x43] then d.rmc f
        else if nmeaType f = [0x5A, 0x44, 0x41] then ((zdaSeconds f).elim d d.labelEdges) else d := by
      refine (if_neg (by simp [hup])).trans ?_
      simp only [hf]
      cases zdaSeconds f <;> rfl
    refine ⟨fun h => ?_, fun u h hz => ?_, fun h hz => ?_, fun h h' => ?_⟩
    all_goals refine act_eq_next hd (hgo.trans ?_)
    · exact if_pos h
    · exact (if_neg (by simp [h])).trans ((if_pos h).trans (by rw [hz]; rfl))
    · exact (if_neg (by simp [h])).trans ((if_pos h).trans (by rw [hz]; rfl))
    · exact (if_neg h).trans (if_neg h')
  case feed =>
    intro v
    have hgo : domFeed x hi d = d.feed x v := keeperAccess_admitted hadm
    refine ⟨fun h => act_eq_next hd (hgo.trans ?_), fun h => act_eq_next hd (hgo.trans ?_), fun h1 h2 => act_eq_next hd (hgo.trans ?_)⟩
    · simp only [Device.feed, h]
    · simp only [Device.feed, h]
    · unfold Device.feed
      split
      · exact absurd ‹_› h1
      · exact absurd ‹_› h2
      · rfl
  case loss =>
    refine ⟨fun h => act_eq_next hd ?_, fun h => act_eq_next hd ?_⟩ <;> simp only [domainLossTimeout, hw, hu]
    · exact if_pos h
    · exact if_neg (Nat.not_le.mpr h)
  case noLoss =>
    unfold domainLossTimeout
    split
    · next hw hu => simp [hw, hu] at h
    · rfl
  case revert =>
    simp only [revertTimer, hu]
    exact if_pos (by simp [hon, hdue])
  case noRevert =>
    simp only [revertTimer, hu]
    exact if_neg (by simpa [imp_iff_not_or] using h)
  · simp only [revertTimer, hnone]
  case gate =>
    intro held
    refine ⟨fun hnone => act_eq_next hd ?_, fun u hu h => act_eq_next hd ?_, fun u hu hshut ha hb hdue => act_eq_next hd ?_⟩
    · simp only [timeGateTimeout, hnone]
    · simp only [timeGateTimeout, hu]
      exact if_pos (by simpa [held, or_assoc] using h)
    · simp only [timeGateTimeout, hu]
      exact if_neg (by simp [not_or.mp ha, not_or.mp hb, hshut, hdue])

end Sys2Proof.Machine
end

section
/-! PROOFS. DRAM, the scrubs and the check-value units (chapter 11): each command by the cases of its meaning. -/

namespace Sys2Proof.Machine

/-- The first write of a cycle to a unit takes effect on what the unit holds, and its pointer then stands behind the requester
(R17, R255). -/
theorem cvPut_first {d : Device} {q n : Nat} {op : CvOp} (h : (d.cvUnit n).since ≠ d.clk.now) :
    d.cvPut q n op = d.onCv n fun _ =>
      ⟨{ d.cvApply n (d.cvUnit n).now op with ptr := (q % 8 + 1) % 8 }, d.clk.now, (d.cvUnit n).now, [(q % 8, op)]⟩ := by
  have hsame : ((d.cv.get Cv.reset n).since == d.clk.now) = false := by simpa [Device.cvUnit] using h
  simp [Device.cvPut, Device.onCv, Tab.upd, Device.cvUnit, hsame, Device.cvRun, cvPick]

/-! A start, data and the high half of a state as the first write of a cycle (R254). -/

theorem cvPut_start {d : Device} {q n : Nat} (h : (d.cvUnit n).since ≠ d.clk.now) :
    d.cvPut q n .start = d.onCv n fun _ =>
      ⟨{ (d.cvUnit n).now with
          s := BitVec.ofNat 64 (d.cfg64 (Reg.CV_INIT_LO n) (Reg.CV_INIT_HI n) % 2 ^ d.cvWidth n), ptr := (q % 8 + 1) % 8 },
        d.clk.now, (d.cvUnit n).now, [(q % 8, .start)]⟩ := by
  rw [cvPut_first h, Device.cvApply]

theorem cvPut_feed {d : Device} {q n : Nat} {v : Word} (h : (d.cvUnit n).since ≠ d.clk.now) :
    d.cvPut q n (.feed v) = d.onCv n fun _ =>
      ⟨{ (d.cvUnit n).now with
          s := BitVec.ofNat 64 (cvFeed (d.cvWidth n) (d.cfg64 (Reg.CV_POLY_LO n) (Reg.CV_POLY_HI n)) (d.cb (Reg.CV_CTRL n) 7)
            ((d.cvUnit n).now.s.toNat % 2 ^ d.cvWidth n) ((beBytes 4 v.toNat).drop (4 - (d.cf (Reg.CV_CTRL n) 10 9 + 1))))
          ptr := (q % 8 + 1) % 8 },
        d.clk.now, (d.cvUnit n).now, [(q % 8, .feed v)]⟩ := by
  rw [cvPut_first h, Device.cvApply]

theorem cvPut_stateHi {d : Device} {q n : Nat} {v : Word} (h : (d.cvUnit n).since ≠ d.clk.now) :
    d.cvPut q n (.stateHi v) = d.onCv n fun _ =>
      ⟨{ (d.cvUnit n).now with
          s := BitVec.ofNat 64 ((v.toNat * 4294967296 + (d.cvUnit n).now.lo.toNat) % 2 ^ d.cvWidth n), ptr := (q % 8 + 1) % 8 },
        d.clk.now, (d.cvUnit n).now, [(q % 8, .stateHi v)]⟩ := by
  rw [cvPut_first h, Device.cvApply]

/-- Settles O41. -/
theorem memoryCommands : Obligations.MemoryCommands := by
  refine ⟨fun s t => ?dram, fun s t => ?units⟩
  case dram =>
    intro d
    have hd : s.seen t = d := rfl
    clear_value d
    refine ⟨fun req addr keep data => ?request, fun ch bank => ⟨fun h => act_eq_next hd (if_pos (by simpa using h)),
      fun h => act_eq_next hd (if_neg (by simpa using h))⟩, fun ch => ?channel⟩
    case request =>
      refine ⟨fun h => act_eq_next hd (if_pos h), fun hst hroom ho => ?_, fun hst hroom ho => ?_, fun hst hfull => ?_⟩
      all_goals refine act_eq_next hd ((if_neg hst).trans ?_)
      · exact (if_pos hroom).trans (if_neg (Bool.eq_false_iff.mp ho))
      · exact if_pos hroom
      · exact if_neg (Nat.not_lt.mpr hfull)
    case channel =>
      intro c
      refine ⟨fun h => act_eq_next hd (if_pos h), fun h => act_eq_next hd (if_neg h), fun hst hno hdue => act_eq_next hd (if_pos ?_),
        fun h => act_eq_next hd (if_neg ?_), fun hnone => act_eq_next hd ?_, fun r hr => ?complete⟩
      · simpa [show (d.mem.chan ch).st = 2 from hst, show (d.mem.chan ch).reqs = [] from hno] using hdue
      · simpa [imp_iff_not_or, or_assoc] using h
      · have hnone : (d.mem.chan ch).pick d.clk.now = none := hnone
        simp only [dramRequestComplete, hnone]
      case complete =>
        intro b counted moved openMax served
        have hmove : counted.dramMove r = moved := by
          unfold Device.dramMove
          cases h : r.data <;> simp only [moved, h]
        have hgo : dramRequestComplete ch d = match c.held with
            | [] => served
            | h :: rest => (served.onMem fun m => m.onChan ch fun c => { c with held := rest }).dramAdmit ch h := by
          have hr : (d.mem.chan ch).pick d.clk.now = some r := hr
          simp only [dramRequestComplete, hr, decide_eq_true_eq]
          rw [show Device.dramMove _ r = moved from hmove] <;> rfl
        refine ⟨fun hheld => act_eq_next hd (hgo.trans ?_), fun h rest hheld => act_eq_next hd (hgo.trans ?_)⟩
        · rw [hheld]
        · rw [hheld]
  case units =>
    intro d
    have hd : s.seen t = d := rfl
    clear_value d
    refine ⟨fun blk sub w => ?scrub, fun q n => ?crc⟩
    case scrub =>
      intro n
      exact ⟨fun h r => act_eq_next hd (if_pos h), fun h => ⟨act_eq_next hd (if_neg h), act_eq_next hd (if_neg h), act_eq_next hd (if_neg h)⟩⟩
    case crc =>
      intro c put
      refine ⟨fun hadm => ?_, fun v hadm => ?_, fun hi hadm => ?_⟩
      · have hgo : cvStart q n d = d.cvPut q n.val .start := access_admitted hadm
        exact ⟨act_eq_next hd hgo, fun h => act_eq_next hd (hgo.trans (cvPut_start h))⟩
      · have hgo : cvData q n v d = d.cvPut q n.val (.feed v) := access_admitted hadm
        exact ⟨act_eq_next hd hgo, fun h => act_eq_next hd (hgo.trans (cvPut_feed h))⟩
      · have hgo : cvStateWrite q n hi d = d.cvPut q n.val (.stateHi hi) := access_admitted hadm
        exact ⟨act_eq_next hd hgo, fun h => act_eq_next hd (hgo.trans (cvPut_stateHi h))⟩

end Sys2Proof.Machine
end

section
/-! PROOFS. The lanes, the Ethernet ports and the Range link (chapter 9): each command by the cases of its meaning. -/

namespace Sys2Proof.Machine

/-! ### What leaving the Range link keeps -/

section
variable {d : Device}

@[simp] theorem onLane_regs (n : Nat) (f : Lane → Lane) : (d.onLane n f).regs = d.regs := rfl
@[simp] theorem settle_regs (k : Nat) : (d.settle k).regs = d.regs := rfl

/-- What each step of a run keeps, the run keeps. -/
theorem foldl_keeps {α β : Type} {g : Device → β} {f : Device → α → Device} (hf : ∀ d a, g (f d a) = g d) (l : List α) (d : Device) :
    g (l.foldl f d) = g d := by
  induction l generalizing d with
  | nil => rfl
  | cons a l ih => rw [List.foldl_cons, ih, hf]

@[simp] theorem settleRng_regs : d.settleRng.regs = d.regs := foldl_keeps (g := Device.regs) (fun _ n => settle_regs (pqKey portRng n)) _ d

@[simp] theorem onEgress_regs (p : Nat) (f : Egress → Egress) : (d.onEgress p f).regs = d.regs := rfl
@[simp] theorem onRef_regs (x : RefDom) (f : RefDomain → RefDomain) : (d.onRef x f).regs = d.regs := by cases x <;> rfl

@[simp] theorem spillUpdate_regs : d.spillUpdate.regs = d.regs := by
  unfold Device.spillUpdate
  dsimp only
  split <;> simp

@[simp] theorem freeCells_regs (x : QPkt) : (d.freeCells x).regs = d.regs := by simp [Device.freeCells]

@[simp] theorem refEnter_regs (x : RefDom) (st : DomSt) : (d.refEnter x st).regs = d.regs := by
  unfold Device.refEnter
  dsimp only
  split <;> simp

@[simp] theorem noteLocked_regs : d.noteLocked.regs = d.regs := by
  unfold Device.noteLocked
  split
  · split <;> simp
  · rfl

@[simp] theorem reselect_regs (revert : Bool) : (d.reselect revert).regs = d.regs := by
  unfold Device.reselect
  dsimp only
  split <;> split <;> simp

@[simp] theorem refLoss_regs (x : RefDom) : (d.refLoss x).regs = d.regs := by
  unfold Device.refLoss
  split <;> simp

@[simp] theorem rngLeave_regs : d.rngLeave.regs = d.regs := by
  unfold Device.rngLeave
  dsimp only
  split
  · rfl
  · rw [raise_regs, foldl_keeps (g := Device.regs) fun d x => by split <;> simp]
    split <;> simp

@[simp] theorem rngRate_regs (rate : Nat) : (d.rngRate rate).regs = d.regs := by
  unfold Device.rngRate
  dsimp only
  split <;> split <;> simp

@[simp] theorem rngOff_regs : d.rngOff.regs = d.regs := by
  simp [Device.rngOff, Device.rngTaps0, Device.rngTaps]

end

theorem laneTest_of_regs {d d' : Device} (h : d'.regs = d.regs) (n : Nat) : d'.laneTest n = d.laneTest n := by
  simp [Device.laneTest, Device.cf, Device.cfg, h]

/-- What is shown depends on the effect on this device alone. -/
theorem shown_congr {d : Device} {f g : Device → Device} (h : f d = g d) : d.shown f = d.shown g := by
  simp only [Device.shown, h]

/-- What a write of a Range lane's test leaves, once a link that may not stand is OFF: the lane's rate, and the bring-up of a link
that is OFF with no test (R220). -/
def rangeLaneRated (n : Nat) (used : Bool) (d : Device) : Device :=
  let rated := d.onLane n fun l =>
    if d.laneTest n then l.setRate (d.testRate n) else if d.lanes.rng.st = 0 ∨ !used then l.setRate 0 else l
  if rated.lanes.rng.st = 0 ∧ rated.domSt 9 = 3 ∧ !rated.laneTest n then rated.bringStart else rated

theorem rangeLaneRated_of_test {n : Nat} {used : Bool} {d : Device} (h : d.laneTest n = true) :
    rangeLaneRated n used d = d.onLane n fun l => if d.laneTest n then l.setRate (d.testRate n) else l.setRate 0 := by
  have hkept : ∀ f, (d.onLane n f).laneTest n = true := fun f => h
  refine (if_neg (by simp [hkept])).trans ?_
  simp only [if_pos h]

/-! ### The Ethernet ports and the lane tests (R209, R211, R220, R221) -/

/-- Settles O37. -/
theorem ethernetAndLaneTests : Obligations.EthernetAndLaneTests := by
  refine ⟨fun s t e => ?ports, fun s t n => ?lanes⟩
  case ports =>
    intro d
    have hd : s.seen t = d := rfl
    clear_value d
    refine ⟨fun data h => act_eq_next hd (if_pos (by simpa using h)), fun data hst hup => ?receive, fun block hiBer lf rf =>
      ⟨fun h => act_eq_next hd (if_pos h), fun hst => ?link⟩⟩
    case receive =>
      intro body checked
      have hchecked : checked ↔ ¬ (data.length < 4 ∨ data.drop (data.length - 4) ≠ fcsBytes body) := by
        rw [not_or, Nat.not_lt, not_not]
      refine ⟨fun h => ?_, fun h hrunt => ?_, fun h hrunt hover => ?_, fun h hrunt hover hctl => ?_, fun h hrunt hover hctl h6 => ?_,
        fun h hrunt hover hctl h6 => ?_⟩
      all_goals refine act_eq_next hd ((if_neg (by simp [hst, hup])).trans ?_)
      · exact if_pos (by rwa [hchecked, not_not] at h)
      all_goals refine (if_neg (hchecked.mp h)).trans ?_
      · exact if_pos hrunt
      all_goals refine (if_neg (Nat.not_lt.mpr hrunt)).trans ?_
      · exact if_pos hover
      all_goals refine (if_neg (Nat.not_lt.mpr hover)).trans ?_
      · exact if_pos hctl
      all_goals refine (if_neg hctl).trans ?_
      · exact if_pos h6
      · exact if_neg h6
    case link =>
      refine ⟨block || d.freeVal % 2 == 1, block || d.freeVal / 2 % 2 == 1, by rintro rfl; exact ⟨rfl, rfl⟩, ?_⟩
      exact act_eq_next hd ((if_neg (not_not.mpr hst)).trans (shown_congr rfl))
  case lanes =>
    intro d
    have hd : s.seen t = d := rfl
    clear_value d
    refine ⟨fun v hadm => ?test, fun bits => ⟨fun h => act_eq_next hd (if_pos h), fun hchk hst => act_eq_next hd ?sync⟩⟩
    case test =>
      have hgo : laneTestWrite n v d = d.laneTestGo n.val v := keeperAccess_admitted hadm
      have hgen : BitVec.ofNat 31 (d.freeVal % 2147483647 + 1) ≠ 0 := by
        intro h
        have h : (BitVec.ofNat 31 (d.freeVal % 2147483647 + 1)).toNat = (0#31).toNat := congrArg BitVec.toNat h
        simp only [BitVec.toNat_ofNat] at h
        omega
      refine ⟨_, hgen, ?_⟩
      intro stored
      refine ⟨fun hn htest => ?_, fun hn htest => ?_, fun hn htest hrng hst => ?_⟩
      all_goals refine act_eq_next hd (hgo.trans (shown_congr ?_))
      · refine (if_pos hn).trans ((if_pos htest).trans ?_)
        exact congrArg (fun r => ((stored d).onLane n.val (Lane.setRate r)).setLink n.val false) (if_pos htest)
      · refine (if_pos hn).trans ((if_neg (Bool.eq_false_iff.mp htest)).trans ?_)
        exact congrArg (fun r => (stored d).onLane n.val (Lane.setRate r)) (if_neg (Bool.eq_false_iff.mp htest))
      · refine (if_neg (Nat.not_lt.mpr hn)).trans ?_
        have htest' : (stored d).rngLeave.rngOff.laneTest n.val = true :=
          (laneTest_of_regs ((rngOff_regs).trans rngLeave_regs) n.val).trans htest
        exact (congrArg (rangeLaneRated n.val _) (if_pos (.inl ⟨hrng, hst⟩))).trans (rangeLaneRated_of_test htest')
    case sync =>
      refine (if_neg (not_or.mpr ⟨hchk, not_not.mpr hst⟩)).trans ?_
      simp only [Bool.and_eq_true, bne_iff_ne]

/-! ### The Range link's bring-up (R214 to R219) -/

/-- Settles O38. -/
theorem rangeBringUp : Obligations.RangeBringUp := by
  intro s t d r
  have hd : s.seen t = d := rfl
  clear_value d
  refine ⟨fun hst h0 => act_eq_next hd (if_pos ⟨hst, h0⟩), fun h => act_eq_next hd (if_neg (by simpa [imp_iff_not_or] using h)),
    ⟨fun h => act_eq_next hd (if_pos h), fun h => act_eq_next hd (if_neg h)⟩, fun hst hdue => act_eq_next hd (if_pos ⟨hst, hdue⟩),
    fun h => act_eq_next hd (if_neg (by simpa [imp_iff_not_or] using h)),
    fun b6 h6 b7 h7 => ⟨fun h => act_eq_next hd (if_pos h), fun hst => ?lost⟩,
    fun hadm => act_eq_next hd ((keeperAccess_admitted hadm).trans (shown_congr ?retrain)), fun e6 e7 => ?check, fun hnone => act_eq_next hd ?_,
    fun u hu h => act_eq_next hd ?_, fun u hu hst hdue hstep => ?result⟩
  case lost =>
    intro seen lost
    have hgo : rngLinkDown b6 h6 b7 h7 d = if (seen.lanes.rng.lane6 && seen.laneLost 6) || (seen.lanes.rng.lane7 && seen.laneLost 7)
        then seen.shown Device.rngDown else seen := if_neg (not_not.mpr hst)
    exact ⟨fun h _ => act_eq_next hd (hgo.trans (if_pos (by simpa [lost] using h))),
      fun h => act_eq_next hd (hgo.trans (if_neg (by simpa [lost] using h)))⟩
  case retrain =>
    by_cases h : d.lanes.rng.st = 2
    · simp only [Device.retrain, Device.rngDown, if_pos h]
    · simp only [Device.retrain, if_neg h]
  case check =>
    refine ⟨fun h => act_eq_next hd (if_pos (h.imp_right (Or.imp_right fun hnone => ?none))), fun u hu hearly => act_eq_next hd (if_pos (.inr (.inr ?early))),
      fun u hst hopen hu hdue => ?due⟩
    case none => simp only [show d.lanes.rng.checkDue = none from hnone, Bool.not_false]
    case early => simp [show d.lanes.rng.checkDue = some u from hu, hearly]
    case due =>
      intro counted bad6 bad7
      refine ⟨fun hstep => ?_, fun hstep => ?_⟩
      all_goals
        refine act_eq_next hd ((if_neg ?_).trans (shown_congr ?_))
        · have hst : d.lanes.rng.st = 1 := hst
          have hopen : d.lanes.rng.checkedAt = none := hopen
          have hu : d.lanes.rng.checkDue = some u := hu
          simp [hst, hopen, hu, hdue]
      · exact if_neg hstep
      · exact if_pos hstep
  · have hnone : d.lanes.rng.checkedAt = none := hnone
    simp only [rngStepResult, hnone]
  · have hu : d.lanes.rng.checkedAt = some u := hu
    simp only [rngStepResult, hu]
    exact if_pos h
  case result =>
    have hu : d.lanes.rng.checkedAt = some u := hu
    refine ⟨fun hc hp => act_eq_next hd ?_, fun h => act_eq_next hd ?_⟩
    all_goals
      simp only [rngStepResult, hu]
      refine (if_neg (not_or.mpr ⟨not_not.mpr hst, Nat.not_lt.mpr hdue⟩)).trans (shown_congr ((if_neg hstep).trans ?_))
    · exact if_pos ⟨hc, hp⟩
    · exact if_neg fun ⟨hc, hp⟩ => h.elim (Bool.eq_false_iff.mp · hc) (· hp)

/-! ### The Range link's frames (R214, R216, R218, R219, R301, R304) -/

/-- Settles O39. -/
theorem rangeFrames : Obligations.RangeFrames := by
  intro s t d r
  have hd : s.seen t = d := rfl
  clear_value d
  refine ⟨fun data => ?receive, ⟨fun h => act_eq_next hd (if_pos ?_), fun h => act_eq_next hd (if_neg ?_)⟩, fun h => act_eq_next hd ?noKeep,
    fun k hdue hk hst => act_eq_next hd ?keep, fun ch => ⟨fun h => act_eq_next hd (if_pos (by simpa [or_assoc] using h)),
      fun hopen hun hdue => act_eq_next hd (if_neg (by simpa [hopen, hun] using hdue))⟩, fun h => act_eq_next hd (if_pos (or_assoc.mp (.inl h))),
    fun u hu hearly => act_eq_next hd (if_pos (.inr (.inr ?early))), fun hst hup hdue => act_eq_next hd (if_neg ?due)⟩
  case receive =>
    intro n p ty ch ack bad
    have hgo : d.domSt 9 = 3 → r.st ≠ 0 → r.st ≠ 3 → ¬ bad → rngFrameRx data d =
        if r.st = 1 then
          (if ty = rtTrain then (match Config.trainDecode p with
            | some m => d.trainRx m
            | none => d) else d)
        else if ty = rtTrain then
          (if r.closing then d.onRng fun r => { r with closing := false } else d.shown Device.rngDown)
        else if ty = rtData then
          (if ch < 8 then (d.ackTake ch ack).ingressPush (Pkt.fresh portRng p) else d)
        else if ty = rtMirror then d.mirrorRx ch (fieldAt data 4 4) ack p
        else if ty = rtTime then (d.ackTake ch ack).timeRx p
        else if ty = rtKeep then d.keepFrame ch ack p
        else d := fun h9 h0 h3 hb =>
      (if_neg (not_or.mpr ⟨not_not.mpr h9, not_or.mpr ⟨h0, h3⟩⟩)).trans (if_neg hb)
    refine ⟨fun h => act_eq_next hd (if_pos h), fun h9 h0 h3 hb => act_eq_next hd ((if_neg ?_).trans (if_pos hb)), fun h9 h1 hb => ?train,
      fun h9 h2 hb => ?up⟩
    · exact not_or.mpr ⟨not_not.mpr h9, not_or.mpr ⟨h0, h3⟩⟩
    case train =>
      replace hgo := (hgo h9 (by simp [h1]) (by simp [h1]) hb).trans (if_pos h1)
      refine ⟨fun h => act_eq_next hd (hgo.trans ?_), fun m hty hm => act_eq_next hd (hgo.trans ((if_pos hty).trans ?_))⟩
      · obtain h | h := h
        · exact if_neg h
        · simp only [h, ite_self]
      · simp only [hm]
    case up =>
      replace hgo := (hgo h9 (by simp [h2]) (by simp [h2]) hb).trans (if_neg (by simp [h2]))
      refine ⟨fun hty hc => ?_, fun hty hc => ?_, fun hty hch => ?_, fun hty hch => ?_, fun hty => ?_, fun hty => ?_, fun hty => ?_⟩
      all_goals refine act_eq_next hd (hgo.trans ?_)
      · exact (if_pos hty).trans (if_neg (Bool.eq_false_iff.mp hc))
      · exact (if_pos hty).trans (if_pos hc)
      all_goals refine (if_neg (by rw [hty]; decide)).trans ?_
      · exact (if_pos hty).trans (if_pos hch)
      · exact (if_pos hty).trans (if_neg (Nat.not_lt.mpr hch))
      all_goals refine (if_neg (by rw [hty]; decide)).trans ?_
      · exact if_pos hty
      all_goals refine (if_neg (by rw [hty]; decide)).trans ?_
      · exact if_pos hty
      all_goals refine (if_neg (by rw [hty]; decide)).trans ?_
      · exact if_pos hty
  · simpa using h
  · simpa using h
  case noKeep =>
    obtain h | h | h := h
    · exact if_neg (Nat.not_le.mpr h)
    · exact (ite_congr rfl (fun _ => by simp only [Device.keepSend, h]) fun _ => rfl).trans (ite_self _)
    · refine (ite_congr rfl (fun _ => ?_) fun _ => rfl).trans (ite_self _)
      unfold Device.keepSend
      split
      · rfl
      · exact if_neg h
  case keep =>
    refine (if_pos hdue).trans ?_
    simp only [Device.keepSend, hk]
    exact if_pos hst
  case early => simp [show d.lanes.rng.lastTime = some u from hu, hearly]
  case due =>
    obtain hnone | ⟨u, hu, hdue⟩ := hdue
    · simp [show d.lanes.rng.lastTime = none from hnone, show d.lanes.rng.st = 2 from hst, hup]
    · simp [show d.lanes.rng.lastTime = some u from hu, show d.lanes.rng.st = 2 from hst, hup, hdue]

end Sys2Proof.Machine
end

section
/-! PROOFS. Rule-set generations, the port scheduler, the gates and the meters (chapters 7 and 8): each command by the cases of its
meaning. -/

namespace Sys2Proof.Machine

/-- Settles O34. -/
theorem generationCommits : Obligations.GenerationCommits := by
  intro s t d advanced
  have hd : s.seen t = d := rfl
  clear_value d
  refine ⟨fun hadm => ?commit, fun hw hfree => act_eq_next hd (if_pos (by simp [hw, hfree])),
    fun h => act_eq_next hd (if_neg (by simpa [imp_iff_not_or] using h)), fun hnone => act_eq_next hd ?_, fun w hw hearly => act_eq_next hd ?_,
    fun w hw hdue => ?drain⟩
  case commit =>
    have hgo : genCommit d = d.genCommitReq := keeperAccess_admitted hadm
    refine ⟨fun hw => act_eq_next hd (hgo.trans (if_pos hw)), fun hw hr => act_eq_next hd (hgo.trans ((if_neg (by simp [hw])).trans (if_pos hr))),
      fun hw hr => act_eq_next hd (hgo.trans ((if_neg (by simp [hw])).trans (if_neg (Bool.eq_false_iff.mp hr))))⟩
  · simp only [genDrainTimeout, hnone]
  · simp only [genDrainTimeout, hw]
    exact if_pos hearly
  case drain =>
    intro g n kept
    have hgo : genDrainTimeout d = Device.genAdvance (if n = 0 then kept
        else ((kept.addCnt (Reg.PKT_DROP_CNT 7) n 0xFFFFFFFF).addCnt Reg.PKT_GEN_DROP_CNT n 0xFFFFFFFF).raise 146 0) := by
      simp only [genDrainTimeout, hw]
      exact if_neg (Nat.not_lt.mpr hdue)
    exact ⟨fun h => act_eq_next hd (hgo.trans (congrArg Device.genAdvance (if_pos h))),
      fun h => act_eq_next hd (hgo.trans (congrArg Device.genAdvance (if_neg h)))⟩

/-- A frame for an Ethernet port is padded to the least length and goes out with its FCS, counted (R196). -/
theorem deliver_eth {d : Device} {c n : Nat} {x : QPkt} (h : c < 9) :
    d.deliver c n x = (d.emit (.eth (c - 3) (x.data ++ zeros (60 - x.data.length) ++ fcsBytes (x.data ++ zeros (60 - x.data.length))))).inc
      (Reg.LANE_ETH_TX_OK_CNT (c - 3)) := if_pos h

/-- A port of which no queue may go sends nothing (R197). -/
theorem portSelect_of_none {d : Device} {p : Fin 9}
    (h : [7, 6, 5, 4, 3, 2, 1, 0].find? ((d.sweepOversize (p.val + 3)).mayGo (p.val + 3)) = none) :
    portSelect p d = d.sweepOversize (p.val + 3) := by
  refine (ite_congr rfl (fun _ => rfl) fun _ => ?_).trans (ite_self _)
  simp only [h]

/-- The head of the highest queue that may go is put into transmission (R197, R199). -/
theorem portSelect_of_head {d : Device} {p : Fin 9} {n : Nat} {x : QPkt} {r : List QPkt}
    (hidle : ((d.sweepOversize (p.val + 3)).egressOf (p.val + 3)).busy = none) (hup : (d.sweepOversize (p.val + 3)).portUp (p.val + 3) = true)
    (hfirst : [7, 6, 5, 4, 3, 2, 1, 0].find? ((d.sweepOversize (p.val + 3)).mayGo (p.val + 3)) = some n)
    (hq : ((d.sweepOversize (p.val + 3)).queue (pqKey (p.val + 3) n)).pkts = x :: r) :
    portSelect p d =
      let taken := ((d.sweepOversize (p.val + 3)).settle (pqKey (p.val + 3) n)).onQueue (pqKey (p.val + 3) n) fun q => { q with pkts := r }
      (((taken.onEgress (p.val + 3) fun _ => ⟨some (n, x), taken.clk.now⟩).frameStart (p.val + 3) x).headCheck (pqKey (p.val + 3) n)).tailRetry
        (pqKey (p.val + 3) n) := by
  refine (if_neg (by simp [hidle, hup])).trans ?_
  simp only [hfirst, hq]

/-- Settles O35. -/
theorem portScheduling : Obligations.PortScheduling := by
  intro s t p d c
  have hd : s.seen t = d := rfl
  clear_value d
  refine ⟨?select, fun hidle => act_eq_next hd ?_, fun n x hbusy hearly => act_eq_next hd ?_, fun n x hbusy hdue => ?finish⟩
  case select =>
    intro now first
    refine ⟨fun h => act_eq_next hd ?_, fun n x r hidle hup hfirst hq => act_eq_next hd ?_⟩
    · rw [← or_assoc] at h
      obtain h | h := h
      · exact if_pos (by simpa using h)
      · exact portSelect_of_none h
    · exact portSelect_of_head hidle hup hfirst hq
  · simp only [portFrameEnd, show (d.egressOf (p.val + 3)).busy = none from hidle]
  · simp only [portFrameEnd, show (d.egressOf (p.val + 3)).busy = some (n, x) from hbusy]
    exact if_pos hearly
  case finish =>
    intro idle
    have hgo : portFrameEnd p d = (idle.deliver c n x).freeCells x := by
      simp only [portFrameEnd, show (d.egressOf (p.val + 3)).busy = some (n, x) from hbusy]
      exact if_neg (Nat.not_lt.mpr hdue)
    exact ⟨fun h => act_eq_next hd (hgo.trans (congrArg (Device.freeCells · x) (deliver_eth h))), fun _ => act_eq_next hd hgo⟩

/-- Settles O36. -/
theorem gatesAndMeters : Obligations.GatesAndMeters := by
  refine ⟨fun s t => ?gates, fun s t => ?meters⟩
  case gates =>
    intro d
    have hd : s.seen t = d := rfl
    clear_value d
    refine ⟨fun e => act_eq_next hd rfl, fun v hadm => ?data, fun e hadm => ?swap⟩
    case data =>
      have hgo : gateDataWrite v d = d.gateDataPut v := keeperAccess_admitted hadm
      refine ⟨fun h => act_eq_next hd (hgo.trans (if_pos h)), fun h ha => ?_, fun h ha => ?_⟩
      all_goals refine act_eq_next hd (hgo.trans ((if_neg (Nat.not_le.mpr h)).trans ?_))
      · exact if_pos ha
      · exact if_neg ha
    case swap =>
      have hgo : gateSwap e d = d.gateSwapReq e.val := keeperAccess_admitted hadm
      exact ⟨fun h => act_eq_next hd (hgo.trans (if_pos (by simpa using h))),
        fun hno hlen => act_eq_next hd (hgo.trans (if_neg (by simpa [hno] using hlen)))⟩
  case meters =>
    intro d hadm
    have hd : s.seen t = d := rfl
    clear_value d
    refine ⟨fun aware dp => ?write, act_eq_next hd (keeperAccess_admitted hadm)⟩
    case write =>
      intro m before put
      have hgo : meterWrite aware dp d = put (if (d.cycle.meters.find? fun x => x.1 == d.mtrSel).isSome then d else before) :=
        keeperAccess_admitted hadm
      exact ⟨fun h => act_eq_next hd (hgo.trans (congrArg put (if_neg (by simp [h])))),
        fun h => act_eq_next hd (hgo.trans (congrArg put (if_pos h)))⟩

end Sys2Proof.Machine
end

section
/-! PROOFS. The cipher's jobs, the reorder buffers, the epochs, the retained ring and association (chapters 4, 6 and 16): each
command by the cases of its meaning. -/

namespace Sys2Proof.Machine

/-! ### The seal of a frame that answers none (R155) -/

theorem sealEnd_of_plain {d : Device} {j : Job} {b : Band} {x : TxRun} (hreply : ∀ g, x.frame.kind ≠ .reply g)
    (hpoll : x.frame.kind ≠ .pollReply) :
    d.sealEnd j b x =
      let data := d.sealBytes b j.kMac j.kEnc x.frame.data
      let counted := match j.entry with
        | some e => d.keyCount e (frameCmacOps data + frameCtrOps data)
        | none => d
      let put (y : TxRun) : TxRun :=
        if y.frame.sealJob = some j.id then { y with frame := { y.frame with data := data, sealJob := none } } else y
      (counted.onRad b fun r => { r with tx := r.tx.map put, txNext := r.txNext.map put }).onCiph
        fun k => { k with jobs := k.jobs.filter fun x => x.id != j.id } := by
  cases hk : x.frame.kind with
  | reply g => exact absurd hk (hreply g)
  | pollReply => exact absurd hk hpoll
  | _ =>
    simp only [Device.sealEnd, hk, Bool.false_eq_true, false_and, if_false]
    rfl

/-- The end of a frame's seal, while the frame is still to be sent: one that answers none waits for nothing (R155). -/
theorem sealJobEnd_of_plain {d : Device} {id : Nat} {j : Job} {b : Band} {f : TxFrame} {x : TxRun}
    (hj : (d.ciph.jobs.find? fun j => j.id == id) = some j) (hseal : j.kind = .sealing b f) (hrun : (d.radio b).runOfJob id = some x)
    (hreply : ∀ g, x.frame.kind ≠ .reply g) (hpoll : x.frame.kind ≠ .pollReply) : sealJobEnd id d = d.sealEnd j b x := by
  cases hk : x.frame.kind with
  | reply g => exact absurd hk (hreply g)
  | pollReply => exact absurd hk hpoll
  | _ =>
    simp only [sealJobEnd, hj, hseal, hrun, hk, Bool.false_eq_true, false_and, if_false]

/-- A REPLY's tag waits for its acknowledgement (R155). -/
theorem sealJobEnd_of_reply {d : Device} {id : Nat} {j : Job} {b : Band} {f : TxFrame} {x : TxRun}
    (hj : (d.ciph.jobs.find? fun j => j.id == id) = some j) (hseal : j.kind = .sealing b f) (hrun : (d.radio b).runOfJob id = some x)
    (hreply : (∃ g, x.frame.kind = .reply g) ∨ x.frame.kind = .pollReply) :
    sealJobEnd id d = if d.clk.now < x.firstSym + qToHn (payloadQ b x.frame.cls) then d else d.sealEnd j b x := by
  obtain ⟨g, hk⟩ | hk := hreply
  · simp only [sealJobEnd, hj, hseal, hrun, hk, true_and]
  · simp only [sealJobEnd, hj, hseal, hrun, hk, true_and]

/-- Settles O25. -/
theorem cipherJobs : Obligations.CipherJobs := by
  refine ⟨fun s t => ?jobs, fun s t => ?keys⟩
  case jobs =>
    intro d
    have hd : s.seen t = d := rfl
    clear_value d
    refine ⟨fun h => act_eq_next hd ?idle, fun j hopen hroom hj => ?begins, fun id hnone => ⟨act_eq_next hd ?_, act_eq_next hd ?_⟩,
      fun id j f hj hk => act_eq_next hd ?check, fun id j b f hj hk => ?sealing⟩
    case idle =>
      rw [← or_assoc] at h
      obtain h | h := h
      · exact if_pos (by simpa using h)
      · refine (ite_congr rfl (fun _ => rfl) fun _ => ?_).trans (ite_self _)
        simp only [h]
    case begins =>
      intro taken started
      have hgo : jobAdmit d = match j.kind with
          | .sealing b f => taken.admitSeal j b f
          | _ => taken.jobStart j := by
        refine (if_neg (by simp [hopen, hroom])).trans ?_
        simp only [hj] <;> rfl
      refine ⟨fun hk => ?_, fun b f hk => ?_, fun b f hk hrun hentry => ?_⟩
      all_goals refine act_eq_next hd (hgo.trans ?_)
      · split
        · exact absurd ‹_› (hk _ _)
        · rfl
      · rw [hk]
      · rw [hk]
        show taken.admitSeal j b f = _
        unfold Device.admitSeal
        rw [hrun, hentry]
        exact if_pos rfl
    · simp only [checkJobEnd, hnone]
    · simp only [sealJobEnd, hnone]
    case check =>
      simp only [checkJobEnd, hj, hk]
      rfl
    case sealing =>
      refine ⟨fun hrun => act_eq_next hd ?_, fun x hrun hreply hpoll => act_eq_next hd ?_, fun x hrun hreply =>
        ⟨fun hearly => act_eq_next hd ?_, fun hdue => act_eq_next hd ?_⟩⟩
      · simp only [sealJobEnd, hj, hk, hrun]
        rfl
      · exact (sealJobEnd_of_plain hj hk hrun hreply hpoll).trans (sealEnd_of_plain hreply hpoll)
      · exact (sealJobEnd_of_reply hj hk hrun hreply).trans (if_pos hearly)
      · exact (sealJobEnd_of_reply hj hk hrun hreply).trans (if_neg (Nat.not_lt.mpr hdue))
  case keys =>
    intro d
    have hd : s.seen t = d := rfl
    clear_value d
    refine ⟨fun v hadm => ?cmd, fun hnone => act_eq_next hd ?_, fun j c sl e why hj hk => ?derive⟩
    case cmd =>
      have hgo : kdfCmd v d = if bitOf v 31 then d.kdfGo (fld v 28 16) (fld v 30 30) (fld v 15 0) .command else d :=
        keeperAccess_admitted hadm
      refine ⟨fun h => ?_, fun h hst => ?_, fun h hcur hret => ?_⟩
      all_goals refine act_eq_next hd (hgo.trans ?_)
      · exact if_neg (Bool.eq_false_iff.mp h)
      · exact (if_pos h).trans (if_pos hst)
      · exact (if_pos h).trans (if_neg (not_or.mpr ⟨hcur, hret⟩))
    · simp only [kdfJobEnd, hnone]
    case derive =>
      intro freed more left
      have hgo : kdfJobEnd d = if (left.client c).assoc then
          match left.rootOf (left.client c).serial with
          | some r => ((left.deriveInto c sl e r (left.derivedState c sl)).derived c sl e why).mirrorKeySlot c sl
          | none => left.kdfFail
        else left.kdfFail := by
        simp only [kdfJobEnd, hj, hk] <;> rfl
      refine ⟨fun r ha hr => ?_, fun h => ?_⟩
      all_goals refine act_eq_next hd (hgo.trans ?_)
      · refine (if_pos ha).trans ?_
        rw [hr]
      · obtain h | h := h
        · exact if_neg (Bool.eq_false_iff.mp h)
        · refine (ite_congr rfl (fun _ => ?_) fun _ => rfl).trans (ite_self _)
          rw [h]

/-! ### The reorder buffers, the epochs and the retained ring (R106, R157, R163) -/

/-- Settles O26. -/
theorem reorderEpochAndRing : Obligations.ReorderEpochAndRing := by
  intro s t d
  have hd : s.seen t = d := rfl
  clear_value d
  refine ⟨fun c => ?skip, fun c sl hup hopen hst hsl => ?epoch, fun c h => act_eq_next hd ?_, fun h7 hun hw => act_eq_next hd (if_neg ?_),
    fun h => act_eq_next hd (if_pos h)⟩
  case skip =>
    refine ⟨fun hnone => act_eq_next hd ?_, fun x rest hheld hearly => act_eq_next hd ?_, fun x rest i hheld hdue hi => act_eq_next hd ?_⟩
    · simp only [reorderSkipCmd, hnone]
    · simp only [reorderSkipCmd, hheld]
      exact if_neg (Nat.not_le.mpr hearly)
    · have hgo : reorderSkipCmd c d = d.reorderSkip c.val := by
        simp only [reorderSkipCmd, hheld]
        exact if_pos hdue
      refine hgo.trans ?_
      simp only [Device.reorderSkip, hi]
  case epoch =>
    intro e
    have hgo : keyServiceEpoch c d =
        if (d.key c.val sl).announced ∧ (d.key c.val (1 - sl)).st = .empty ∧ (d.client c.val).assoc ∧ !d.deriving_ c.val then
          d.kdfGo c.val (1 - sl) e .epoch
        else d := by
      refine (if_neg (by simp [hup, hopen, hst])).trans ?_
      simp only [hsl]
      rfl
    refine ⟨fun hann hempty hassoc hno => act_eq_next hd (hgo.trans ((if_pos ⟨hann, hempty, hassoc, by simp [hno]⟩).trans ?_)),
      fun h => act_eq_next hd (hgo.trans (if_neg (by simpa [imp_iff_not_or, or_assoc] using h)))⟩
    exact if_neg (by simp [hempty])
  · rw [← or_assoc, ← or_assoc] at h
    obtain h | h := h
    · exact if_pos (by simpa using h)
    · refine (ite_congr rfl (fun _ => rfl) fun _ => ?_).trans (ite_self _)
      simp only [h]
  · simp [h7, hun, hw]

/-! ### Association (R336) -/

/-- Settles O27. -/
theorem associationAnswers : Obligations.AssociationAnswers := by
  intro s t d
  have hd : s.seen t = d := rfl
  clear_value d
  refine ⟨fun h => act_eq_next hd ?_, fun a rest hreqs hup hopen => ?answer⟩
  · unfold assocAnswer
    split
    · rfl
    · next hreqs => exact if_pos (by simpa [hreqs] using h)
  case answer =>
    intro taken
    have hgo : assocAnswer d = match taken.rootOf a.serial with
        | none => (taken.deny a 2).raise 174 0
        | some _ => match taken.lant.clients.find? fun x => x.2.assoc && x.2.serial == a.serial with
          | some (c, _) => taken.acceptAgain a c
          | none => taken.acceptNew a := by
      simp only [assocAnswer, hreqs]
      exact if_neg (by simp [hup, hopen])
    refine ⟨fun hroot => ?_, fun root x hroot hx => ?_, fun root hroot hx => ?_⟩
    all_goals refine act_eq_next hd (hgo.trans ?_)
    · rw [hroot]
    · simp only [hroot, hx]
    · simp only [hroot, hx]

end Sys2Proof.Machine
end

section
/-! PROOFS. The Lantern's superframes, plans and profiles, the Bell and the parent (chapters 4 and 5): each command by the cases of
its meaning. -/

namespace Sys2Proof.Machine

/-! ### The superframe boundary (R81, R88, R93, R111, R163) -/

/-- Settles O28. -/
theorem superframeBoundaries : Obligations.SuperframeBoundaries := by
  intro s t d n
  have hd : s.seen t = d := rfl
  clear_value d
  refine ⟨fun hrun hup hnew => ?enter, fun h => act_eq_next hd (if_pos (by simpa [or_assoc] using h))⟩
  case enter =>
    intro entered changed begun keyed planned
    have happly : d.boundaryApply n = keyed := by
      refine ite_congr (propext ?_) (fun _ => rfl) fun _ => rfl
      exact or_congr Iff.rfl (and_congr Iff.rfl (by rw [Bool.not_eq_true']))
    have hgo : superframeBoundary d = (((((d.boundaryApply n).boundaryPlan n).boundaryRest n).reapClients).ringTake).bodiesPut n :=
      if_neg (by simpa [hrun, hup] using hnew)
    exact act_eq_next hd (hgo.trans (congrArg (fun e : Device => ((((e.boundaryPlan n).boundaryRest n).reapClients).ringTake).bodiesPut n) happly))

/-! ### Plans and profiles (R88, R93, R107, R111, R114) -/

/-- Settles O29. -/
theorem plansAndProfiles : Obligations.PlansAndProfiles := by
  refine ⟨fun s t => ?plans, fun s t => ?profiles⟩
  case plans =>
    intro d
    have hd : s.seen t = d := rfl
    clear_value d
    refine ⟨fun b v hadm => act_eq_next hd (keeperAccess_admitted hadm), fun k hadm => ?commit⟩
    case commit =>
      intro n at_
      have hgo : planCommit k d = d.planGo k.toNat := keeperAccess_admitted hadm
      refine ⟨fun h => act_eq_next hd (hgo.trans ?_), fun h => act_eq_next hd (hgo.trans ?_)⟩
      · have h : decide ((d.lampSf + max 1 k.toNat) * sfLen < d.lampHn + 2 * msec) = false := decide_eq_false (Nat.not_lt.mpr h)
        simp only [Device.planGo, h]
        rfl
      · have h : decide ((d.lampSf + max 1 k.toNat) * sfLen < d.lampHn + 2 * msec) = true := decide_eq_true h
        simp only [Device.planGo, h]
        rfl
  case profiles =>
    intro d kept
    have hd : s.seen t = d := rfl
    clear_value d
    refine ⟨act_eq_next hd rfl, fun hadm => ⟨fun p c href => ?_, fun p c hok => ?announce, fun x hx h1 hbefore => ?_, fun x hx h => ?_,
      fun hnone => ?_⟩⟩
    · exact act_eq_next hd ((keeperAccess_admitted hadm).trans (if_pos href))
    case announce =>
      intro n told
      have hgo : profileSwitchGo p c d = if d.mirrors then told.control (.profile p.val n) else told :=
        (keeperAccess_admitted hadm).trans (if_neg (Bool.eq_false_iff.mp hok))
      exact ⟨fun h => act_eq_next hd (hgo.trans (if_neg (Bool.eq_false_iff.mp h))), fun h => act_eq_next hd (hgo.trans (if_pos h))⟩
    all_goals
      refine act_eq_next hd ((keeperAccess_admitted hadm).trans ?_)
    · simp only [hx]
      exact if_pos ⟨h1, hbefore⟩
    · simp only [hx]
      exact if_neg fun ⟨h1, hbefore⟩ => h.elim (· h1) (Nat.not_le.mpr hbefore)
    · simp only [hnone]

/-! ### The Bell and the parent (R134, R135, R137) -/

/-- Settles O30. -/
theorem bellAndParent : Obligations.BellAndParent := by
  intro s t d deaf
  have hd : s.seen t = d := rfl
  clear_value d
  refine ⟨fun code h => act_eq_next hd ?_, fun code i hp hdeaf hhit => ?hit, ⟨fun h => act_eq_next hd (if_pos ?_), fun h => ?follows⟩⟩
  · rw [← or_assoc] at h
    obtain h | h := h
    · exact bellMatch_of_deaf h
    · exact bellMatch_of_miss h
  case hit =>
    intro stored told
    have hgo : bellMatch code d = if told.cb Reg.MOOR_BELL_CTRL (16 + i) then told.latchSet 3 else told :=
      bellMatch_of_hit (not_or.mpr ⟨by simp [hp], hdeaf⟩) hhit
    refine ⟨fun hw => ?_, fun hw hst => ?_, fun hw hst => ?_⟩
    all_goals refine act_eq_next hd (hgo.trans ?_)
    · exact if_neg (Bool.eq_false_iff.mp hw)
    · exact (if_pos hw).trans (if_pos hst)
    · exact (if_pos hw).trans (if_neg hst)
  · simpa [imp_iff_not_or, or_assoc] using h
  case follows =>
    intro rel watched
    have hgo : parentWindowClose d = if watched.lant.eclipseFlag then watched else
        let m := if watched.parentBand .m && !rel.heardM && !rel.lostM then watched.bandMissed .m else watched
        let h := if m.parentBand .h && !rel.heardH && !rel.lostH then m.bandMissed .h else m
        if rel.heard || rel.lostM || rel.lostH then h else h.parentMissed := if_neg (by simpa [imp_iff_not_or, and_assoc] using h)
    refine ⟨fun he => ?_, fun he hm hh hheard => ?_, fun he => ?_⟩
    all_goals refine act_eq_next hd (hgo.trans ?_)
    · exact if_pos he
    · refine (if_neg (Bool.eq_false_iff.mp he)).trans ?_
      simp [hm, hh, hheard]
    · refine (if_neg (Bool.eq_false_iff.mp he)).trans ?_
      simp only [Bool.or_eq_true, Bool.and_eq_true, Bool.not_eq_true', and_assoc, or_assoc]

end Sys2Proof.Machine
end

section
/-! PROOFS. Reception (chapter 3): each command, after what the instant brings to the radio (`Device.rxSync`), by the cases of its
meaning. -/

namespace Sys2Proof.Machine

/-! ### Frame starts (R59, R68, R70 to R72) -/

/-- Settles O22. -/
theorem frameStarts : Obligations.FrameStarts := by
  refine ⟨fun s t b p => ?detect, fun s t b => ?search⟩
  case detect =>
    intro d r fresh
    refine ⟨fun h => act_eq_next rfl (if_pos (by simpa using h)), fun hr hs hc => ?seen⟩
    case seen =>
      have hpass : ¬ (!(r.receiving d.clk.now) || decide (d.clk.now < p.start ∨ p.corr < d.pdThreshold b)) = true := by
        simpa [hr, not_or] using ⟨hs, hc⟩
      have hgo : ∀ c, r.cur = some c → preambleDetect b p (s.seen t) =
          if ownStf b c p.start d.clk.now then d
          else if c.pwr + d.captureMargin b ≤ r.measured p.pwr ∧ !payloadEnded b c d.clk.now then
            ((((d.detSeen b p).rxResult b c 5).inc (Reg.RAD_CAPTURE_CNT b)).onRad b
              fun r => { r with cur := some fresh, cand := none }).settleGain b p.pwr
          else if !c.hdrOk && (r.cand.all fun k => decide (k.pwr < p.pwr)) then
            (d.detSeen b p).onRad b fun r => { r with cand := some fresh }
          else d.detSeen b p := fun c hcur => by
        refine (if_neg hpass).trans ?_
        have hcur : (((s.seen t).rxSync b).radio b).cur = some c := hcur
        simp only [hcur]
        rfl
      refine ⟨fun hcur => ?_, fun c hcur hown => ?_, fun c hcur hown hcap hend => ?_, fun c hcur hown hno hhdr hcand => ?_⟩
      · refine act_eq_next rfl ((if_neg hpass).trans ?_)
        have hcur : (((s.seen t).rxSync b).radio b).cur = none := hcur
        simp only [hcur]
        rfl
      all_goals refine act_eq_next rfl ((hgo c hcur).trans ?_)
      · exact if_pos hown
      all_goals refine (if_neg (Bool.eq_false_iff.mp hown)).trans ?_
      · exact if_pos ⟨hcap, by simp [hend]⟩
      · refine (if_neg fun ⟨hcap, hend⟩ => ?_).trans (if_pos (by simp [hhdr, hcand]))
        exact hno.elim (Int.not_lt.mpr hcap) (by simpa using hend)
  case search =>
    intro d r
    refine ⟨fun hcur => act_eq_next rfl ?_, fun c hcur h => act_eq_next rfl ?_, fun c hcur hsync hdue => act_eq_next rfl ?_, fun sync soft => ?header⟩
    · simp only [syncSearchTimeout, show (((s.seen t).rxSync b).radio b).cur = none from hcur]
      rfl
    · simp only [syncSearchTimeout, show (((s.seen t).rxSync b).radio b).cur = some c from hcur]
      exact if_pos h
    · simp only [syncSearchTimeout, show (((s.seen t).rxSync b).radio b).cur = some c from hcur]
      exact if_neg (not_or.mpr ⟨by simp [hsync], Nat.not_lt.mpr hdue⟩)
    case header =>
      have hgo : ∀ c, r.cur = some c → headerReceived b sync soft (s.seen t) =
          if c.sync.isSome then d
          else if syncLimit b c < sync then d.headerFail b c 1
          else
            let bits := hdrWord soft d.freeVal
            let heard := d.freeNext.upHeard b c sync
            let found : RxDet := { c with sync := some sync }
            if !hdrOk bits then heard.headerFail b found 2
            else if hdrInvalid b c.cls bits then ((heard.rxResult b { found with hdrOk := true, hdr := bits } 3).rxIdle b).winsOver b
            else heard.onRad b fun r => { r with cur := some { found with
              hdrOk := true, hdr := bits, eq := some (heard.eqRun b)
              cwTotal := (cwPlan b (hdrLength bits) (codeIndex b (hdrRate bits))).cws.length } } := fun c hcur => by
        simp only [headerReceived, show (((s.seen t).rxSync b).radio b).cur = some c from hcur]
        rfl
      refine ⟨fun hcur => act_eq_next rfl ?_, fun c hcur hsync => ?_, fun c hcur hsync hlate => ?_, fun c hcur hsync hin => ?_⟩
      · simp only [headerReceived, show (((s.seen t).rxSync b).radio b).cur = none from hcur]
        rfl
      · exact act_eq_next rfl ((hgo c hcur).trans (if_pos hsync))
      · exact act_eq_next rfl ((hgo c hcur).trans ((if_neg (by simp [hsync])).trans (if_pos hlate)))
      · intro bits heard found
        refine ⟨fun hok => ?_, fun hok hinv => ?_, fun hok hinv => ?_⟩
        all_goals refine act_eq_next rfl ((hgo c hcur).trans ((if_neg (by simp [hsync])).trans ((if_neg (Nat.not_lt.mpr hin)).trans ?_)))
        · exact if_pos (by simp [bits, hok])
        · exact (if_neg (by simpa [bits] using hok)).trans (if_pos hinv)
        · exact (if_neg (by simpa [bits] using hok)).trans (if_neg (Bool.eq_false_iff.mp hinv))

/-! ### Codewords (R66, R67) -/

/-- Settles O23. -/
theorem codewords : Obligations.Codewords := by
  intro s t b d r
  refine ⟨fun soft layers => ⟨fun hcur => act_eq_next rfl ?_, fun c hcur h => act_eq_next rfl ?_, fun c hcur hhdr hmore => ?ready⟩,
    fun h => act_eq_next rfl ?_, fun c x rest hcur hfl => act_eq_next rfl ?decoded⟩
  · simp only [codewordReady, show (((s.seen t).rxSync b).radio b).cur = none from hcur]
    rfl
  · simp only [codewordReady, show (((s.seen t).rxSync b).radio b).cur = some c from hcur]
    exact if_pos (by simpa using h)
  case ready =>
    intro put
    have hgo : codewordReady b soft layers (s.seen t) = put (if flightLimit b ≤ r.flight.length then
        ((d.cwEnd b layers).inc (Reg.RAD_FORCED_STOP_CNT b)).raiseRad b 6 0 else d) := by
      simp only [codewordReady, show (((s.seen t).rxSync b).radio b).cur = some c from hcur]
      exact if_neg (not_or.mpr ⟨by simp [hhdr], Nat.not_le.mpr hmore⟩)
    exact ⟨fun h => act_eq_next rfl (hgo.trans (congrArg put (if_neg (Nat.not_le.mpr h)))),
      fun h => act_eq_next rfl (hgo.trans (congrArg put (if_pos h)))⟩
  · show Device.cwEnd ((s.seen t).rxSync b) b _ = d
    unfold Device.cwEnd
    split
    · next hfl hcur => exact h.elim (fun h => absurd (hcur.symm.trans h) (by simp)) fun h => absurd (hfl.symm.trans h) (by simp)
    · rfl
  case decoded =>
    show Device.cwEnd ((s.seen t).rxSync b) b _ = _
    simp only [Device.cwEnd, show (((s.seen t).rxSync b).radio b).cur = some c from hcur,
      show (((s.seen t).rxSync b).radio b).flight = x :: rest from hfl]
    rfl

/-! ### Received frames (R66, R73, R74, R77, R78) -/

/-- Settles O24. -/
theorem receivedFrames : Obligations.ReceivedFrames := by
  refine ⟨fun s t b => ?sesia, fun s t phr psdu fcsOk rssi sfd => ?narrow⟩
  case sesia =>
    intro d
    refine ⟨fun hcur => act_eq_next rfl ?_, fun c hcur => ?ends⟩
    · simp only [rxFrameEnd, show (((s.seen t).rxSync b).radio b).cur = none from hcur]
      rfl
    case ends =>
      intro f
      have hgo : rxFrameEnd b (s.seen t) = if !c.hdrOk ∨ c.cwDone < c.cwTotal then d else
          let ended := (d.rxResult b c (if c.cwFail == 0 then 0 else 4)).rxIdle b
          (if c.cwFail == 0 && ended.domSt 2 == 3 then ended.macRx f else ended).winsOver b := by
        simp only [rxFrameEnd, show (((s.seen t).rxSync b).radio b).cur = some c from hcur]
        rfl
      refine ⟨fun h => act_eq_next rfl (hgo.trans (if_pos (by simpa using h))), fun hh hall hok => ?_, fun hh hall hbad => ?_⟩
      all_goals replace hgo := hgo.trans (if_neg (not_or.mpr ⟨by simp [hh], Nat.not_lt.mpr hall⟩))
      · intro ended
        refine ⟨fun h2 => act_eq_next rfl (hgo.trans ?_), fun h2 => act_eq_next rfl (hgo.trans ?_)⟩
        · have h2 : ((d.rxResult b c 0).rxIdle b).domSt 2 = 3 := h2
          simp only [hok, beq_self_eq_true, if_true, Bool.true_and, h2]
          rfl
        · have h2 : (((d.rxResult b c 0).rxIdle b).domSt 2 == 3) = false := by simpa using h2
          simp only [hok, beq_self_eq_true, if_true, Bool.true_and, h2]
          rfl
      · have hbad : (c.cwFail == 0) = false := by simpa using hbad
        refine act_eq_next rfl (hgo.trans ?_)
        simp only [hbad, Bool.false_eq_true, if_false, Bool.false_and]
  case narrow =>
    intro d r cut
    have hcut : cut = match d.rad.m.detAt with
        | some u => decide (sfd ≤ u)
        | none => false := by
      show d.rad.m.detAt.any _ = _
      cases d.rad.m.detAt <;> rfl
    have hgo : frame154Rx phr psdu fcsOk rssi sfd (s.seen t) = if !d.listens154 || cut then d
        else if d.rad.m.cur.isSome || (!fcsOk && d.cb Reg.RADM_F154_CTRL 30) then d
        else if 64 ≤ d.rad.m.ring154.length then (d.inc Reg.RADM_F154_DROP_CNT).raise 103 0
        else (d.onRad .m fun r => { r with ring154 := r.ring154 ++
          [⟨phr, psdu, fcsOk, rssi, d.lampAt sfd - d.cf (Reg.RAD_FE_LAT .m) 15 0⟩] }).inc Reg.RADM_F154_RX_CNT := by
      rw [hcut]
      rfl
    refine ⟨fun h => act_eq_next rfl (hgo.trans ?_), fun hl hc hcur hfcs => ?_⟩
    · rw [← or_assoc] at h
      obtain h | h := h
      · exact if_pos (by simpa using h)
      · exact (ite_congr rfl (fun _ => rfl) fun _ => if_pos (by simpa [r] using h)).trans (ite_self _)
    · replace hgo := hgo.trans ((if_neg (by simp [hl, hc])).trans (if_neg (by
        rw [show d.rad.m.cur = none from hcur]
        simpa [imp_iff_not_or] using hfcs)))
      exact ⟨fun h => act_eq_next rfl (hgo.trans (if_pos h)), fun h => act_eq_next rfl (hgo.trans (if_neg (Nat.not_le.mpr h)))⟩

end Sys2Proof.Machine
end

section
/-! PROOFS. The radio front end's commands and transitions (chapter 2): each command by the cases of its meaning. -/

namespace Sys2Proof.Machine

/-! ### Transmissions (R29, R39, R79, R86) -/

/-- A regular beacon that the gates, the plan and the duty windows let pass (R86). -/
theorem txBeacon_of_admitted {d : Device} {b : Band} {ret : BitVec 3} (hgates : d.gatesOpen b = true) (hparent : d.parentBand b = false)
    (hprof : (d.prof b).present = true) (hecl : d.lant.eclipseFlag = false) (hplan : d.noBeacon b (d.sfFor b 0) = false)
    (hduty : d.dutyAdmits b
        { d.baseFrame b ret .beacon (d.beaconRate b) (d.beaconCls b) 64 (d.sfFor b 0) (d.devAt (slotLamp b (d.sfFor b 0) 0)) with
          data := padTo 64 (beaconHead (d.sfFor b 0) false), beacon := true }.span true
        (d.airQ b { d.baseFrame b ret .beacon (d.beaconRate b) (d.beaconCls b) 64 (d.sfFor b 0) (d.devAt (slotLamp b (d.sfFor b 0) 0)) with
          data := padTo 64 (beaconHead (d.sfFor b 0) false), beacon := true }) = true) :
    d.txBeacon b ret false = (d.onLant fun l => { l with lit := setBit l.lit (bandNum b) }).radTx b
      { d.baseFrame b ret .beacon (d.beaconRate b) (d.beaconCls b) 64 (d.sfFor b 0) (d.devAt (slotLamp b (d.sfFor b 0) 0)) with
        data := padTo 64 (beaconHead (d.sfFor b 0) false), beacon := true } := by
  refine (if_neg ?_).trans ((if_neg ?_).trans ?_)
  · simp [hgates, hparent, hprof, hplan]
  · simpa using hduty
  · exact congrArg (Device.radTx · b _) (if_neg fun h => Bool.eq_false_iff.mp hecl h.1)

/-- Settles O16. -/
theorem transmissions : Obligations.Transmissions := by
  refine ⟨fun s t b ret => ?commands, fun s t => ?requests⟩
  case commands =>
    intro d
    have hd : s.seen t = d := rfl
    clear_value d
    refine ⟨fun k h => act_eq_next hd (if_pos (by simpa using h)), fun h2 hb => ?kinds, fun h2 hb hgates hparent hprof hecl => ?beacon⟩
    case kinds =>
      have hopen : ¬ (d.domDown 2 || d.domDown (bandDom b)) = true := by simp [h2, hb]
      refine ⟨?_, ?_, fun g => ?_, ?_, ?_, fun g => ?_, fun hl => ?_, fun hl => ?_, ?_, fun slot rate cls frame => ?_⟩
      all_goals refine act_eq_next hd ((if_neg hopen).trans ?_)
      · rfl
      · rfl
      · rfl
      · rfl
      · rfl
      · rfl
      · exact if_pos hl
      · exact if_neg hl
      · rfl
      · rfl
    case beacon =>
      intro n f hplan hduty
      refine ⟨act_eq_next hd ((if_neg (by simp [h2, hb])).trans ?_), rfl, rfl, rfl, rfl⟩
      exact txBeacon_of_admitted hgates hparent hprof hecl hplan hduty
  case requests =>
    intro d
    have hd : s.seen t = d := rfl
    clear_value d
    refine ⟨fun b rate cls ret data => ?keeper, fun ch ret phr psdu => ?narrow⟩
    case keeper =>
      intro f
      refine ⟨fun lamp hup hb hrate hlen hfree => ?_, fun hup hb hrate hlen hfree => ?_,
        fun h => act_eq_next hd (if_pos (by simpa [or_assoc] using h))⟩
      all_goals
        refine act_eq_next hd ((if_neg (by simp [hup, hb, hrate, hlen])).trans ?_)
        show d.keeperPlanTx b f = _
        simp only [Device.keeperPlanTx, hfree]
    case narrow =>
      intro used f
      refine ⟨fun lamp hup h4 hch h1 h127 h11 h26 hfree => ?_, fun h => act_eq_next hd (if_pos (by simpa [or_assoc] using h))⟩
      refine act_eq_next hd ((if_neg ?_).trans ?_)
      · simp [hup, h4, hch, List.length_pos_iff.mp h1, h127, h11, h26]
      · show used.keeperPlanTx .m f = _
        simp only [Device.keeperPlanTx, hfree]

/-! ### Receive windows (R40, R73) -/

/-- Settles O17. -/
theorem receiveWindows : Obligations.ReceiveWindows := by
  intro s t b w d
  refine ⟨fun h => act_eq_next rfl (if_pos (by simpa using h)), fun h2 hb hprof hlit => ?command, ?close⟩
  case command =>
    intro now
    have hopen : ¬ (d.domSt 2 ≠ 3 ∨ d.domSt (bandDom b) ≠ 3 ∨ !(d.prof b).present ∨ (!d.litOrOff ∧ w ≠ .air)) := by
      simpa [h2, hb, hprof, imp_iff_not_or] using hlit
    refine ⟨fun hwin => act_eq_next rfl ((if_neg hopen).trans ?_), fun x d' hwin => ?given⟩
    · simp only [show ((s.seen t).rxSync b).winOf b w = none from hwin]
      rfl
    case given =>
      have hgo : rxCommand b w (s.seen t) =
          if (d'.radio b).wins.any (fun y => y.w == w && y.sf == x.sf) then d'
          else if (d'.radRx b x).2 then (d'.radRx b x).1 else ((d'.radRx b x).1.winLost b).winNoted b x true := by
        refine (if_neg hopen).trans ?_
        simp only [show ((s.seen t).rxSync b).winOf b w = some (x, d') from hwin]
      refine ⟨fun h => act_eq_next rfl (hgo.trans (if_pos h)), fun h => ?_⟩
      intro ready
      replace hgo := hgo.trans (if_neg (Bool.eq_false_iff.mp h))
      refine ⟨fun hin => act_eq_next rfl (hgo.trans ?_), fun hlate => act_eq_next rfl (hgo.trans ?_)⟩
      · have hrad : d'.radRx b x = (((((ready.bgAbort b).onRad b fun r => { r with wins := insertWin x r.wins }).replan b none).openWins b), true) :=
          if_neg (Nat.not_le.mpr hin)
        rw [hrad]
        rfl
      · have hrad : d'.radRx b x = (ready.bgAbort b, false) := if_pos hlate
        rw [hrad]
        rfl
  case close =>
    intro now
    refine ⟨fun hnone => act_eq_next rfl ?_, fun x hx => ?_⟩
    · simp only [rxWindowClose, show (((s.seen t).rxSync b).radio b).wins.find? (fun x => x.w == w) = none from hnone]
      rfl
    · intro headed
      have hgo : rxWindowClose b w (s.seen t) = if now.clk.now < x.closesAt ∨ x.closed then now
          else if x.isOpen && headed then
            now.onRad b fun r => { r with wins := r.wins.map fun y => if y = x then { y with closed := true } else y }
          else now.winEnd b x := by
        have hheaded : headed = match (now.radio b).cur with
            | some c => c.hdrOk
            | none => false := by
          show (now.radio b).cur.any _ = _
          cases (now.radio b).cur <;> rfl
        rw [hheaded]
        simp only [rxWindowClose, show (((s.seen t).rxSync b).radio b).wins.find? (fun x => x.w == w) = some x from hx]
        rfl
      refine ⟨fun h => act_eq_next rfl (hgo.trans (if_pos h)), fun hdue hcl ho hh => ?_, fun hdue hcl h => ?_⟩
      all_goals refine act_eq_next rfl (hgo.trans ((if_neg (not_or.mpr ⟨Nat.not_lt.mpr hdue, by simp [hcl]⟩)).trans ?_))
      · exact if_pos (by simp [ho, hh])
      · exact if_neg (by simpa [imp_iff_not_or] using h)

/-! ### Transitions and sequences (R22, R25, R45, R50) -/

/-- Settles O18. -/
theorem transitionsAndSequences : Obligations.TransitionsAndSequences := by
  intro s t b d
  refine ⟨?transition, fun sq i => ?step⟩
  case transition =>
    intro now
    refine ⟨fun hnone => act_eq_next rfl ?_, fun x rest htrans => ?_⟩
    · show Device.transEnd ((s.seen t).rxSync b) b = _
      simp only [Device.transEnd, show ((((((s.seen t).rxSync b).seqSync b).seqFlush b ((s.seen t).rxSync b).clk.now).radio b).trans = []) from hnone]
      rfl
    · intro moved
      have hgo : radioTransitionEnd b (s.seen t) = if now.clk.now < x.ends then now else
          match x.dest, (now.radio b).tx with
          | .tx, some run =>
            let go := moved.runOf b run.frame run.firstSym run.at_
            (moved.onRad b fun r => { r with tx := some go }).seqBegin b .txOn x.ends go.gain go.frame.ant
          | .rx, _ => moved.openWins b
          | _, _ => moved := by
        show Device.transEnd ((s.seen t).rxSync b) b = _
        simp only [Device.transEnd,
          show ((((((s.seen t).rxSync b).seqSync b).seqFlush b ((s.seen t).rxSync b).clk.now).radio b).trans = x :: rest) from htrans]
        rfl
      refine ⟨fun hearly => act_eq_next rfl (hgo.trans (if_pos hearly)), fun hdue htx hrx => ?_, fun hdue htx hnone => ?_,
        fun run hdue htx hrun => ?_, fun hdue hrx => ?_⟩
      all_goals refine act_eq_next rfl (hgo.trans ((if_neg (Nat.not_lt.mpr hdue)).trans ?_))
      · split
        · exact absurd ‹_› htx
        · exact absurd ‹_› hrx
        · rfl
      · simp only [htx, hnone]
      · simp only [htx, hrun]
      · simp only [hrx]
  case step =>
    intro now r w ctrl
    refine ⟨fun hnone => act_eq_next rfl ?_, fun s' z0 hrun h => act_eq_next rfl ?_, fun z0 hrun hhead hdue => act_eq_next rfl ?_⟩
    · simp only [sequenceStep, show (((s.seen t).seqSync b).radio b).seqRun = none from hnone]
      rfl
    · simp only [sequenceStep, show (((s.seen t).seqSync b).radio b).seqRun = some (s', z0) from hrun]
      exact if_neg fun ⟨hsq, hhead, hdue⟩ => h.elim (· hsq) fun h => h.elim (· hhead) (Nat.not_lt.mpr (hsq ▸ hdue))
    · simp only [sequenceStep, show (((s.seen t).seqSync b).radio b).seqRun = some (sq, z0) from hrun]
      exact if_pos ⟨trivial, hhead, hdue⟩

end Sys2Proof.Machine
end

section
/-! PROOFS. The radio front end's frame ends, calibrations and lock losses (chapter 2): each command by the cases of its
meaning. -/

namespace Sys2Proof.Machine

/-! ### A radio after it is changed -/

section
variable {d : Device} {b : Band}

@[simp] theorem radio_onRad (f : Radio → Radio) : (d.onRad b f).radio b = f (d.radio b) := by cases b <;> rfl

@[simp] theorem onRad_onRad (f g : Radio → Radio) : (d.onRad b f).onRad b g = d.onRad b (g ∘ f) := by cases b <;> rfl

theorem radio_of_rad {d' : Device} (h : d'.rad = d.rad) : d'.radio b = d.radio b := congrArg (·.get b) h

@[simp] theorem raiseRad_radio (c : Band) (off : Nat) (w : Word) : (d.raiseRad c off w).radio b = d.radio b := radio_of_rad (raise_rad ..)
@[simp] theorem raiseRad_clk (c : Band) (off : Nat) (w : Word) : (d.raiseRad c off w).clk = d.clk := raise_clk ..
@[simp] theorem inc16_radio (a : Nat) : (d.inc16 a).radio b = d.radio b := rfl
@[simp] theorem freeNext_radio : d.freeNext.radio b = d.radio b := rfl
@[simp] theorem inc_radio (a : Nat) : (d.inc a).radio b = d.radio b := rfl

end

/-! ### Frame ends (R30, R44, R50, R107) -/

/-- Settles O19. -/
theorem frameEnds : Obligations.FrameEnds := by
  intro s t b p cap d
  have hd : s.seen t = d := rfl
  clear_value d
  refine ⟨fun hnone => act_eq_next hd ?_, fun x hx hearly => act_eq_next hd ?_, fun x hx hdue hseal hbcn => act_eq_next hd ?_⟩
  · simp only [txFrameEnd, hnone]
  · simp only [txFrameEnd, hx]
    exact if_pos hearly
  · simp only [txFrameEnd, hx]
    refine (if_neg (Nat.not_lt.mpr hdue)).trans ?_
    simp only [Device.sealWaits, hseal, Option.bind_none, hx, hbcn, Bool.false_eq_true, if_false]
    rfl

/-! ### Calibrations (R32 to R36) -/

section
variable {d : Device} {b : Band}

theorem calTryGap_of_none {back : Bool} (h : (d.radio b).pend = []) : d.calTryGap b back = d := by
  simp only [Device.calTryGap, h]

theorem calTryGap_of_pending {p : CalPend} {rest : List CalPend} (h : (d.radio b).pend = p :: rest) :
    d.calTryGap b false = if (d.radio b).busy d.clk.now then d
      else if d.clk.now + (stepsTime (calSteps b (d.radio b).st) + (if (d.radio b).st = .rx then toRxTime else 0)) + calGap ≤ d.gapEnd b then
        d.calStart b p.group false 0
      else d := by
  simp only [Device.calTryGap, h, Bool.false_eq_true, or_false]

/-- What follows a calibration that has ended: the next one, or what waits is planned again, on the way back to RX where it came
from there (R33, R36). -/
def calAfter (b : Band) (back : Bool) (d : Device) : Device :=
  let next := if (d.radio b).forced.isEmpty then d.calTryGap b back else forcedCalStart b d
  if (next.radio b).cal.isSome then next.onRad b fun r => { r with cal := r.cal.map fun k => { k with backToRx := back } }
  else if ((next.retime b).radio b).tx.isNone ∧ ((next.retime b).radio b).trans = [] ∧ back then (next.retime b).replan b (some 2)
  else next.retime b

theorem calAfter_of_none (hcal : (d.radio b).cal = none) (hforced : (d.radio b).forced = []) (hpend : (d.radio b).pend = []) :
    calAfter b false d = d.retime b := by
  simp [calAfter, hforced, calTryGap_of_none hpend, hcal]

/-- The radio whose calibration `c` has ended, with the lock found or not (R36). -/
def calEnded (b : Band) (c : CalRun) (locked : Bool) (d : Device) : Device :=
  d.onRad b fun r =>
    { r with st := if locked && c.hadChannel then .locked else .idle, cal := none, trans := []
             pend := r.pend.filter fun p => p.group != c.group
             groups := if locked then r.groups.set GroupCal.reset c.group ⟨true, d.pwr.dieTemp⟩ else r.groups }

theorem synthCalEnd_of_due {c : CalRun} {locked : Bool} (hc : (d.radio b).cal = some c) (h : c.start ≤ d.clk.now) :
    synthCalEnd b locked d = calAfter b (locked && c.backToRx)
      (if locked then calEnded b c locked d else (calEnded b c locked d).raiseRad b 2 0) := by
  simp only [synthCalEnd, hc]
  exact if_neg (Nat.not_lt.mpr h)

end

/-- Settles O20. -/
theorem calibrations : Obligations.Calibrations := by
  refine ⟨fun s t temp => ?sample, fun s t b => ?start, fun s t b locked => ?finish⟩
  case sample =>
    intro d
    have hd : s.seen t = d := rfl
    clear_value d
    exact ⟨fun hp h2 h3 h4 => act_eq_next hd (if_neg (by simp [hp, h2, h3, h4])),
      fun h => act_eq_next hd (if_pos (by simpa [or_assoc] using h))⟩
  case start =>
    intro d r way begun
    have hd : s.seen t = d := rfl
    clear_value d
    have hforce : ∀ g, ∃ delay, delay ≤ usec ∧ (d.calStart b g true (d.freeVal % (usec + 1))).freeNext = (begun d g true delay).freeNext :=
      fun g => ⟨d.freeVal % (usec + 1), Nat.le_of_lt_succ (Nat.mod_lt _ (Nat.succ_pos _)), rfl⟩
    refine ⟨fun hnone => act_eq_next hd ?_, fun p rest hp hidle hgap => act_eq_next hd ?_, fun p rest hp h => act_eq_next hd ?_,
      fun hnone => act_eq_next hd ?_, fun g rest hg hbusy => act_eq_next hd ?_, fun g rest hg hidle => ?_, fun g => ?group⟩
    · exact calTryGap_of_none hnone
    · exact (calTryGap_of_pending hp).trans ((if_neg (Bool.eq_false_iff.mp hidle)).trans (if_pos hgap))
    · refine (calTryGap_of_pending hp).trans ?_
      obtain h | h := h
      · exact if_pos h
      · exact (ite_congr rfl (fun _ => rfl) fun _ => if_neg (Nat.not_le.mpr h)).trans (ite_self _)
    · simp only [forcedCalStart, show (d.radio b).forced = [] from hnone]
    · simp only [forcedCalStart, show (d.radio b).forced = g :: rest from hg]
      exact if_pos hbusy
    · obtain ⟨delay, hle, hcal⟩ := hforce g
      refine ⟨delay, hle, act_eq_next hd ?_⟩
      simp only [forcedCalStart, show (d.radio b).forced = g :: rest from hg]
      exact (if_neg (Bool.eq_false_iff.mp hidle)).trans hcal
    case group =>
      intro due
      refine ⟨fun h => act_eq_next hd (if_pos h), fun h => act_eq_next hd (if_neg (Bool.eq_false_iff.mp h)), fun hadm => ⟨fun hg => ?_, fun hg => ?_⟩⟩
      · exact ⟨act_eq_next hd ((keeperAccess_admitted hadm).trans (if_pos hg)), act_eq_next hd ((keeperAccess_admitted hadm).trans (if_pos hg))⟩
      · have hgo : calCmdForce b g d = d.calForce b g.val := (keeperAccess_admitted hadm).trans (if_neg (Nat.not_le.mpr hg))
        refine ⟨act_eq_next hd ((keeperAccess_admitted hadm).trans (if_neg (Nat.not_le.mpr hg))), fun hidle => ?_, fun hbusy => ?_⟩
        · obtain ⟨delay, hle, hcal⟩ := hforce g.val
          exact ⟨delay, hle, act_eq_next hd (hgo.trans ((if_neg (Bool.eq_false_iff.mp hidle)).trans hcal))⟩
        · exact act_eq_next hd (hgo.trans (if_pos hbusy))
  case finish =>
    intro d
    have hd : s.seen t = d := rfl
    clear_value d
    refine ⟨fun hnone => act_eq_next hd ?_, fun c hc hearly => act_eq_next hd ?_, fun c hc hdue hforced hpend => ?ends⟩
    · simp only [synthCalEnd, hnone]
    · simp only [synthCalEnd, hc]
      exact if_pos hearly
    case ends =>
      have hgone : (d.radio b).pend.filter (fun p => p.group != c.group) = [] := by
        simpa [List.filter_eq_nil_iff] using hpend
      refine ⟨fun hl hch hback => act_eq_next hd ?_, fun hl => act_eq_next hd ?_⟩
      · refine (synthCalEnd_of_due hc hdue).trans ?_
        rw [hback, if_pos rfl, Bool.and_false, calAfter_of_none]
        · simp only [calEnded, hch, Bool.and_self, if_true]
        all_goals simp [calEnded, hforced, hgone]
      · refine (synthCalEnd_of_due hc hdue).trans ?_
        rw [if_neg (by simp), Bool.false_and, calAfter_of_none]
        · simp only [calEnded, Bool.false_and, Bool.false_eq_true, if_false]
        all_goals simp [calEnded, hforced, hgone]

/-! ### What a charge to the duty windows keeps (R107) -/

section
variable {d : Device} {b : Band}

@[simp] theorem onDuty_rad (s : Nat) (f : DutyWin → DutyWin) : (d.onDuty b s f).rad = d.rad := rfl
@[simp] theorem onDuty_clk (s : Nat) (f : DutyWin → DutyWin) : (d.onDuty b s f).clk = d.clk := rfl

@[simp] theorem dutyWatch_rad (s : Nat) : (d.dutyWatch b s).rad = d.rad := by
  unfold Device.dutyWatch
  dsimp only
  split
  · split <;> simp
  · rfl

@[simp] theorem dutyWatch_clk (s : Nat) : (d.dutyWatch b s).clk = d.clk := by
  unfold Device.dutyWatch
  dsimp only
  split
  · split <;> simp
  · rfl

@[simp] theorem dutyCharge_rad (sp : Nat × Nat) (beacon : Bool) (q : Nat) (ends : Time) :
    (d.dutyCharge b sp beacon q ends).rad = d.rad := by
  unfold Device.dutyCharge
  exact foldl_keeps (g := Device.rad) (fun d k => by simp) _ _

@[simp] theorem dutyCharge_clk (sp : Nat × Nat) (beacon : Bool) (q : Nat) (ends : Time) :
    (d.dutyCharge b sp beacon q ends).clk = d.clk := by
  unfold Device.dutyCharge
  exact foldl_keeps (g := Device.clk) (fun d k => by simp) _ _

@[simp] theorem dutyCut_radio (x : TxRun) (till : Time) : (d.dutyCut b x till).radio b = d.radio b := by
  refine radio_of_rad ?_
  unfold Device.dutyCut
  dsimp only
  split <;> simp

@[simp] theorem dutyCut_clk (x : TxRun) (till : Time) : (d.dutyCut b x till).clk = d.clk := by
  unfold Device.dutyCut
  dsimp only
  split <;> simp

end

/-! ### Lock losses and background calibrations (R41, R42, R44) -/

section
variable {d : Device} {b : Band}

/-- A lock lost on the air, by the radio's part: what is sent is cut off after a ramp (R41). -/
theorem lockLossRadio_of_tx {x : TxRun} (hst : (d.radio b).st = .tx) (hx : (d.radio b).tx = some x) :
    d.lockLossRadio b =
      let lost := (d.inc16 (Reg.RAD_LOCK_LOSS_CNT b)).raiseRad b 3 0
      Device.retime (((lost.cutTx b x .lockLost).freeNext).txOff b (d.clk.now + lost.freeVal % (usec + 1)) .idle 0) b := by
  simp only [Device.lockLossRadio, hst, hx, true_or, if_true]

/-- A lock lost in RX, by the radio's part: the windows that are open are over (R41). -/
theorem lockLossRadio_of_rx (hst : (d.radio b).st = .rx) :
    d.lockLossRadio b =
      let lost := (d.inc16 (Reg.RAD_LOCK_LOSS_CNT b)).raiseRad b 3 0
      let shut (w : Win) : Win := if w.isOpen then { w with isOpen := false, closesAt := min w.closesAt d.clk.now } else w
      Device.retime ((lost.seqBegin b .rxOff d.clk.now 0 0).onRad b fun r =>
        { r with st := .idle, trans := [], wins := r.wins.map shut }) b := by
  simp only [Device.lockLossRadio, hst, or_true, if_true]

theorem lockLossRadio_of_other (htx : (d.radio b).st ≠ .tx) (hrx : (d.radio b).st ≠ .rx) : d.lockLossRadio b = d := by
  unfold Device.lockLossRadio
  dsimp only
  split
  · exact absurd ‹_› htx
  · exact absurd ‹_› htx
  · exact absurd ‹_› hrx
  · exact if_neg (by simp [htx, hrx])

/-- The frame being received, if any, is ended with result 4 (R41). -/
def lossHeard (b : Band) (d : Device) : Device :=
  match (d.radio b).cur with
  | some c => (d.rxResult b c 4).rxIdle b
  | none => d

theorem lossHeard_of_none (h : (d.radio b).cur = none) : lossHeard b d = d := by
  simp only [lossHeard, h]

theorem lossHeard_of_frame {c : RxDet} (h : (d.radio b).cur = some c) : lossHeard b d = (d.rxResult b c 4).rxIdle b := by
  simp only [lossHeard, h]

theorem lockLoss_of_silent (h : ((lossHeard b (d.rxSync b)).radio b).st ≠ .tx) :
    lockLoss b d = (lossHeard b (d.rxSync b)).lockLossRadio b := by
  refine congrArg (Device.lockLossRadio · b) ?_
  show (match ((lossHeard b (d.rxSync b)).radio b).st, ((lossHeard b (d.rxSync b)).radio b).tx with
    | .tx, some x => (lossHeard b (d.rxSync b)).dutyCut b x (lossHeard b (d.rxSync b)).clk.now
    | _, _ => lossHeard b (d.rxSync b)) = _
  split
  · exact absurd ‹_› h
  · rfl

theorem lockLoss_of_tx {x : TxRun} (hst : ((lossHeard b (d.rxSync b)).radio b).st = .tx)
    (hx : ((lossHeard b (d.rxSync b)).radio b).tx = some x) :
    lockLoss b d = ((lossHeard b (d.rxSync b)).dutyCut b x (lossHeard b (d.rxSync b)).clk.now).lockLossRadio b := by
  refine congrArg (Device.lockLossRadio · b) ?_
  show (match ((lossHeard b (d.rxSync b)).radio b).st, ((lossHeard b (d.rxSync b)).radio b).tx with
    | .tx, some x => (lossHeard b (d.rxSync b)).dutyCut b x (lossHeard b (d.rxSync b)).clk.now
    | _, _ => lossHeard b (d.rxSync b)) = _
  rw [hst, hx]

end

/-- Settles O21. -/
theorem lockLossAndBackground : Obligations.LockLossAndBackground := by
  intro s t b d r
  refine ⟨?loss, fun k => ?begins, fun result => ⟨fun hnone => act_eq_next rfl ?_, fun k hk hne => act_eq_next rfl ?_, fun h4 => ?fits⟩⟩
  case loss =>
    intro now
    refine ⟨fun hcur htx hrx => act_eq_next rfl ?_, fun hcur hst => act_eq_next rfl ?_, fun c hcur hst => act_eq_next rfl ?_,
      fun x hcur hst hx => ?sent⟩
    · have hheard : lossHeard b ((s.seen t).rxSync b) = now := lossHeard_of_none hcur
      rw [lockLoss_of_silent (by rwa [hheard]), hheard, lockLossRadio_of_other htx hrx]
    · have hheard : lossHeard b ((s.seen t).rxSync b) = now := lossHeard_of_none hcur
      rw [lockLoss_of_silent (by simp [hheard, hst]), hheard, lockLossRadio_of_rx hst]
    · have hheard : lossHeard b ((s.seen t).rxSync b) = (now.rxResult b c 4).rxIdle b := lossHeard_of_frame hcur
      have hst' : (((now.rxResult b c 4).rxIdle b).radio b).st = .rx := by simpa [Device.rxIdle, Device.rxResult] using hst
      rw [lockLoss_of_silent (by simp [hheard, hst']), hheard, lockLossRadio_of_rx hst']
      rfl
    case sent =>
      have hheard : lossHeard b ((s.seen t).rxSync b) = now := lossHeard_of_none hcur
      have hramp := Nat.mod_lt (((now.dutyCut b x now.clk.now).inc16 (Reg.RAD_LOCK_LOSS_CNT b)).raiseRad b 3 0).freeVal (Nat.succ_pos usec)
      refine ⟨_, Nat.le_add_right _ _, Nat.add_le_add_left (Nat.le_of_lt_succ hramp) _, ?_⟩
      intro charged lost
      refine act_eq_next rfl ?_
      rw [lockLoss_of_tx (by rwa [hheard]) (by rwa [hheard]), hheard, lockLossRadio_of_tx (by rwa [dutyCut_radio]) (by rwa [dutyCut_radio]),
        dutyCut_clk]
  case begins =>
    intro may
    have hmay : may ↔ (r.st = .locked ∧ !r.busy d.clk.now ∧ r.tx.isNone ∧ r.wins.isEmpty ∧ r.bg.isNone ∧ r.forced.isEmpty ∧
        d.cb (Reg.RAD_BGCAL_CTRL b) k.val ∧ (k.val = 4 → d.dpdOn b ∧ r.caps ≠ [])) := by
      simp only [may, Bool.not_eq_true', Option.isNone_iff_eq_none, List.isEmpty_iff]
    exact ⟨fun h => act_eq_next rfl (if_pos (hmay.mp h)), fun h => act_eq_next rfl (if_neg (hmay.not.mp h))⟩
  · simp only [bgcalEnd, show ((s.seen t).radio b).bg = none from hnone]
    rfl
  · simp only [bgcalEnd, show ((s.seen t).radio b).bg = some k from hk]
    refine (if_neg hne).trans ?_
    rw [onRad_onRad]
    rfl
  case fits =>
    intro isOver
    have hgo : bgcalEnd b result (s.seen t) = if isOver.dpdOn b then isOver.dpdRun b else isOver := by
      simp only [bgcalEnd, show ((s.seen t).radio b).bg = some 4 from h4]
      rfl
    exact ⟨fun h => act_eq_next rfl (hgo.trans (if_pos h)), fun h => act_eq_next rfl (hgo.trans (if_neg (Bool.eq_false_iff.mp h)))⟩

end Sys2Proof.Machine
end
